-- ==== Sys2Proof/Word.lean ====
section
/-! DEFINITION. The byte of the lines and ports, and the stamp of the station clock. -/

namespace Sys2Proof

/-- One byte of the corridor line, a bearer port or the configuration memory (12_frame). -/
abbrev Byte := BitVec 8

/-- A stamp: the pair (epoch, clock) of 00_scope 4.2, the clock in milliseconds. -/
structure Stamp where
  epoch : BitVec 16
  clock : BitVec 32
deriving DecidableEq, Repr

end Sys2Proof
end

