-- ==== Sys2Proof/Syntax.lean ====
section
/-! DEFINITION. The commands: one constructor for each row of spec/opcode_table.json, with the row's operands. -/

namespace Sys2Proof

/-- A bearer letter (00_scope 4.3). -/
inductive Letter where
  | a | b
deriving DecidableEq, Repr

/-- A call tag or a report tag: origin address and number (00_scope 4.3). -/
structure Tag where
  origin : Nat
  number : Nat
deriving DecidableEq, Repr

/-- A whole frame as it stood on the corridor line (12_frame 12.2): every part but the count, which is 6 plus the body's
length, and the kind, which the command's row gives. -/
structure RxFrame where
  segment : BitVec 16
  source : Byte
  dest : Byte
  body : List Byte
  check : BitVec 16
deriving DecidableEq, Repr

/-- The noise bits that complete a conditioning group, in stream order, and the draw that the group is compressed into (R160;
log entry 11). -/
structure ConditionedNoise where
  bits : List Bool
  draw : BitVec 16
deriving DecidableEq, Repr

/-- One network of a SCAN_RESULT: network id, level and flags byte, whose bit 0 says emergency-capable (12.4). -/
structure ScanItem where
  network : BitVec 24
  level : Byte
  flags : Byte
deriving DecidableEq, Repr

/-- The reason of an ENDED indication (12.4). -/
inductive EndReason where
  | remoteHangup | networkLost | rejected
deriving DecidableEq, Repr

/-- Which call context a CALL_STATUS schedule belongs to (R91). -/
inductive ContextRef where
  | origin
  | carrier (tag : Tag)
deriving DecidableEq, Repr

/-- The commands. Each constructor is one row of spec/opcode_table.json; its docstring is in the definition of its
meaning. -/
inductive Instr where
  -- rails, reset line, configuration memory, power unit, clock
  | keepRailApplied
  | resetLineAsserted
  | resetLineReleased
  | mainRailLost
  | mainRailReturn
  | configReadComplete (bytes : List Byte)
  | configReadLimitExpiry
  | reloadReadComplete (bytes : List Byte)
  | idleTimerExpiry
  | checkInTimerExpiry
  | clockWrap
  -- frames taken from the corridor line, and timers of the blocks that take them
  | announce (f : RxFrame)
  | peerAgeingExpiry (address : Nat)
  | announcePeriodExpiry
  | solicitReplyDelayExpiry
  | claim (f : RxFrame)
  | contestTimerExpiry (circuit : Fin 6)
  | orphanLimitExpiry (circuit : Fin 6)
  | callStatus (f : RxFrame)
  | borrowVoice (f : RxFrame)
  | borrowReport (f : RxFrame)
  | lendCall (f : RxFrame)
  | lendReport (f : RxFrame)
  | declineCall (f : RxFrame)
  | declineReport (f : RxFrame)
  | connected (f : RxFrame)
  | clear (f : RxFrame)
  | wakeFrame (f : RxFrame)
  | reportResult (f : RxFrame)
  | status (f : RxFrame)
  | malformedFrame (count : Byte)
  | queryStation (f : RxFrame)
  | queryFaults (f : RxFrame)
  | queryDirectory (f : RxFrame)
  | queryCircuits (f : RxFrame)
  | queryBearer (f : RxFrame)
  | queryQueues (f : RxFrame)
  | unknownSelector (f : RxFrame)
  | clearFaults (f : RxFrame)
  | restart (f : RxFrame)
  | reload (f : RxFrame)
  | recapture (f : RxFrame)
  | unknownOrder (f : RxFrame)
  -- the line and the station's own attempts
  | idleGap
  | lineBusy
  | backoffSlot
  | collision
  | transmissionComplete
  -- the noise source
  | repetitionFailure
  | proportionWindowJudged (bits : List Bool)
  | drawConditioned (noise : ConditionedNoise)
  -- indications at the bearer ports, and the bearers' timers
  | ready (bearer : Letter)
  | scanResult (bearer : Letter) (networks : List ScanItem)
  | camped (bearer : Letter) (network : BitVec 24) (level : Byte)
  | level (bearer : Letter) (level : Byte)
  | progress (bearer : Letter)
  | answered (bearer : Letter)
  | ended (bearer : Letter) (reason : EndReason)
  | reportSent (bearer : Letter)
  | reportFailed (bearer : Letter)
  | lost (bearer : Letter)
  | fault (bearer : Letter)
  | undecodableIndication (bearer : Letter) (kind : Byte) (params : List Byte)
  | commandTimeout (bearer : Letter)
  | dialAnswerLimitExpiry (bearer : Letter)
  | rescanTimerExpiry (bearer : Letter)
  | barExpiry (bearer : Letter) (network : Nat)
  | recheckTimerExpiry (bearer : Letter)
  | failureWaitExpiry (bearer : Letter)
  | settlingGuardExpiry (bearer : Letter)
  -- the caller panel
  | offHook
  | onHook
  | buttonInputPressed
  | buttonPressCounts
  | buttonReleaseCounts
  | candidateFails
  | buttonWindowExpiry
  | failedPeriodExpiry
  -- the call engine's timers
  | answerTimeoutExpiry
  | wakeAllowanceExpiry
  | awaitingConnectExpiry
  | pauseExpiry
  | setupDeadlineExpiry
  | partnerSilence
  | carrierPartnerSilence (tag : Tag)
  | callStatusScheduleExpiry (context : ContextRef)
  | recoveryLimitExpiry
  -- the cabinet monitor and the report unit
  | sample (x y z : Int)
  | sensorSilence
  | impactQuietLimitExpiry
  | stallCheckExpiry
  | reportAnswerTimerExpiry
  | resultTimerExpiry
  | restTimerExpiry (tag : Tag)
  | relayRestTimerExpiry (tag : Tag)
  | relayLifetimeExpiry (tag : Tag)
  -- the last rows of the table
  | keepRailLost
  | unknownFrameKind (kind : Byte) (f : RxFrame)
deriving DecidableEq, Repr

end Sys2Proof
end

