-- ==== Sys2Proof/WellFormed.lean ====
section
/-! DEFINITION. Which commands are well formed: operands inside what the line, the port or the timer can bring about. -/

namespace Sys2Proof

/-- A frame whose count lies in 6-62 (R141). -/
def RxFrame.wf (f : RxFrame) : Bool := f.body.length ≤ 56

/-- A tag of this segment: origin address 0-32, number 0-4,095 (00_scope 4.3). -/
def Tag.wf (t : Tag) : Bool := t.origin ≤ 32 && t.number ≤ 4095

/-- The first byte of a body: a BORROW's sub-kind, a LEND's or DECLINE's tag type, a QUERY's selector, a SERVICE_ORDER's
order (12.2). -/
def RxFrame.leads (f : RxFrame) (b : Byte) : Bool := f.body.head? == some b

/-- Whether a bearer port message decodes to an indication by the table of 12.4 and R188. -/
def indicationDecodes (kind : Byte) (params : List Byte) : Bool :=
  match kind.toNat with
  | 129 | 132 | 133 | 135 | 136 | 138 | 139 => params.length == 0
  | 130 =>
    match params with
    | [] => false
    | n :: rest => n.toNat ≤ 6 && rest.length == 5 * n.toNat
  | 131 => params.length == 4
  | 134 =>
    match params with
    | [r] => 1 ≤ r.toNat && r.toNat ≤ 3
    | _ => false
  | 137 => params.length == 1
  | _ => false

/-- The checks on a command. A frame row takes only frames of its own sub-kind, tag type, selector or order; a frame with
an undefined code there is well formed in the rows that R186 lets discard it. -/
def Instr.wf : Instr → Bool
  | .keepRailApplied => true
  | .resetLineAsserted => true
  | .resetLineReleased => true
  | .mainRailLost => true
  | .mainRailReturn => true
  | .configReadComplete _ => true
  | .configReadLimitExpiry => true
  | .reloadReadComplete _ => true
  | .idleTimerExpiry => true
  | .checkInTimerExpiry => true
  | .clockWrap => true
  | .announce f => f.wf
  | .peerAgeingExpiry address => 1 ≤ address && address ≤ 32
  | .announcePeriodExpiry => true
  | .solicitReplyDelayExpiry => true
  | .claim f => f.wf
  | .contestTimerExpiry _ => true
  | .orphanLimitExpiry _ => true
  | .callStatus f => f.wf
  | .borrowVoice f => f.wf && !f.leads 2
  | .borrowReport f => f.wf && !f.leads 1
  | .lendCall f => f.wf && !f.leads 2
  | .lendReport f => f.wf && !f.leads 1
  | .declineCall f => f.wf && !f.leads 2
  | .declineReport f => f.wf && !f.leads 1
  | .connected f => f.wf
  | .clear f => f.wf
  | .wakeFrame f => f.wf
  | .reportResult f => f.wf
  | .status f => f.wf
  | .malformedFrame count => count.toNat < 6 || 62 < count.toNat
  | .queryStation f => f.wf && f.leads 1
  | .queryFaults f => f.wf && f.leads 2
  | .queryDirectory f => f.wf && f.leads 3
  | .queryCircuits f => f.wf && f.leads 4
  | .queryBearer f => f.wf && f.leads 5
  | .queryQueues f => f.wf && f.leads 6
  | .unknownSelector f => f.wf && !([1, 2, 3, 4, 5, 6].any fun b => f.leads b)
  | .clearFaults f => f.wf && f.leads 1
  | .restart f => f.wf && f.leads 2
  | .reload f => f.wf && f.leads 3
  | .recapture f => f.wf && f.leads 4
  | .unknownOrder f => f.wf && !([1, 2, 3, 4].any fun b => f.leads b)
  | .idleGap => true
  | .lineBusy => true
  | .backoffSlot => true
  | .collision => true
  | .transmissionComplete => true
  | .repetitionFailure => true
  | .proportionWindowJudged bits => bits.length ≤ 512
  | .drawConditioned noise => noise.bits.length ≤ 512
  | .ready _ => true
  | .scanResult _ networks => networks.length ≤ 6
  | .camped _ _ _ => true
  | .level _ _ => true
  | .progress _ => true
  | .answered _ => true
  | .ended _ _ => true
  | .reportSent _ => true
  | .reportFailed _ => true
  | .lost _ => true
  | .fault _ => true
  | .undecodableIndication _ kind params => !indicationDecodes kind params
  | .commandTimeout _ => true
  | .dialAnswerLimitExpiry _ => true
  | .rescanTimerExpiry _ => true
  | .barExpiry _ network => 1 ≤ network && network ≤ 999999
  | .recheckTimerExpiry _ => true
  | .failureWaitExpiry _ => true
  | .settlingGuardExpiry _ => true
  | .offHook => true
  | .onHook => true
  | .buttonInputPressed => true
  | .buttonPressCounts => true
  | .buttonReleaseCounts => true
  | .candidateFails => true
  | .buttonWindowExpiry => true
  | .failedPeriodExpiry => true
  | .answerTimeoutExpiry => true
  | .wakeAllowanceExpiry => true
  | .awaitingConnectExpiry => true
  | .pauseExpiry => true
  | .setupDeadlineExpiry => true
  | .partnerSilence => true
  | .carrierPartnerSilence tag => tag.wf
  | .callStatusScheduleExpiry .origin => true
  | .callStatusScheduleExpiry (.carrier tag) => tag.wf
  | .recoveryLimitExpiry => true
  | .sample _ _ _ => true
  | .sensorSilence => true
  | .impactQuietLimitExpiry => true
  | .stallCheckExpiry => true
  | .reportAnswerTimerExpiry => true
  | .resultTimerExpiry => true
  | .restTimerExpiry tag => tag.wf
  | .relayRestTimerExpiry tag => tag.wf
  | .relayLifetimeExpiry tag => tag.wf
  | .keepRailLost => true
  | .unknownFrameKind kind f => f.wf && (kind.toNat == 0 || 13 < kind.toNat)

end Sys2Proof
end

