-- ==== Sys2Proof/Decode.lean ====
section
/-! DEFINITION. The decoder the host asks for. The opcode table gives none of its rows bits: a command arrives at a line
of its own, not as a word, so no word spells one. (What the 410 decodes from frame bodies, the configuration record and
the bearer ports is in Machine/Operands.lean.) -/

namespace Sys2Proof

/-- The command that a word spells by the table's bits: none, since no row of spec/opcode_table.json gives bits. -/
def decodeTableWord (_nbits _w : Nat) : Option Instr := none

end Sys2Proof
end

