-- ==== Sys2Proof/Config.lean ====
section
/-! DEFINITION. The values the manual leaves open for good: constants without a body, so that nothing can be proved of
their value. -/

namespace Sys2Proof

/-- What a 32-bit count of the keep domain holds after one more increment past 4,294,967,295. The spec gives the counts
lent (R88), reports delivered (R137) and reports dropped (R133, R140) their width and does not say what an increment at
the top gives: a free value, fresh for each use (the argument is the State's counter `free`). Log entry 12. -/
opaque Config.countPastMaximum : Nat → BitVec 32

end Sys2Proof
end

