-- ==== Sys2Proof/Machine/State.lean ====
section
/-! DEFINITION. What the 410 holds: one structure for each block, the station made of them, and the state right after a
power-on reset. Plain data throughout. -/

namespace Sys2Proof.Machine

/-- A timer: stopped, or running to a deadline. -/
abbrev Timer := Option Stamp

/-- One of the six corridor circuits; circuit n of the spec is n - 1 here (00_scope 4.3). -/
abbrev Circuit := Fin 6

/-! ### Reasons a step stops -/

/-- Faults. The spec gives no event at which the station stops for good: every fault of R178 is a record in the fault unit,
and the station goes on. So the type is empty, and no command ends in a fault. -/
inductive Fault : Type
deriving DecidableEq, Repr

/-- Refusals. -/
inductive Refusal where
  /-- Raised by an arm of `exec` whose command has no meaning yet. Safe: nothing can be proved of such a command. No arm
  is in this case. -/
  | notModelled (mnemonic : String)
deriving DecidableEq, Repr

/-! ### Power unit and keep domain (chapter Power, Standby and Start-up) -/

/-- Operating states (R165), in the order that codes them (12.1). -/
inductive OpState where
  | start | active | standby | isolated
deriving DecidableEq, Repr

/-- Start causes (R165). -/
inductive StartCause where
  | powerOn | warm | wake
deriving DecidableEq, Repr

/-- Wake causes (R173), in the order of their codes (12.1). -/
inductive WakeCause where
  | offHook | button | impact | tilt | knockdown | wakeFrame | checkIn
deriving DecidableEq, Repr

/-- Standby progress (R171). -/
inductive Progress where
  | none | waitingCommand | announcing | waitingEntry
deriving DecidableEq, Repr

/-- The configuration record's values (R166). A copy without a station address is the built-in set (R168). -/
structure Configuration where
  address : Option Nat
  segment : Option (BitVec 16)
  bearersFitted : Nat
  circuits : Nat
  announcePeriod : Nat
  /-- Answer timeout in half-seconds (12.3). -/
  answerTimeout : Nat
  wakeAllowance : Nat
  localPreference : Nat
  lendMinimum : Nat
  setupLimit : Nat
  standbyEnable : Bool
  idleTime : Nat
  /-- Check-in period in hours, 0 for off. -/
  checkIn : Nat
  /-- Impact threshold in tenths of g. -/
  impactThreshold : Nat
  /-- Tilt threshold in degrees. -/
  tiltThreshold : Nat
  label : List Byte
  destination : List Byte
deriving DecidableEq, Repr

/-- The call tally (R88). -/
structure Tally where
  placed : BitVec 32
  connected : BitVec 32
  unplaced : BitVec 32
  withdrawn : BitVec 32
  interrupted : BitVec 32
  lent : BitVec 32
deriving DecidableEq, Repr

/-- Fault kinds (R178), in the order of the rule's table. -/
inductive FaultKind where
  | frameCheck | lineCongestion | drawHealth | bearerTimeout | reportDropped | bearerFailed | circuitMismatch
  | partnerLost | callUnplaced | reportUndelivered | sensorSilent | configRejected | configInvalid | addressClash
deriving DecidableEq, Repr

/-- Fault classes (R178). -/
inductive FaultClass where
  | correctable | nonFatal | fatal
deriving DecidableEq, Repr

/-- A set of classes: a CLEAR_FAULTS order's set, or the class flags of the fault summary (R178, 12.1). -/
structure ClassSet where
  correctable : Bool
  nonFatal : Bool
  fatal : Bool
deriving DecidableEq, Repr

/-- The fault summary, the per-kind counters and the last-fault record (R178). -/
structure Faults where
  flags : ClassSet
  /-- One counter for each kind, 0-255, in the order of R178. -/
  counters : Vector Nat 14
  last : Option (FaultKind × Stamp)
deriving DecidableEq, Repr

/-- Three signed values in mg on the axes X, Y and Z (00_scope 4.6). -/
structure IVec where
  x : Int
  y : Int
  z : Int
deriving DecidableEq, Repr

/-- Three exact values in mg: the baseline is a running average (R125). -/
structure QVec where
  x : Rat
  y : Rat
  z : Rat
deriving DecidableEq, Repr

/-- The keep domain (R176). -/
structure Keep where
  /-- Station clock and epoch (R175). -/
  clock : Stamp
  config : Option Configuration
  tally : Tally
  lastCall : Nat
  lastReport : Nat
  delivered : BitVec 32
  dropped : BitVec 32
  reference : Option IVec
  faults : Faults
deriving DecidableEq, Repr

/-- A reload read in progress (R169). -/
structure ReloadRead where
  /-- The 500 ms limit. -/
  limit : Stamp
  /-- The segment code of the order's frame, for the answer of a station that has none of its own (R141). -/
  segment : BitVec 16
  /-- The idle condition has failed since the read began. -/
  idleFailed : Bool
deriving DecidableEq, Repr

/-- The power unit (R165-R177). -/
structure Power where
  opState : OpState
  startCause : StartCause
  wakeCause : Option WakeCause
  keepRail : Bool
  mainRail : Bool
  resetLine : Bool
  /-- Held in reset: the reset line is asserted, or the main rail is absent outside STANDBY (R177). -/
  held : Bool
  /-- A wake cause taken in STANDBY while the main rail is absent (R177). -/
  heldWake : Option WakeCause
  /-- The configuration read of START, with its 500 ms limit (R167). -/
  configRead : Timer
  reload : Option ReloadRead
  idleTimer : Timer
  progress : Progress
  checkIn : Timer
  /-- The condition of ADDRESS_CLASH (R145, R178). -/
  clash : Bool
deriving DecidableEq, Repr

/-! ### Peer directory -/

/-- Power states a peer announces (R1). -/
inductive PeerPower where
  | active | standby
deriving DecidableEq, Repr

/-- Summary classes (R2), in the order of their codes (12.1). -/
inductive SummaryClass where
  | available | busy | settling | noService | down | failed
deriving DecidableEq, Repr

/-- A bearer summary (R1). The network id is 0 where none. -/
structure Summary where
  letter : Letter
  cls : SummaryClass
  grade : Nat
  network : Nat
deriving DecidableEq, Repr

/-- A held circuit as an ANNOUNCE states it (R1). -/
structure HeldCircuit where
  circuit : Nat
  tag : Tag
  age : Nat
deriving DecidableEq, Repr

/-- A directory entry (R1). -/
structure PeerEntry where
  address : Nat
  power : PeerPower
  lendReady : Bool
  period : Nat
  circuits : Nat
  summaries : List Summary
  held : Option HeldCircuit
  lastHeard : Stamp
deriving DecidableEq, Repr

/-- The directory and the effective circuit count (R1, R7). -/
structure Directory where
  entries : List PeerEntry
  effective : Nat
deriving DecidableEq, Repr

/-- A solicit reply (R14). -/
inductive Reply where
  | none
  | waitingDraw
  | delay (deadline : Stamp)
deriving DecidableEq, Repr

/-- The station's own announcing, beside the queued ANNOUNCE itself (R12-R15). -/
structure Announcing where
  mark : Bool
  /-- The solicit flag of the ANNOUNCE that the mark queues, set at an abandonment (R13). -/
  markSolicit : Bool
  period : Timer
  reply : Reply
  /-- Causes held back since the standby decision: none, or some with the solicit flag of any of them (R13). -/
  heldBack : Option Bool
deriving DecidableEq, Repr

/-! ### Circuit unit -/

/-- Reasons of a CLEAR (12.1), in the order of their codes. -/
inductive ClearReason where
  | callerEnded | farEnd | dialFailed | noAnswer | bearerLost | partnerSilent | setupExpired | late | circuitConflict
deriving DecidableEq, Repr

/-- A circuit claim (R16). -/
structure Claim where
  claimant : Nat
  tag : Tag
  draw : Nat
deriving DecidableEq, Repr

/-- An entry of the circuit view (R16). A HELD entry is a peer's, with its last-refreshed stamp, or this station's, with
the own flag. -/
inductive CircuitEntry where
  | free
  | contested (best : Claim) (start : Stamp)
  | heldByPeer (holder : Nat) (tag : Tag) (start refreshed : Stamp)
  | heldOwn (holder : Nat) (tag : Tag) (start : Stamp)
deriving DecidableEq, Repr

/-- Where an attempt of the own claim round stands (R26-R29). -/
inductive AttemptStage where
  | waitingDraw
  | claimSent (draw : Nat)
  | contesting (draw : Nat)
deriving DecidableEq, Repr

/-- The CLEAR reason and destination given when a round is abandoned (R29). -/
structure Abandonment where
  reason : ClearReason
  dest : Nat
deriving DecidableEq, Repr

/-- The own claim round (R26). -/
structure Round where
  tag : Tag
  attempts : Nat
  attempted : List Circuit
  circuit : Circuit
  stage : AttemptStage
  abandoned : Option Abandonment
deriving DecidableEq, Repr

/-- The circuit unit (R16, R26). -/
structure Circuits where
  view : Vector CircuitEntry 6
  round : Option Round
  /-- A request held while an abandoned round runs on (R26). -/
  request : Option Tag
deriving DecidableEq, Repr

/-- Reasons of a round failure (R26, R27). -/
inductive RoundFailure where
  | noFreeCircuit | attemptsLost | noLine
deriving DecidableEq, Repr

/-! ### Reports -/

/-- Report kinds (12.1). -/
inductive ReportKind where
  | impact | tilt | knockdown | callUnplaced | callDropped
deriving DecidableEq, Repr

/-- Axes (R128), in the order of their codes. -/
inductive Axis where
  | x | y | z
deriving DecidableEq, Repr

/-- A report record (R132). -/
structure Record where
  tag : Tag
  kind : ReportKind
  first : Stamp
  last : Stamp
  repeats : Nat
  /-- Peak level, 0 where absent (12.2). -/
  peak : Nat
  axis : Option Axis
  label : List Byte
deriving DecidableEq, Repr

/-- Delivery states of a report entry (R133) or relay entry (R138). -/
inductive Delivery where
  | waiting | resting | inFlight
deriving DecidableEq, Repr

/-- The route of a report entry (R133). -/
inductive Route where
  | absent
  | ownBearer
  | asking (lender : Nat)
  | relayed (lender : Nat)
deriving DecidableEq, Repr

/-- An entry of the report queue (R133). -/
structure ReportEntry where
  record : Record
  /-- The square of the IMPACT's peak in mg, kept exact for later merges (R133); 0 for other kinds. -/
  peakSq : Rat
  state : Delivery
  route : Route
  attempts : Nat
  declined : List Nat
  /-- Rest timer, answer timer or result timer, by state and route. -/
  timer : Timer
deriving DecidableEq, Repr

/-- An entry of the relay queue (R138). -/
structure RelayEntry where
  record : Record
  state : Delivery
  attempts : Nat
  rest : Timer
  lifetime : Timer
  /-- The lifetime expired while the bearer was granted: the outcome is final (R139). -/
  expired : Bool
deriving DecidableEq, Repr

/-- The report unit (R133, R134, R138). -/
structure Reports where
  queue : List ReportEntry
  relay : List RelayEntry
  stall : Timer
deriving DecidableEq, Repr

/-! ### Bearers -/

/-- Bearer states (R38), in the order that codes them. -/
inductive BearerState where
  | off | starting | searching | noService | camping | available | checking | reserved | dialing | ringing | inCall
  | sending | ending | settling | failed | failedHeld
deriving DecidableEq, Repr

/-- Commands to a module (R36). -/
inductive Command where
  | powerUp | scan
  | camp (network : Nat)
  | dial | hangup | sendReport | status | powerDown
deriving DecidableEq, Repr

/-- A command in flight with its timeout, which DIAL has not (R36). -/
structure InFlight where
  command : Command
  timeout : Timer
deriving DecidableEq, Repr

/-- Who holds or claims a bearer (R50). -/
inductive Claimant where
  | origin (tag : Tag)
  | carrier (tag : Tag)
  | report (tag : Tag)
  | relay (tag : Tag)
deriving DecidableEq, Repr

/-- An allocation (R38, R50). -/
structure Allocation where
  who : Claimant
  redialUsed : Bool
  preempt : Bool
  /-- A DIAL order kept while the preempt mark is set (R52). -/
  keptDial : Bool
deriving DecidableEq, Repr

/-- A bearer record (R38). The grade follows from the camped network (R43). -/
structure Bearer where
  state : BearerState
  powered : Bool
  inFlight : Option InFlight
  camped : Option (Nat × Nat)
  networks : List (Nat × Nat)
  barred : List (Nat × Stamp)
  recheck : Timer
  owed : Nat
  alloc : Option Allocation
  timeouts : Nat
  powerCycles : Nat
  failures : Nat
  dialLimit : Timer
  rescan : Timer
  settle : Timer
  failureWait : Timer
deriving DecidableEq, Repr

/-- A report claim that waits for a bearer (R53). -/
structure WaitingClaim where
  who : Claimant
  record : Record
deriving DecidableEq, Repr

/-- Both bearer managers and the claims that wait, longest waiting first (R53). -/
structure Bearers where
  a : Bearer
  b : Bearer
  waiting : List WaitingClaim
deriving DecidableEq, Repr

/-- The notices of the arbiter that a claimant takes after the decision (R50). -/
inductive Notice where
  | preempted | ringing | redialing | answered | dialFailed | noAnswer | farEnd | bearerLost | reportSent | reportFailed
  | released
deriving DecidableEq, Repr

/-! ### Line interface -/

/-- Reasons of a DECLINE (12.1), in the order of their codes. -/
inductive DeclineReason where
  | busy | noBearer | badCircuit | circuitConflict | queueFull
deriving DecidableEq, Repr

/-- What a queued frame says. ANNOUNCE and CALL_STATUS are composed afresh at each attempt (R141). -/
inductive TxBody where
  | announce (standby solicit : Bool)
  | callStatusOrigin (tag : Tag)
  | callStatusCarrier (tag : Tag) (circuit : Circuit)
  | claim (circuit : Circuit) (tag : Tag) (draw : Nat)
  | borrowVoice (tag : Tag) (circuit : Circuit)
  | borrowReport (record : Record)
  | lendCall (tag : Tag) (letter : Letter) (network : Nat)
  | lendReport (tag : Tag)
  | declineCall (tag : Tag) (reason : DeclineReason)
  | declineReport (tag : Tag) (reason : DeclineReason)
  | connected (tag : Tag)
  | clear (tag : Tag) (circuit : Option Circuit) (reason : ClearReason)
  | wake
  | reportResult (tag : Tag) (delivered : Bool)
  /-- A STATUS is composed when the answer is decided (R181); the segment is that of the frame answered (R141). -/
  | status (body : List Byte) (segment : BitVec 16)
deriving DecidableEq, Repr

/-- A frame of the transmit queue (R146). Kind, class and owner follow from the body. -/
structure TxFrame where
  body : TxBody
  dest : Nat
  attempts : Nat
  begun : Bool
deriving DecidableEq, Repr

/-- The contention of the frame in service (R149-R151). -/
inductive Backoff where
  | waitingDraw
  | slots (n : Nat)
  /-- An attempt in progress: the bytes driven, and whether an ANNOUNCE was composed with power state STANDBY. -/
  | attempting (bytes : List Byte) (standby : Bool)
deriving DecidableEq, Repr

/-- The frame in service (R148). -/
structure Service where
  frame : TxFrame
  backoff : Backoff
deriving DecidableEq, Repr

/-- The receive assembly (R142). -/
inductive Assembly where
  | seeking | assembling | skipping
deriving DecidableEq, Repr

/-- The line interface (R142, R146, R148). The frame in service stands beside the rest of the queue. -/
structure Line where
  queue : List TxFrame
  service : Option Service
  assembly : Assembly
  /-- The line has been idle for at least an idle gap (R150). -/
  gap : Bool
deriving DecidableEq, Repr

/-! ### Draw source -/

/-- States of the draw source (R159); off in STANDBY (R164). -/
inductive DrawMode where
  | off | qualifying | healthy | latched
deriving DecidableEq, Repr

/-- Consumers of draws (09_draw_source 9.4). -/
inductive Consumer where
  | line | circuit | reply
deriving DecidableEq, Repr

/-- The fallback sequence: state and the address used at seeding (R162). -/
structure Fallback where
  address : Nat
  state : Nat
deriving DecidableEq, Repr

/-- The draw source (R158-R164). -/
structure DrawSource where
  mode : DrawMode
  pool : List Nat
  waiting : List Consumer
  fallback : Option Fallback
  /-- The latest noise bit; before the first bit it plays no part, the run length being 0 (R158). -/
  lastBit : Bool
  /-- Run length of the repetition test: identical bits in a row ending with the latest (R158). -/
  runLength : Nat
  /-- Bits of the current window taken so far (R158). -/
  windowBits : Nat
  /-- Ones among them (R158). -/
  ones : Nat
  /-- The current window holds a repetition failure (R158). -/
  windowFailed : Bool
  /-- The conditioning group: its bits in stream order (R160). -/
  group : List Bool
deriving DecidableEq, Repr

/-! ### Call engine -/

/-- The mode of a call or call request (R64). -/
inductive Mode where
  | handset | handsFree
deriving DecidableEq, Repr

/-- Phases of the origin context (R66). -/
inductive Phase where
  | selecting | dialingLocal | claiming | asking | waking | awaitingConnect | connected | recovering | paused | ending
deriving DecidableEq, Repr

/-- Recovery steps (R65, R100). -/
inductive RecoveryStep where
  | none | selecting | dialingLocal | claiming | asking | waking | awaitingConnect
deriving DecidableEq, Repr

/-- The carrier field of the origin context (R65). -/
inductive CarrierRef where
  | absent
  | own (bearer : Letter)
  | asked (lender : Nat)
  | lent (lender : Nat) (letter : Option Letter)
deriving DecidableEq, Repr

/-- The origin context (R65). The held circuit is the view's entry with the own flag (R16). -/
structure Origin where
  tag : Tag
  mode : Mode
  phase : Phase
  carrier : CarrierRef
  tried : List Nat
  localTried : Bool
  recoveries : Nat
  step : RecoveryStep
  stepDeadline : Timer
  releasing : Option Letter
  setupDeadline : Timer
  phaseDeadline : Timer
  lastPartner : Option Stamp
  connected : Bool
  /-- The station a WAKE went to, in WAKING (R75). -/
  woken : Nat
  /-- The CALL_STATUS schedule (R91). -/
  schedule : Timer
deriving DecidableEq, Repr

/-- Phases of a carrier context (R84, R85, R98). -/
inductive CarrierPhase where
  | dialing | ringing | connected | ending
deriving DecidableEq, Repr

/-- A carrier context (R84). Its origin is the origin address of its tag (R82). -/
structure Carrier where
  tag : Tag
  circuit : Circuit
  letter : Letter
  phase : CarrierPhase
  lastPartner : Stamp
  schedule : Timer
deriving DecidableEq, Repr

/-- The call engine's contexts. -/
structure Call where
  origin : Option Origin
  carriers : List Carrier
deriving DecidableEq, Repr

/-! ### Caller panel and audio switch -/

/-- The hook state (R110); not yet adopted after a reset. -/
inductive Hook where
  | unadopted | onHook | offHook
deriving DecidableEq, Repr

/-- The button classifier (R111). -/
inductive Classifier where
  | idle
  | firstHeld
  /-- End of the 600 ms window, whether its expiry has been taken, and the begin time of a candidate under test. -/
  | window (close : Stamp) (expired : Bool) (candidate : Option Stamp)
  | secondHeld
deriving DecidableEq, Repr

/-- Tone selections (R115). -/
inductive Tone where
  | none | connecting | ringback | recovering | failed
deriving DecidableEq, Repr

/-- Call lamp settings (R117). -/
inductive Lamp where
  | off | slowFlash | steady | fastFlash
deriving DecidableEq, Repr

/-- The caller panel unit (R110-R118). -/
structure Panel where
  /-- The hook state; in STANDBY the level that the hook watch saw last (R110, R173; log entry 28). -/
  hook : Hook
  classifier : Classifier
  /-- A counted press is held that is disregarded until its release counts: the one held at a wake, and in STANDBY the one
  the button watch sees held (R111, R123, R173). -/
  disregard : Bool
  /-- A call request held in START (R113). -/
  request : Option Mode
  /-- An off-hook held until the context ends (R112). -/
  deferred : Bool
  tone : Tone
  lamp : Lamp
  /-- The FAILED period (R116). -/
  failed : Timer
deriving DecidableEq, Repr

/-- Ends of a bridge (R119). -/
inductive End where
  | handset | speaker | tone
  | bearer (letter : Letter)
  | callerSide (c : Circuit)
  | farSide (c : Circuit)
deriving DecidableEq, Repr

/-- Owners of a bridge (R119). -/
inductive Owner where
  | origin (tag : Tag)
  | carrier (tag : Tag)
  | panel
deriving DecidableEq, Repr

/-- A bridge (R119). -/
structure Bridge where
  left : End
  right : End
  owner : Owner
deriving DecidableEq, Repr

/-! ### Cabinet monitor -/

/-- Whether a counted press is held that has not been released (R111). -/
def Panel.pressHeld (p : Panel) : Bool := p.disregard || p.classifier == .firstHeld || p.classifier == .secondHeld

/-- The reference capture (R127). -/
inductive Capture where
  | off
  /-- A window begins at the next sample. -/
  | armed
  /-- A running window: start, number of samples, sum, smallest and largest value on each axis. -/
  | window (start : Stamp) (count : Nat) (sum low high : IVec)
deriving DecidableEq, Repr

/-- The IMPACT detector (R128). The peak is kept as its exact square. -/
inductive Impact where
  | quiet
  | opened (first : Stamp) (peakSq : Rat) (axis : Axis) (limit : Stamp)
deriving DecidableEq, Repr

/-- The tilt detector (R129). -/
inductive Tilt where
  | armed
  | sustaining (start : Stamp) (high : Option Stamp) (eligible : Bool)
  | raised
  | rearming (start : Stamp)
deriving DecidableEq, Repr

/-- A cabinet event: a pending entry (R130), or what is handed to the report unit (R132). -/
structure CabinetEvent where
  kind : ReportKind
  first : Stamp
  last : Stamp
  repeats : Nat
  peakSq : Rat
  axis : Option Axis
deriving DecidableEq, Repr

/-- The cabinet monitor (R124-R131). -/
structure Cabinet where
  baseline : Option QVec
  capture : Capture
  impact : Impact
  lastImpact : Option Stamp
  tilt : Tilt
  silent : Bool
  silence : Timer
  pending : List CabinetEvent
deriving DecidableEq, Repr

/-! ### The station -/

/-- What the station sends at its ports. Levels (tone, lamps, bridges) are fields of State. -/
inductive Output where
  /-- A frame is driven onto the corridor line. -/
  | frame (bytes : List Byte)
  /-- A message on a bearer port (12.4). -/
  | port (bearer : Letter) (bytes : List Byte)
  /-- The port's power control removes or restores the module's power (R36). -/
  | power (bearer : Letter) (on : Bool)
  /-- The sensor's rate is selected, in samples per second (R124). -/
  | sensorRate (rate : Nat)
deriving DecidableEq, Repr

/-- A notice from one block to another that has not been taken yet (log entry 4). -/
inductive Task where
  | notice (who : Claimant) (bearer : Letter) (n : Notice)
  | bearerChanged
  | bearerAvailable (bearer : Letter)
  | roundWon (tag : Tag)
  | roundFailed (tag : Tag) (reason : RoundFailure)
  | yielded (tag : Tag)
  | circuitChanged (circuit : Circuit) (entry : CircuitEntry)
  | claimDropped (frame : TxBody)
  | announceDropped (standby : Bool)
  | directoryChanged
  | select (tag : Tag)
  | borrow (tag : Tag)
  | decideReports
  | decideRelay
  | originEnded
  | wake (cause : WakeCause)
deriving DecidableEq, Repr

/-- Everything the 410 holds, but for the queue of commands. -/
structure Station where
  keep : Keep
  power : Power
  directory : Directory
  announcing : Announcing
  circuits : Circuits
  line : Line
  draw : DrawSource
  bearers : Bearers
  audio : List Bridge
  panel : Panel
  call : Call
  reports : Reports
  cabinet : Cabinet
  /-- The model's own: counts the free values used (log entry 12). -/
  free : Nat
  /-- The model's own: what the last command made the station send, oldest first. -/
  out : List Output
  /-- The model's own: notices not yet taken, oldest first (log entry 4). -/
  work : List Task
deriving DecidableEq, Repr

/-- The state of the block: the commands that wait, first in first out, and the station. -/
structure State where
  pending : List Instr
  station : Station
deriving DecidableEq, Repr

/-! ### Start values -/

/-- A cleared bearer record (R63). -/
def clearedBearer : Bearer :=
  { state := .off, powered := false, inFlight := none, camped := none, networks := [], barred := [], recheck := none
    owed := 0, alloc := none, timeouts := 0, powerCycles := 0, failures := 0, dialLimit := none, rescan := none
    settle := none, failureWait := none }

/-- Both bearers cleared, no claim waiting (R63). -/
def clearedBearers : Bearers := { a := clearedBearer, b := clearedBearer, waiting := [] }

/-- The circuit unit with all entries FREE and no round (R35). -/
def clearedCircuits : Circuits := { view := Vector.replicate 6 .free, round := none, request := none }

/-- The line interface after a reset (R157); the idle gap is counted anew (log entry 9). -/
def clearedLine : Line := { queue := [], service := none, assembly := .skipping, gap := false }

/-- The draw source after a reset or wake (R164). -/
def startedDraw : DrawSource :=
  { mode := .qualifying, pool := [], waiting := [], fallback := none, lastBit := false, runLength := 0, windowBits := 0
    ones := 0, windowFailed := false, group := [] }

/-- The announcing after a reset (R15). -/
def clearedAnnouncing : Announcing :=
  { mark := false, markSolicit := false, period := none, reply := .none, heldBack := none }

/-- The panel after a reset (R123). -/
def clearedPanel : Panel :=
  { hook := .unadopted, classifier := .idle, disregard := false, request := none, deferred := false, tone := .none
    lamp := .off, failed := none }

/-- The report unit after a reset (R140). -/
def clearedReports : Reports := { queue := [], relay := [], stall := none }

/-- No class flag set. -/
def noClasses : ClassSet := { correctable := false, nonFatal := false, fatal := false }

/-- The keep domain after a power-on reset (R176). -/
def clearedKeep : Keep :=
  { clock := ⟨0, 0⟩, config := none
    tally := { placed := 0, connected := 0, unplaced := 0, withdrawn := 0, interrupted := 0, lent := 0 }
    lastCall := 0, lastReport := 0, delivered := 0, dropped := 0, reference := none
    faults := { flags := noClasses, counters := Vector.replicate 14 0, last := none } }

/-- The station right after a power-on reset (R177): in START with start cause POWER_ON, the configuration read running
(R167) and the sensor's silence limit running (R126). The rails are present and the reset line is released (log entry 6);
the effective circuit count before the configuration is loaded is the model's choice (log entry 13). -/
def Station.reset : Station :=
  { keep := clearedKeep
    power :=
      { opState := .start, startCause := .powerOn, wakeCause := none, keepRail := true, mainRail := true
        resetLine := false, held := false, heldWake := none, configRead := some ⟨0, 500⟩, reload := none
        idleTimer := none, progress := .none, checkIn := none, clash := false }
    directory := { entries := [], effective := 4 }
    announcing := clearedAnnouncing
    circuits := clearedCircuits
    line := clearedLine
    draw := startedDraw
    bearers := clearedBearers
    audio := []
    panel := clearedPanel
    call := { origin := none, carriers := [] }
    reports := clearedReports
    cabinet :=
      { baseline := none, capture := .armed, impact := .quiet, lastImpact := none, tilt := .armed, silent := false
        silence := some ⟨0, 1000⟩, pending := [] }
    free := 0
    out := []
    work := [] }

/-- The machine right after reset, its queue of commands empty. -/
def State.reset : State := { pending := [], station := Station.reset }

end Sys2Proof.Machine
end

