-- ==== Sys2Proof/Machine/Ops.lean ====
section
/-! DEFINITION. Shared operations: time, the configuration a block works from, access to the blocks' records, and the
values the spec computes from state and does not store. -/

namespace Sys2Proof.Machine

/-! ### Time (00_scope 4.2, R175) -/

/-- A stamp as one number of milliseconds, epoch first. -/
def Stamp.ms (t : Stamp) : Nat := t.epoch.toNat * 4294967296 + t.clock.toNat

/-- The stamp of a number of milliseconds; the epoch wraps from 65,535 to 0 (R175). -/
def Stamp.ofMs (n : Nat) : Stamp := ⟨BitVec.ofNat 16 (n / 4294967296), BitVec.ofNat 32 n⟩

/-- The stamp `d` milliseconds later. -/
def Stamp.later (t : Stamp) (d : Nat) : Stamp := Stamp.ofMs (Stamp.ms t + d)

/-- Milliseconds from `t` to `u`, across a wrap of the epoch too (log entry 27). -/
def Stamp.elapsed (t u : Stamp) : Nat := (Stamp.ms u + 281474976710656 - Stamp.ms t) % 281474976710656

/-- The stamp `d` milliseconds earlier (R17: a hold start may lie before the station's own power-on). -/
def Stamp.earlier (t : Stamp) (d : Nat) : Stamp :=
  Stamp.ofMs (Stamp.ms t + 281474976710656 - d % 281474976710656)

/-- Two stamps compared first by epoch and then by clock. -/
def Stamp.before (t u : Stamp) : Bool := Stamp.ms t < Stamp.ms u

/-- Whether a deadline has been reached at `now`. -/
def Stamp.reached (now deadline : Stamp) : Bool := Stamp.elapsed deadline now < 140737488355328

/-- The present stamp. -/
def Station.now (s : Station) : Stamp := s.keep.clock

/-- The deadline `d` milliseconds from now. -/
def Station.within (s : Station) (d : Nat) : Stamp := Stamp.later s.now d

/-- The clock brought forward to a deadline that it has not reached: an expiry taken says that its moment has come (log
entry 2). -/
def catchUp (deadline : Stamp) (s : Station) : Station :=
  if Stamp.reached s.now deadline then s else { s with keep.clock := deadline }

/-! ### Outputs and notices -/

/-- The station sends something at a port. -/
def emit (o : Output) (s : Station) : Station := { s with out := s.out ++ [o] }

/-- A notice to another block, taken in its turn within the same command (log entry 4). -/
def post (t : Task) (s : Station) : Station := { s with work := s.work ++ [t] }

/-- A notice that is taken before every other one that waits: what it tells is decided at once (R53). -/
def postFirst (t : Task) (s : Station) : Station := { s with work := t :: s.work }

/-! ### Configuration (R166, R168) -/

/-- The built-in set (R166, R168). -/
def builtInSet : Configuration :=
  { address := none, segment := none, bearersFitted := 2, circuits := 4, announcePeriod := 20, answerTimeout := 2
    wakeAllowance := 30, localPreference := 2, lendMinimum := 1, setupLimit := 90, standbyEnable := false
    idleTime := 300, checkIn := 0, impactThreshold := 20, tiltThreshold := 20, label := [], destination := [] }

/-- The configuration every block works from; before START has read the first record the copy is empty, and nothing that
depends on it can be observed (log entry 13). -/
def Station.config (s : Station) : Configuration := s.keep.config.getD builtInSet

/-- Whether an address is the station's own. A station on the built-in set has none (R168). -/
def Station.isOwn (s : Station) (address : Nat) : Bool := s.config.address == some address

/-- The origin address of the station's own tags: 0 on the built-in set (R168). -/
def Station.tagOrigin (s : Station) : Nat := s.config.address.getD 0

/-- Whether the station runs on the built-in set (R168). -/
def Station.onBuiltIn (s : Station) : Bool :=
  match s.keep.config with
  | some c => c.address.isNone
  | none => false

/-- A peer's address: 1-32 and not the station's own (R3, R4, R18, R21, R24). -/
def Station.isPeer (s : Station) (address : Nat) : Bool := 1 ≤ address && address ≤ 32 && !s.isOwn address

/-- ACTIVE or ISOLATED. -/
def Station.inService (s : Station) : Bool := s.power.opState == .active || s.power.opState == .isolated

/-- The answer timeout in milliseconds (R166: 0.5, 1, 2 or 4 s). -/
def Station.answerMs (s : Station) : Nat := s.config.answerTimeout * 500

/-! ### Counts of the keep domain -/

/-- A 32-bit count of the keep domain one higher; what stands past the top is a free value (log entry 12). -/
def countUp (n : BitVec 32) (s : Station) : BitVec 32 × Station :=
  if n = 4294967295 then (Config.countPastMaximum s.free, { s with free := s.free + 1 }) else (n + 1, s)

/-- One more report dropped (R133, R137, R140). -/
def countDropped (s : Station) : Station :=
  let c := countUp s.keep.dropped s
  { c.2 with keep.dropped := c.1 }

/-- One more report delivered (R137). -/
def countDelivered (s : Station) : Station :=
  let c := countUp s.keep.delivered s
  { c.2 with keep.delivered := c.1 }

/-- The whole tally freezes when placed reaches its top (R88). -/
def Tally.frozen (t : Tally) : Bool := t.placed == 4294967295

/-- A tally count one higher, by the change given, unless the tally is frozen (R88). -/
def tallyUp (change : Tally → Tally) (s : Station) : Station :=
  if s.keep.tally.frozen then s else { s with keep.tally := change s.keep.tally }

/-- The count lent one higher (R85, R88). -/
def tallyLent (s : Station) : Station :=
  if s.keep.tally.frozen then s
  else
    let c := countUp s.keep.tally.lent s
    { c.2 with keep.tally.lent := c.1 }

/-! ### Bearer records -/

/-- The record of a bearer (R38). -/
def Station.bearer (s : Station) : Letter → Bearer
  | .a => s.bearers.a
  | .b => s.bearers.b

/-- The station with a bearer's record replaced, and nothing else. -/
def setBearer (l : Letter) (r : Bearer) (s : Station) : Station :=
  match l with
  | .a => { s with bearers.a := r }
  | .b => { s with bearers.b := r }

/-- Whether a bearer is fitted (R36). -/
def Station.fitted (s : Station) : Letter → Bool
  | .a => 1 ≤ s.config.bearersFitted
  | .b => 2 ≤ s.config.bearersFitted

/-- The fitted bearers, A before B. -/
def Station.fittedBearers (s : Station) : List Letter := [.a, .b].filter s.fitted

/-- The grade of a level (00_scope 4.5, R43). -/
def gradeOfLevel (level : Nat) : Nat := if level ≤ 9 then 1 else if level ≤ 29 then 2 else 3

/-- The grade of a bearer: 0 with no camped network (R43). -/
def Bearer.grade (r : Bearer) : Nat :=
  match r.camped with
  | none => 0
  | some n => gradeOfLevel n.2

/-- The summary class of a bearer state (R2). -/
def BearerState.summaryClass : BearerState → SummaryClass
  | .available => .available
  | .checking => .available
  | .reserved => .busy
  | .dialing => .busy
  | .ringing => .busy
  | .inCall => .busy
  | .sending => .busy
  | .ending => .busy
  | .settling => .settling
  | .starting => .noService
  | .searching => .noService
  | .noService => .noService
  | .camping => .noService
  | .off => .down
  | .failed => .failed
  | .failedHeld => .failed

/-- The summary class of a bearer (R2). -/
def Bearer.cls (r : Bearer) : SummaryClass := r.state.summaryClass

/-- The network id of the camped network, 0 where none (R2, R43). -/
def Bearer.networkId (r : Bearer) : Nat :=
  match r.camped with
  | none => 0
  | some n => n.1

/-- The summaries of the fitted bearers, A before B (R2). -/
def Station.summaries (s : Station) : List Summary :=
  s.fittedBearers.map fun l =>
    { letter := l, cls := (s.bearer l).cls, grade := (s.bearer l).grade, network := (s.bearer l).networkId }

/-- The lend-ready value (R8). -/
def Station.lendReady (s : Station) : Bool :=
  s.power.opState == .active && s.call.carriers.length < 2 &&
    s.fittedBearers.any fun l => (s.bearer l).cls == .available && s.config.lendMinimum ≤ (s.bearer l).grade

/-- Whether a fitted bearer has grade 1 or more (R134, R138). -/
def Station.anyGrade (s : Station) : Bool := s.fittedBearers.any fun l => 1 ≤ (s.bearer l).grade

/-- Whether no fitted bearer has a command in flight (R171). -/
def Station.noCommand (s : Station) : Bool := s.fittedBearers.all fun l => (s.bearer l).inFlight.isNone

/-! ### Circuits -/

/-- The circuit number 1-6 (00_scope 4.3). -/
def circuitNumber (c : Circuit) : Nat := c.val + 1

/-- The circuit of a number, where the number lies in 1-6. -/
def circuitOf (n : Nat) : Option Circuit := if h : 1 ≤ n ∧ n ≤ 6 then some ⟨n - 1, by omega⟩ else none

/-- The six circuits in number order. -/
def allCircuits : List Circuit := [0, 1, 2, 3, 4, 5]

/-- An entry of the circuit view (R16). -/
def Station.entry (s : Station) (c : Circuit) : CircuitEntry := s.circuits.view.get c

/-- The station with an entry of the view replaced, and nothing else. -/
def setView (c : Circuit) (e : CircuitEntry) (s : Station) : Station :=
  { s with circuits.view := s.circuits.view.set c.val e c.isLt }

/-- The own flag (R16). -/
def CircuitEntry.own : CircuitEntry → Bool
  | .heldOwn _ _ _ => true
  | _ => false

/-- The circuit this station holds: the one entry with the own flag (R16). -/
def Station.ownCircuit (s : Station) : Option Circuit := allCircuits.find? fun c => (s.entry c).own

/-- Holder and tag of a HELD entry. -/
def CircuitEntry.holding : CircuitEntry → Option (Nat × Tag)
  | .heldByPeer h t _ _ => some (h, t)
  | .heldOwn h t _ => some (h, t)
  | _ => none

/-- A hold age in whole seconds, at most 65,535 (R17). -/
def holdAge (now start : Stamp) : Nat := min 65535 (Stamp.elapsed start now / 1000)

/-- A hold start estimated from a stated age (R17). -/
def estimatedStart (now : Stamp) (age : Nat) : Stamp := Stamp.earlier now (age * 1000)

/-! ### The lender ranking and the wake list (R9, R10) -/

/-- Address distance (00_scope 4.3). -/
def distance (a b : Nat) : Nat := if a ≤ b then b - a else a - b

/-- An insertion by an order: after the elements that come first, before its equals. -/
def insertBy {α : Type} (first : α → α → Bool) (x : α) : List α → List α
  | [] => [x]
  | y :: ys => if first y x then y :: insertBy first x ys else x :: y :: ys

/-- A stable sort by an order: elements of which neither comes first keep their order. -/
def sortBy {α : Type} (first : α → α → Bool) : List α → List α
  | [] => []
  | x :: xs => insertBy first x (sortBy first xs)

/-- The offered grade of an entry: the highest grade among its AVAILABLE summaries at or above the minimum, 0 where none
qualifies (R9). -/
def offeredGrade (minimum : Nat) (e : PeerEntry) : Nat :=
  (e.summaries.filter fun m => m.cls == .available && minimum ≤ m.grade).foldl (fun g m => max g m.grade) 0

/-- Whether an entry is a candidate to lend (R9). -/
def isCandidate (minimum : Nat) (excluded : List Nat) (e : PeerEntry) : Bool :=
  e.power == .active && e.lendReady &&
    (e.summaries.any fun m => m.cls == .available && minimum ≤ m.grade) && !excluded.contains e.address

/-- The order of the ranking: offered grade, then distance, then address (R9). -/
def ranksBefore (own minimum : Nat) (e f : PeerEntry) : Bool :=
  let ge := offeredGrade minimum e
  let gf := offeredGrade minimum f
  if ge ≠ gf then gf < ge
  else if distance own e.address ≠ distance own f.address then distance own e.address < distance own f.address
  else e.address < f.address

/-- The candidates in ranking order (R9). -/
def Station.rankedEntries (s : Station) (excluded : List Nat) : List PeerEntry :=
  sortBy (ranksBefore s.tagOrigin s.config.lendMinimum)
    (s.directory.entries.filter (isCandidate s.config.lendMinimum excluded))

/-- The lender ranking (R9). -/
def Station.ranking (s : Station) (excluded : List Nat) : List Nat := (s.rankedEntries excluded).map (·.address)

/-- The order of the wake list: distance, then address (R10). -/
def wakesBefore (own : Nat) (a b : Nat) : Bool :=
  if distance own a ≠ distance own b then distance own a < distance own b else a < b

/-- The wake list (R10). -/
def Station.wakeList (s : Station) (excluded : List Nat) : List Nat :=
  sortBy (wakesBefore s.tagOrigin)
    ((s.directory.entries.filter fun e => e.power == .standby && !excluded.contains e.address).map (·.address))

/-! ### The call contexts -/

/-- A station with its origin context changed, where it has one. -/
def updOrigin (f : Origin → Origin) (s : Station) : Station :=
  { s with call.origin := s.call.origin.map f }

/-- The lender in a carrier field (R65). -/
def CarrierRef.lender : CarrierRef → Option Nat
  | .asked l => some l
  | .lent l _ => some l
  | _ => none

/-- The own bearer in a carrier field (R65). -/
def CarrierRef.ownBearer : CarrierRef → Option Letter
  | .own b => some b
  | _ => none

/-- The partner of the origin context: its lender, or 63 where it has none (R32). -/
def Origin.partner (o : Origin) : Nat := o.carrier.lender.getD 63

/-- The phase in whose manner the context acts: in RECOVERING, the phase of the recovery step's name (R100); none while
the step is NONE. -/
def Origin.activity (o : Origin) : Phase :=
  match o.phase, o.step with
  | .recovering, .none => .recovering
  | .recovering, .selecting => .selecting
  | .recovering, .dialingLocal => .dialingLocal
  | .recovering, .claiming => .claiming
  | .recovering, .asking => .asking
  | .recovering, .waking => .waking
  | .recovering, .awaitingConnect => .awaitingConnect
  | p, _ => p

/-- The timer of the activity: the step deadline in RECOVERING, else the phase deadline (R66, R100). -/
def Origin.activityDeadline (o : Origin) : Timer := if o.phase = .recovering then o.stepDeadline else o.phaseDeadline

/-- The partner-silence limit of the origin runs while its carrier field names a lender that has sent LEND (R94). -/
def Origin.silenceDeadline (o : Origin) : Timer :=
  match o.carrier, o.lastPartner with
  | .lent _ _, some t => if o.phase = .ending then none else some (Stamp.later t 15000)
  | _, _ => none

/-- The carrier context of a tag. -/
def Station.carrier? (s : Station) (t : Tag) : Option Carrier := s.call.carriers.find? fun k => k.tag == t

/-- A station with the carrier context of a tag changed. -/
def updCarrier (t : Tag) (f : Carrier → Carrier) (s : Station) : Station :=
  { s with call.carriers := s.call.carriers.map fun k => if k.tag = t then f k else k }

/-- The caller end of a mode (R90, R119). -/
def Mode.callerEnd : Mode → End
  | .handset => .handset
  | .handsFree => .speaker

end Sys2Proof.Machine
end

