-- ==== Sys2Proof/Machine/Operands.lean ====
section
/-! DEFINITION. The encodings of chapter Frame and Record Formats: numbers, codes, the check value, frame bodies, the
report record, the configuration record and the bearer port messages. -/

namespace Sys2Proof.Machine

/-! ### Numbers, most significant byte first (12_frame) -/

/-- A number in one byte. -/
def byte (n : Nat) : Byte := BitVec.ofNat 8 n

/-- A number in two bytes. -/
def be16 (n : Nat) : List Byte := [byte (n / 256), byte n]

/-- A number in three bytes. -/
def be24 (n : Nat) : List Byte := [byte (n / 65536), byte (n / 256), byte n]

/-- A number in four bytes. -/
def be32 (n : Nat) : List Byte := [byte (n / 16777216), byte (n / 65536), byte (n / 256), byte n]

/-- The number of a list of bytes, most significant first. -/
def beNat (bs : List Byte) : Nat := bs.foldl (fun n b => n * 256 + b.toNat) 0

/-! ### The check value (R185) -/

/-- One bit through the register: generator x^16 + x^12 + x^5 + 1. -/
def crcBit (r : BitVec 16) : BitVec 16 := if r.msb then (r <<< 1) ^^^ 0x1021 else r <<< 1

/-- One byte into the register, most significant bit first. -/
def crcByte (r : BitVec 16) (b : Byte) : BitVec 16 :=
  crcBit (crcBit (crcBit (crcBit (crcBit (crcBit (crcBit (crcBit (r ^^^ (b.setWidth 16 <<< 8)))))))))

/-- The CRC-16 of a list of bytes: register preset to 65,535, no final inversion. -/
def crc16 (bs : List Byte) : BitVec 16 := bs.foldl crcByte 0xFFFF

/-! ### Codes (12.1) -/

/-- Bearer letter: 1 = A, 2 = B. -/
def letterCode : Letter → Nat
  | .a => 1
  | .b => 2

/-- A bearer letter byte: `some none` for 0, none for an undefined code. -/
def letterOf (b : Byte) : Option (Option Letter) :=
  match b.toNat with
  | 0 => some none
  | 1 => some (some .a)
  | 2 => some (some .b)
  | _ => none

/-- Summary class code. -/
def classCode : SummaryClass → Nat
  | .available => 1
  | .busy => 2
  | .settling => 3
  | .noService => 4
  | .down => 5
  | .failed => 6

/-- The summary class of a code. -/
def classOf (b : Byte) : Option SummaryClass :=
  match b.toNat with
  | 1 => some .available
  | 2 => some .busy
  | 3 => some .settling
  | 4 => some .noService
  | 5 => some .down
  | 6 => some .failed
  | _ => none

/-- Phase code of an origin context. -/
def phaseCode : Phase → Nat
  | .selecting => 1
  | .dialingLocal => 2
  | .claiming => 3
  | .asking => 4
  | .waking => 5
  | .awaitingConnect => 6
  | .connected => 7
  | .recovering => 8
  | .paused => 9
  | .ending => 10

/-- Phase code of a carrier context. -/
def carrierPhaseCode : CarrierPhase → Nat
  | .dialing => 11
  | .ringing => 12
  | .connected => 7
  | .ending => 10

/-- DECLINE reason code. -/
def declineCode : DeclineReason → Nat
  | .busy => 1
  | .noBearer => 2
  | .badCircuit => 3
  | .circuitConflict => 4
  | .queueFull => 5

/-- CLEAR reason code. -/
def clearCode : ClearReason → Nat
  | .callerEnded => 1
  | .farEnd => 2
  | .dialFailed => 3
  | .noAnswer => 4
  | .bearerLost => 5
  | .partnerSilent => 6
  | .setupExpired => 7
  | .late => 8
  | .circuitConflict => 9

/-- The CLEAR reason of a code. -/
def clearReasonOf (b : Byte) : Option ClearReason :=
  match b.toNat with
  | 1 => some .callerEnded
  | 2 => some .farEnd
  | 3 => some .dialFailed
  | 4 => some .noAnswer
  | 5 => some .bearerLost
  | 6 => some .partnerSilent
  | 7 => some .setupExpired
  | 8 => some .late
  | 9 => some .circuitConflict
  | _ => none

/-- Report kind code. -/
def reportKindCode : ReportKind → Nat
  | .impact => 1
  | .tilt => 2
  | .knockdown => 3
  | .callUnplaced => 4
  | .callDropped => 5

/-- The report kind of a code. -/
def reportKindOf (b : Byte) : Option ReportKind :=
  match b.toNat with
  | 1 => some .impact
  | 2 => some .tilt
  | 3 => some .knockdown
  | 4 => some .callUnplaced
  | 5 => some .callDropped
  | _ => none

/-- Axis code, 0 for absent. -/
def axisCode : Option Axis → Nat
  | none => 0
  | some .x => 1
  | some .y => 2
  | some .z => 3

/-- An axis byte: `some none` for 0, none for an undefined code. -/
def axisOf (b : Byte) : Option (Option Axis) :=
  match b.toNat with
  | 0 => some none
  | 1 => some (some .x)
  | 2 => some (some .y)
  | 3 => some (some .z)
  | _ => none

/-- Operating state code: its position in R165. -/
def opStateCode : OpState → Nat
  | .start => 1
  | .active => 2
  | .standby => 3
  | .isolated => 4

/-- Start cause code: its position in R165. -/
def startCauseCode : StartCause → Nat
  | .powerOn => 1
  | .warm => 2
  | .wake => 3

/-- Wake cause code, 0 for absent. -/
def wakeCauseCode : Option WakeCause → Nat
  | none => 0
  | some .offHook => 1
  | some .button => 2
  | some .impact => 3
  | some .tilt => 4
  | some .knockdown => 5
  | some .wakeFrame => 6
  | some .checkIn => 7

/-- Standby progress code: its position in R171. -/
def progressCode : Progress → Nat
  | .none => 1
  | .waitingCommand => 2
  | .announcing => 3
  | .waitingEntry => 4

/-- Bearer state code: its position in R38. -/
def bearerStateCode : BearerState → Nat
  | .off => 1
  | .starting => 2
  | .searching => 3
  | .noService => 4
  | .camping => 5
  | .available => 6
  | .checking => 7
  | .reserved => 8
  | .dialing => 9
  | .ringing => 10
  | .inCall => 11
  | .sending => 12
  | .ending => 13
  | .settling => 14
  | .failed => 15
  | .failedHeld => 16

/-- Queue entry state code: its position in R133. -/
def deliveryCode : Delivery → Nat
  | .waiting => 1
  | .resting => 2
  | .inFlight => 3

/-- A yes or no value of a STATUS: its position in the list "yes, no" of R1 (log entry 22). -/
def yesNoCode (b : Bool) : Nat := if b then 1 else 2

/-- A class set byte: bit 0 CORRECTABLE, bit 1 NON_FATAL, bit 2 FATAL. -/
def classSetByte (c : ClassSet) : Byte := byte (c.correctable.toNat + 2 * c.nonFatal.toNat + 4 * c.fatal.toNat)

/-- The class set of a byte; bits the form does not define are ignored (R186). -/
def classSetOf (b : Byte) : ClassSet :=
  { correctable := b.getLsbD 0, nonFatal := b.getLsbD 1, fatal := b.getLsbD 2 }

/-! ### Field forms (12.1) -/

/-- A tag: origin address, then number in two bytes. -/
def tagBytes (t : Tag) : List Byte := byte t.origin :: be16 t.number

/-- A tag from its three bytes. A number above 4,095 is judged here (R186). -/
def tagOf (o h l : Byte) : Option Tag :=
  if beNat [h, l] ≤ 4095 then some ⟨o.toNat, beNat [h, l]⟩ else none

/-- A stamp: epoch in two bytes, then clock in four. -/
def stampBytes (t : Stamp) : List Byte := be16 t.epoch.toNat ++ be32 t.clock.toNat

/-- A stamp from its six bytes. -/
def stampOf (e1 e2 c1 c2 c3 c4 : Byte) : Stamp :=
  ⟨BitVec.ofNat 16 (beNat [e1, e2]), BitVec.ofNat 32 (beNat [c1, c2, c3, c4])⟩

/-- A circuit byte, 0 for no circuit. -/
def circuitByte : Option Circuit → Byte
  | none => 0
  | some c => byte (circuitNumber c)

/-! ### Frames (12.2) -/

/-- The bytes of a frame: count, kind, segment code, source, destination, body, check value. -/
def frameBytes (kind : Nat) (segment : BitVec 16) (source dest : Nat) (body : List Byte) : List Byte :=
  let head := byte (6 + body.length) :: byte kind :: (be16 segment.toNat ++ [byte source, byte dest] ++ body)
  head ++ be16 (crc16 head).toNat

/-- Check 1 of R143: the check value equals the CRC-16 of the bytes from the count through the last body byte. -/
def frameCheckOk (kind : Nat) (f : RxFrame) : Bool :=
  f.check ==
    crc16 (byte (6 + f.body.length) :: byte kind ::
      (be16 f.segment.toNat ++ [f.source, f.dest] ++ f.body))

/-- Source and destination codes that the form defines: 0-32 and 63 (R186). -/
def addressDefined (a : Byte) : Bool := a.toNat ≤ 32 || a.toNat == 63

/-- A summary as an ANNOUNCE carries it; the letter may be the code 0 (R3). -/
structure RawSummary where
  letter : Option Letter
  cls : SummaryClass
  grade : Nat
  network : Nat
deriving DecidableEq, Repr

/-- An ANNOUNCE body. -/
structure AnnounceBody where
  standby : Bool
  lendReady : Bool
  solicit : Bool
  period : Nat
  circuits : Nat
  summaries : List RawSummary
  held : Option HeldCircuit
deriving DecidableEq, Repr

/-- The given number of summaries of six bytes each, and the bytes after them. -/
def readSummaries : Nat → List Byte → Option (List RawSummary × List Byte)
  | 0, rest => some ([], rest)
  | n + 1, l :: c :: g :: i1 :: i2 :: i3 :: rest =>
    match letterOf l, classOf c, readSummaries n rest with
    | some letter, some cls, some (more, left) => some (⟨letter, cls, g.toNat, beNat [i1, i2, i3]⟩ :: more, left)
    | _, _, _ => none
  | _ + 1, _ => none

/-- The held circuit at the end of an ANNOUNCE: six bytes when flag bit 3 is set, else nothing. -/
def readHeld (present : Bool) (bs : List Byte) : Option (Option HeldCircuit) :=
  match present, bs with
  | false, [] => some none
  | true, [c, o, h, l, a1, a2] =>
    match tagOf o h l with
    | some t => some (some ⟨c.toNat, t, beNat [a1, a2]⟩)
    | none => none
  | _, _ => none

/-- An ANNOUNCE body from its bytes; none where R186 discards the frame. -/
def readAnnounce (bs : List Byte) : Option AnnounceBody :=
  match bs with
  | flags :: period :: circuits :: n :: rest =>
    match readSummaries n.toNat rest with
    | some (summaries, left) =>
      match readHeld (flags.getLsbD 3) left with
      | some held =>
        some
          { standby := flags.getLsbD 0, lendReady := flags.getLsbD 1, solicit := flags.getLsbD 2
            period := period.toNat, circuits := circuits.toNat, summaries := summaries, held := held }
      | none => none
    | none => none
  | _ => none

/-- A CLAIM body. -/
structure ClaimBody where
  circuit : Nat
  tag : Tag
  draw : Nat
deriving DecidableEq, Repr

/-- A CLAIM body from its bytes. -/
def readClaim (bs : List Byte) : Option ClaimBody :=
  match bs with
  | [c, o, h, l, d1, d2] => (tagOf o h l).map fun t => ⟨c.toNat, t, beNat [d1, d2]⟩
  | _ => none

/-- Sender roles (12.1). -/
inductive Role where
  | origin | carrier
deriving DecidableEq, Repr

/-- A CALL_STATUS body. The phase is its code, 1-12. -/
structure CallStatusBody where
  tag : Tag
  circuit : Nat
  role : Role
  phase : Nat
  age : Nat
deriving DecidableEq, Repr

/-- The sender role of a code. -/
def roleOf (b : Byte) : Option Role :=
  match b.toNat with
  | 1 => some .origin
  | 2 => some .carrier
  | _ => none

/-- A CALL_STATUS body from its bytes. -/
def readCallStatus (bs : List Byte) : Option CallStatusBody :=
  match bs with
  | [o, h, l, c, r, p, a1, a2] =>
    match tagOf o h l, roleOf r with
    | some t, some role =>
      if 1 ≤ p.toNat ∧ p.toNat ≤ 12 then some ⟨t, c.toNat, role, p.toNat, beNat [a1, a2]⟩ else none
    | _, _ => none
  | _ => none

/-- A BORROW of kind VOICE: tag and circuit. -/
structure VoiceBody where
  tag : Tag
  circuit : Nat
deriving DecidableEq, Repr

/-- A BORROW body of kind VOICE from its bytes. -/
def readBorrowVoice (bs : List Byte) : Option VoiceBody :=
  match bs with
  | [k, o, h, l, c] => if k = 1 then (tagOf o h l).map fun t => ⟨t, c.toNat⟩ else none
  | _ => none

/-- The bytes of a report record. -/
def recordBytes (r : Record) : List Byte :=
  tagBytes r.tag ++ [byte (reportKindCode r.kind)] ++ stampBytes r.first ++ stampBytes r.last ++
    [byte r.repeats, byte r.peak, byte (axisCode r.axis), byte r.label.length] ++ r.label

/-- A label character (12_frame, R187). -/
def labelChar (b : Byte) : Bool := 32 ≤ b.toNat && b.toNat ≤ 126

/-- A report record from its bytes. A label length outside 0-24 is not decided here, where it is the length of the label that
follows (R186); a label of up to 35 bytes then fits the frame, and a peak byte beside an absent axis is taken as it stands
(log entry 25). -/
def readRecord (bs : List Byte) : Option Record :=
  match bs with
  | o :: h :: l :: k :: f1 :: f2 :: f3 :: f4 :: f5 :: f6 :: l1 :: l2 :: l3 :: l4 :: l5 :: l6 :: n :: p :: x :: len ::
      label =>
    match tagOf o h l, reportKindOf k, axisOf x with
    | some t, some kind, some axis =>
      if label.length = len.toNat ∧ label.all labelChar then
        some
          { tag := t, kind := kind, first := stampOf f1 f2 f3 f4 f5 f6, last := stampOf l1 l2 l3 l4 l5 l6
            repeats := n.toNat, peak := p.toNat, axis := axis, label := label }
      else none
    | _, _, _ => none
  | _ => none

/-- A BORROW body of kind REPORT from its bytes. -/
def readBorrowReport (bs : List Byte) : Option Record :=
  match bs with
  | k :: rest => if k = 2 then readRecord rest else none
  | [] => none

/-- A LEND with a call tag. -/
structure LendBody where
  tag : Tag
  letter : Option Letter
  network : Nat
deriving DecidableEq, Repr

/-- A LEND body with a call tag from its bytes. -/
def readLendCall (bs : List Byte) : Option LendBody :=
  match bs with
  | [k, o, h, l, b, n1, n2, n3] =>
    if k = 1 then
      match tagOf o h l, letterOf b with
      | some t, some letter => some ⟨t, letter, beNat [n1, n2, n3]⟩
      | _, _ => none
    else none
  | _ => none

/-- A LEND body with a report tag from its bytes. -/
def readLendReport (bs : List Byte) : Option Tag :=
  match bs with
  | [k, o, h, l] => if k = 2 then tagOf o h l else none
  | _ => none

/-- A DECLINE body of a tag type from its bytes; the reason plays no part beyond having a defined code (R73, R136). -/
def readDecline (type : Byte) (bs : List Byte) : Option Tag :=
  match bs with
  | [k, o, h, l, r] => if k = type ∧ 1 ≤ r.toNat ∧ r.toNat ≤ 5 then tagOf o h l else none
  | _ => none

/-- A CONNECTED body from its bytes. -/
def readConnected (bs : List Byte) : Option Tag :=
  match bs with
  | [o, h, l] => tagOf o h l
  | _ => none

/-- A CLEAR body. -/
structure ClearBody where
  tag : Tag
  circuit : Nat
  reason : ClearReason
deriving DecidableEq, Repr

/-- A CLEAR body from its bytes. -/
def readClear (bs : List Byte) : Option ClearBody :=
  match bs with
  | [o, h, l, c, r] =>
    match tagOf o h l, clearReasonOf r with
    | some t, some reason => some ⟨t, c.toNat, reason⟩
    | _, _ => none
  | _ => none

/-- A WAKE body from its bytes: it has none. -/
def readWake (bs : List Byte) : Option Unit :=
  match bs with
  | [] => some ()
  | _ => none

/-- A REPORT_RESULT. -/
structure ResultBody where
  tag : Tag
  delivered : Bool
deriving DecidableEq, Repr

/-- A REPORT_RESULT body from its bytes. -/
def readResult (bs : List Byte) : Option ResultBody :=
  match bs with
  | [o, h, l, r] =>
    match tagOf o h l, r.toNat with
    | some t, 1 => some ⟨t, true⟩
    | some t, 2 => some ⟨t, false⟩
    | _, _ => none
  | _ => none

/-- A QUERY or SERVICE_ORDER body: selector or order, and index or class set. -/
def readService (bs : List Byte) : Option (Byte × Byte) :=
  match bs with
  | [x, y] => some (x, y)
  | _ => none

/-! ### The configuration record (12.3, R166, R187) -/

/-- The byte at a position. -/
def byteAt (bs : List Byte) (i : Nat) : Nat := (bs.getD i 0).toNat

/-- Whether a byte lies in a range. -/
def inRange (bs : List Byte) (i lo hi : Nat) : Bool := lo ≤ byteAt bs i && byteAt bs i ≤ hi

/-- The label bytes in use. -/
def recordLabel (bs : List Byte) : List Byte := (bs.drop 18).take (byteAt bs 17)

/-- The destination digits in use. -/
def recordDestination (bs : List Byte) : List Byte := (bs.drop 43).take (byteAt bs 42)

/-- Every field lies in its range (R166, R187). -/
def fieldsInRange (bs : List Byte) : Bool :=
  inRange bs 0 1 32 && inRange bs 3 0 2 && inRange bs 4 1 6 && inRange bs 5 10 60 &&
    [1, 2, 4, 8].contains (byteAt bs 6) && inRange bs 7 10 60 && inRange bs 8 1 3 && inRange bs 9 1 3 &&
    inRange bs 10 30 180 && inRange bs 11 0 1 && 60 ≤ beNat [bs.getD 12 0, bs.getD 13 0] &&
    beNat [bs.getD 12 0, bs.getD 13 0] ≤ 3600 && inRange bs 14 0 24 && inRange bs 15 5 60 && inRange bs 16 5 45 &&
    inRange bs 17 0 24 && inRange bs 42 1 16 && (recordLabel bs).all labelChar &&
    (recordDestination bs).all fun d => 48 ≤ d.toNat && d.toNat ≤ 57

/-- A valid configuration record's values; none where the record is invalid: fewer bytes than it holds, a wrong check
value, or a field out of its range (R166, R167, R187). -/
def readConfiguration (bs : List Byte) : Option Configuration :=
  if bs.length = 61 ∧ crc16 (bs.take 59) = BitVec.ofNat 16 (beNat [bs.getD 59 0, bs.getD 60 0]) ∧ fieldsInRange bs then
    some
      { address := some (byteAt bs 0), segment := some (BitVec.ofNat 16 (beNat [bs.getD 1 0, bs.getD 2 0]))
        bearersFitted := byteAt bs 3, circuits := byteAt bs 4, announcePeriod := byteAt bs 5
        answerTimeout := byteAt bs 6, wakeAllowance := byteAt bs 7, localPreference := byteAt bs 8
        lendMinimum := byteAt bs 9, setupLimit := byteAt bs 10, standbyEnable := byteAt bs 11 == 1
        idleTime := beNat [bs.getD 12 0, bs.getD 13 0], checkIn := byteAt bs 14, impactThreshold := byteAt bs 15
        tiltThreshold := byteAt bs 16, label := recordLabel bs, destination := recordDestination bs }
  else none

/-! ### A peer's STATUS (R182, R183, R186) -/

/-- The content of a STATION answer: 44 bytes, with defined codes (R182). -/
def stationContentFits (bs : List Byte) : Bool :=
  bs.length == 44 && inRange bs 0 1 4 && inRange bs 1 1 3 && inRange bs 2 0 7 && inRange bs 9 1 4 && inRange bs 11 1 2

/-- The content of a FAULTS answer: 22 bytes, with a defined kind in the last-fault record (R182). -/
def faultsContentFits (bs : List Byte) : Bool := bs.length == 22 && inRange bs 15 0 14

/-- The content of a DIRECTORY answer: the number held, an address, the ANNOUNCE body form and a stamp (R182, 12.2). -/
def directoryContentFits (bs : List Byte) : Bool :=
  8 ≤ bs.length && (readAnnounce ((bs.drop 2).take (bs.length - 8))).isSome

/-- A number of circuit entries of seven bytes: a defined state, a tag number that a tag may have (R182, 12.2). -/
def circuitEntriesFit : Nat → List Byte → Bool
  | 0, rest => rest.isEmpty
  | n + 1, state :: _ :: o :: h :: l :: _ :: _ :: rest =>
    1 ≤ state.toNat % 4 && (tagOf o h l).isSome && circuitEntriesFit n rest
  | _ + 1, _ => false

/-- The content of a BEARER answer: a defined state, and as many networks and bars as it counts (R182, 12.2). -/
def bearerContentFits (bs : List Byte) : Bool :=
  1 ≤ byteAt bs 0 % 32 && byteAt bs 0 % 32 ≤ 16 &&
    bs.length == 7 + 4 * (byteAt bs 6 % 16 + byteAt bs 6 / 16)

/-- A number of queue entries, each followed by so many bytes of its queue's own (R182, 12.2). -/
def queueEntriesFit (more : Nat) : Nat → List Byte → Bool
  | 0, rest => rest.isEmpty
  | n + 1, o :: h :: l :: packed :: rest =>
    (tagOf o h l).isSome && 1 ≤ packed.toNat % 8 && packed.toNat % 8 ≤ 5 && 1 ≤ packed.toNat / 8 % 4 &&
      packed.toNat / 8 % 4 ≤ 3 && more ≤ rest.length && queueEntriesFit more n (rest.drop more)
  | _ + 1, _ => false

/-- The content of a QUEUES answer, the report queue's entries with a repeat count each (R182, 12.2). -/
def queueContentFits (more : Nat) (bs : List Byte) : Bool := queueEntriesFit more (byteAt bs 0) (bs.drop 1)

/-- Whether the content of a STATUS has the length and the codes that its answered code, index and result call for; where
these name no content, it has none (R182, R183, R186, 12.2; log entry 25). -/
def statusContentFits (code index result : Nat) (bs : List Byte) : Bool :=
  match result, code, index with
  | 0, 1, _ => stationContentFits bs
  | 0, 2, _ => faultsContentFits bs
  | 0, 3, _ => directoryContentFits bs
  | 0, 4, _ => circuitEntriesFit 6 (bs.drop 1) && bs.length == 43
  | 0, 5, 0 => bearerContentFits bs
  | 0, 5, 1 => bearerContentFits bs
  | 0, 6, 0 => bs.length != 0 && queueContentFits 1 bs
  | 0, 6, 1 => bs.length != 0 && queueContentFits 0 bs
  | 1, 3, _ => bs.length == 1
  | 2, 129, _ => bs.length == 1
  | _, _, _ => bs.isEmpty

/-- The answered codes of a STATUS: a selector, or an order plus 128 (12.2). -/
def answeredCodeDefined (code : Nat) : Bool := (1 ≤ code && code ≤ 6) || (129 ≤ code && code ≤ 132)

/-- A STATUS body from a peer: the head of nine bytes with a defined result, a defined answered code (any code where the
result is UNKNOWN, which echoes it), and the content that these call for (R186; log entry 25). -/
def readStatus (bs : List Byte) : Option Unit :=
  match bs with
  | code :: index :: result :: _ :: _ :: _ :: _ :: _ :: _ :: content =>
    if result.toNat ≤ 5 ∧ (answeredCodeDefined code.toNat ∨ result.toNat = 5) ∧
        statusContentFits code.toNat index.toNat result.toNat content then some ()
    else none
  | _ => none

/-! ### Bearer port messages (12.4) -/

/-- A message: type, number of parameter bytes, parameters. -/
def portMessage (type : Nat) (params : List Byte) : List Byte := byte type :: byte params.length :: params

/-- The message of a command, but for SEND_REPORT, which carries its record (`sendReportMessage`). -/
def commandMessage : Command → List Byte
  | .powerUp => portMessage 1 []
  | .scan => portMessage 2 []
  | .camp n => portMessage 3 (be24 n)
  | .dial => portMessage 4 [1]
  | .hangup => portMessage 5 []
  | .sendReport => portMessage 6 []
  | .status => portMessage 7 []
  | .powerDown => portMessage 8 []

/-- SEND_REPORT: the record in the corridor form, digit count, digits (R188). -/
def sendReportMessage (r : Record) (digits : List Byte) : List Byte :=
  portMessage 6 (recordBytes r ++ [byte digits.length] ++ digits)

end Sys2Proof.Machine
end

