-- ==== Sys2Proof/Machine/Compose.lean ====
section
/-! DEFINITION. What the frames of the transmit queue say: kind, class, and the body composed from the station's state
(R11, R31, R91, R141, R185). -/

namespace Sys2Proof.Machine

/-- The kind code of a frame (12.2). -/
def TxBody.kind : TxBody → Nat
  | .announce _ _ => 1
  | .wake => 2
  | .claim _ _ _ => 3
  | .callStatusOrigin _ => 4
  | .callStatusCarrier _ _ => 4
  | .borrowVoice _ _ => 5
  | .borrowReport _ => 5
  | .lendCall _ _ _ => 6
  | .lendReport _ => 6
  | .declineCall _ _ => 7
  | .declineReport _ _ => 7
  | .connected _ => 8
  | .clear _ _ _ => 9
  | .reportResult _ _ => 10
  | .status _ _ => 12

/-- The transmit class: ANNOUNCE and STATUS are ROUTINE, every other kind is URGENT (R141). -/
def TxBody.urgent : TxBody → Bool
  | .announce _ _ => false
  | .status _ _ => false
  | _ => true

/-- Whether a frame is an ANNOUNCE. -/
def TxBody.isAnnounce : TxBody → Bool
  | .announce _ _ => true
  | _ => false

/-- The bytes of a summary in an ANNOUNCE (12.2). -/
def summaryBytes (m : Summary) : List Byte :=
  [byte (letterCode m.letter), byte (classCode m.cls), byte m.grade] ++ be24 m.network

/-- The summary that a STANDBY ANNOUNCE carries for a bearer (R11). -/
def standbySummary (m : Summary) : Summary := { m with cls := .down, grade := 0, network := 0 }

/-- The bytes of a held circuit in an ANNOUNCE (12.2). -/
def heldBytes : Option HeldCircuit → List Byte
  | none => []
  | some h => byte h.circuit :: (tagBytes h.tag ++ be16 h.age)

/-- The flags byte of an ANNOUNCE (12.2). -/
def announceFlags (standby lendReady solicit held : Bool) : Byte :=
  byte (standby.toNat + 2 * lendReady.toNat + 4 * solicit.toNat + 8 * held.toNat)

/-- The ANNOUNCE body form (12.2). -/
def announceBytes (standby lendReady solicit : Bool) (period circuits : Nat) (summaries : List Summary)
    (held : Option HeldCircuit) : List Byte :=
  [announceFlags standby lendReady solicit held.isSome, byte period, byte circuits, byte summaries.length] ++
    summaries.flatMap summaryBytes ++ heldBytes held

/-- The circuit this station holds, as its ANNOUNCE states it (R11, R31). -/
def Station.heldCircuit (s : Station) : Option HeldCircuit :=
  match s.ownCircuit with
  | none => none
  | some c =>
    match s.entry c with
    | .heldOwn _ t start => some ⟨circuitNumber c, t, holdAge s.now start⟩
    | _ => none

/-- The body of this station's ANNOUNCE as its state now stands (R11). -/
def Station.announceBody (s : Station) (standby solicit : Bool) : List Byte :=
  announceBytes standby (!standby && s.lendReady) solicit s.config.announcePeriod s.config.circuits
    (if standby then s.summaries.map standbySummary else s.summaries) s.heldCircuit

/-- The circuit held for a tag, with its hold age: what a CALL_STATUS of the origin context names (R31, R91). -/
def Station.heldFor (s : Station) (t : Tag) : Option (Circuit × Nat) :=
  match s.ownCircuit with
  | none => none
  | some c =>
    match s.entry c with
    | .heldOwn _ u start => if u = t then some (c, holdAge s.now start) else none
    | _ => none

/-- The phase a CALL_STATUS of the origin context states; a context that has ended states ENDING (log entry 16). -/
def Station.originPhaseCode (s : Station) (t : Tag) : Nat :=
  match s.call.origin with
  | some o => if o.tag = t then phaseCode o.phase else phaseCode .ending
  | none => phaseCode .ending

/-- The phase a CALL_STATUS of a carrier context states; a context that has ended states ENDING (log entry 16). -/
def Station.carrierPhaseCode (s : Station) (t : Tag) : Nat :=
  match s.carrier? t with
  | some k => Machine.carrierPhaseCode k.phase
  | none => Machine.carrierPhaseCode .ending

/-- The body of a CALL_STATUS of the origin context (R91). -/
def Station.originStatusBody (s : Station) (t : Tag) : List Byte :=
  tagBytes t ++
    [circuitByte ((s.heldFor t).map (·.1)), 1, byte (s.originPhaseCode t)] ++ be16 (((s.heldFor t).map (·.2)).getD 0)

/-- The body of a CALL_STATUS of a carrier context (R91). -/
def Station.carrierStatusBody (s : Station) (t : Tag) (c : Circuit) : List Byte :=
  tagBytes t ++ [circuitByte (some c), 2, byte (s.carrierPhaseCode t)] ++ be16 0

/-- The body bytes of a frame as the station's state now stands (12.2, R11, R91). -/
def Station.bodyBytes (s : Station) : TxBody → List Byte
  | .announce standby solicit => s.announceBody standby solicit
  | .wake => []
  | .claim c t d => circuitByte (some c) :: (tagBytes t ++ be16 d)
  | .callStatusOrigin t => s.originStatusBody t
  | .callStatusCarrier t c => s.carrierStatusBody t c
  | .borrowVoice t c => 1 :: (tagBytes t ++ [circuitByte (some c)])
  | .borrowReport r => 2 :: recordBytes r
  | .lendCall t l n => 1 :: (tagBytes t ++ [byte (letterCode l)] ++ be24 n)
  | .lendReport t => 2 :: tagBytes t
  | .declineCall t r => 1 :: (tagBytes t ++ [byte (declineCode r)])
  | .declineReport t r => 2 :: (tagBytes t ++ [byte (declineCode r)])
  | .connected t => tagBytes t
  | .clear t c r => tagBytes t ++ [circuitByte c, byte (clearCode r)]
  | .reportResult t d => tagBytes t ++ [if d then 1 else 2]
  | .status body _ => body

/-- The segment code of a frame: the configured one, or that of the frame answered on a station that has none (R141). -/
def Station.frameSegment (s : Station) : TxBody → BitVec 16
  | .status _ segment => s.config.segment.getD segment
  | _ => s.config.segment.getD 0

/-- A frame of the transmit queue, composed whole (R141, R185). A station without an address is source 63. -/
def Station.composeFrame (s : Station) (f : TxFrame) : List Byte :=
  frameBytes f.body.kind (s.frameSegment f.body) (s.config.address.getD 63) f.dest (s.bodyBytes f.body)

end Sys2Proof.Machine
end

