-- ==== Sys2Proof/Machine/Flags.lean ====
section
/-! DEFINITION. The fault unit: classes, counters, the last-fault record, clearing, and the fault lamp (R118,
R178-R180). -/

namespace Sys2Proof.Machine

/-- The position of a kind in the table of R178, from 0. -/
def FaultKind.index : FaultKind → Fin 14
  | .frameCheck => 0
  | .lineCongestion => 1
  | .drawHealth => 2
  | .bearerTimeout => 3
  | .reportDropped => 4
  | .bearerFailed => 5
  | .circuitMismatch => 6
  | .partnerLost => 7
  | .callUnplaced => 8
  | .reportUndelivered => 9
  | .sensorSilent => 10
  | .configRejected => 11
  | .configInvalid => 12
  | .addressClash => 13

/-- The class of a kind (R178). -/
def FaultKind.faultClass : FaultKind → FaultClass
  | .frameCheck => .correctable
  | .lineCongestion => .correctable
  | .drawHealth => .correctable
  | .bearerTimeout => .correctable
  | .reportDropped => .correctable
  | .bearerFailed => .nonFatal
  | .circuitMismatch => .nonFatal
  | .partnerLost => .nonFatal
  | .callUnplaced => .nonFatal
  | .reportUndelivered => .nonFatal
  | .sensorSilent => .nonFatal
  | .configRejected => .nonFatal
  | .configInvalid => .fatal
  | .addressClash => .fatal

/-- Every kind, in the order of R178. -/
def allFaultKinds : List FaultKind :=
  [.frameCheck, .lineCongestion, .drawHealth, .bearerTimeout, .reportDropped, .bearerFailed, .circuitMismatch
  , .partnerLost, .callUnplaced, .reportUndelivered, .sensorSilent, .configRejected, .configInvalid, .addressClash]

/-- Whether a set names a class. -/
def ClassSet.has (c : ClassSet) : FaultClass → Bool
  | .correctable => c.correctable
  | .nonFatal => c.nonFatal
  | .fatal => c.fatal

/-- A set with a class added. -/
def ClassSet.add (c : ClassSet) : FaultClass → ClassSet
  | .correctable => { c with correctable := true }
  | .nonFatal => { c with nonFatal := true }
  | .fatal => { c with fatal := true }

/-- A set without the classes of another. -/
def ClassSet.without (c d : ClassSet) : ClassSet :=
  { correctable := c.correctable && !d.correctable, nonFatal := c.nonFatal && !d.nonFatal, fatal := c.fatal && !d.fatal }

/-- The counter of a kind (R178). -/
def Faults.counter (f : Faults) (k : FaultKind) : Nat := f.counters.get k.index

/-- The record after a fault of kind `k` raised at `now`: flag, counter and last-fault record (R179). -/
def Faults.raised (k : FaultKind) (now : Stamp) (f : Faults) : Faults :=
  { flags := f.flags.add k.faultClass
    counters := f.counters.set k.index.val (min 255 (f.counter k + 1)) k.index.isLt
    last := some (k, now) }

/-- A block raises a fault (R179). -/
def raise (k : FaultKind) (s : Station) : Station := { s with keep.faults := s.keep.faults.raised k s.now }

/-- Whether the condition of a condition fault stands (R178); a kind that has no condition has none that stands. -/
def Station.conditionStands (s : Station) : FaultKind → Bool
  | .bearerFailed => s.bearers.a.state == .failedHeld || s.bearers.b.state == .failedHeld
  | .sensorSilent => s.cabinet.silent
  | .configInvalid => s.onBuiltIn
  | .addressClash => s.power.clash
  | .frameCheck => false
  | .lineCongestion => false
  | .drawHealth => false
  | .bearerTimeout => false
  | .reportDropped => false
  | .circuitMismatch => false
  | .partnerLost => false
  | .callUnplaced => false
  | .reportUndelivered => false
  | .configRejected => false

/-- The counters with those of the kinds of a set of classes at 0 (R180). -/
def zeroCounters (set : ClassSet) (counters : Vector Nat 14) : Vector Nat 14 :=
  allFaultKinds.foldl (fun v k => if set.has k.faultClass then v.set k.index.val 0 k.index.isLt else v) counters

/-- The flags with those added whose conditions stand, among the kinds of a set of classes (R180). -/
def Station.standingFlags (s : Station) (set : ClassSet) (flags : ClassSet) : ClassSet :=
  allFaultKinds.foldl
    (fun g k => if set.has k.faultClass && s.conditionStands k then g.add k.faultClass else g) flags

/-- A CLEAR_FAULTS of a set of classes (R180). -/
def clearClasses (set : ClassSet) (s : Station) : Station :=
  { s with
    keep.faults :=
      { flags := s.standingFlags set (s.keep.faults.flags.without set)
        counters := zeroCounters set s.keep.faults.counters
        last := s.keep.faults.last } }

/-- The fault lamp: lit while the NON_FATAL or the FATAL flag is set, dark in STANDBY, while the station is held in reset
and without the keep rail (R118, R165, R177). -/
def Station.faultLamp (s : Station) : Bool :=
  (s.keep.faults.flags.nonFatal || s.keep.faults.flags.fatal) && s.power.opState != .standby && s.power.keepRail &&
    !s.power.held

end Sys2Proof.Machine
end

