-- ==== Sys2Proof/Machine/Draw.lean ====
section
/-! DEFINITION. The draw source: the fallback sequence, requests and withdrawals, entry into LATCHED (R158-R164). -/

namespace Sys2Proof.Machine

/-- The seed of the fallback state (R162). -/
def fallbackSeed (clock address : Nat) : Nat := (clock + 16777216 * address) % 4294967296

/-- The state after one step of the fallback sequence (R162). -/
def fallbackNext (f : Fallback) : Fallback :=
  { f with state := (f.state * 1597334677 + 2 * f.address + 1) % 4294967296 }

/-- The draw that a fallback state gives (R162). -/
def fallbackDraw (f : Fallback) : Nat := f.state / 65536

/-- A consumer requests a draw; delivered at once, or it joins the waiting list (R161). -/
def requestDraw (c : Consumer) (s : Station) : Option Nat × Station :=
  match s.draw.mode with
  | .off => (none, s)
  | .qualifying => (none, { s with draw.waiting := s.draw.waiting ++ [c] })
  | .healthy =>
    match s.draw.pool with
    | [] => (none, { s with draw.waiting := s.draw.waiting ++ [c] })
    | d :: rest => (some d, { s with draw.pool := rest })
  | .latched =>
    match s.draw.fallback with
    | some f => (some (fallbackDraw (fallbackNext f)), { s with draw.fallback := some (fallbackNext f) })
    | none => (none, { s with draw.waiting := s.draw.waiting ++ [c] })

/-- A consumer withdraws its waiting request; a request already answered is not in the list (R161). -/
def withdrawDraw (c : Consumer) (s : Station) : Station :=
  { s with draw.waiting := s.draw.waiting.filter fun d => d != c }

/-- The draws of the fallback sequence for a list of waiting consumers, oldest first (R163). -/
def serveWaiting : List Consumer → Fallback → List (Consumer × Nat) × Fallback
  | [], f => ([], f)
  | c :: cs, f =>
    let r := serveWaiting cs (fallbackNext f)
    ((c, fallbackDraw (fallbackNext f)) :: r.1, r.2)

/-- Entry into LATCHED: DRAW_HEALTH, the pool and the group emptied, the fallback state seeded, every waiting request
answered (R159, R162, R163). The answers are handed to their consumers by the caller. -/
def enterLatched (s : Station) : List (Consumer × Nat) × Station :=
  let seed : Fallback :=
    { address := s.tagOrigin, state := fallbackSeed s.now.clock.toNat s.tagOrigin }
  let r := serveWaiting s.draw.waiting seed
  (r.1, raise .drawHealth
    { s with draw := { s.draw with mode := .latched, pool := [], waiting := [], fallback := some r.2, group := [] } })

/-- Entry into HEALTHY: conditioning begins, the fallback state is dropped (R159, R160, R163). -/
def enterHealthy (s : Station) : Station :=
  { s with draw := { s.draw with mode := .healthy, fallback := none, group := [] } }

/-! ### The noise bits (R158, R160) -/

/-- The run length after one more bit: a bit equal to the one before extends the run; a different bit, the first bit and the
bit behind a run of 32 start a run of 1 (R158). -/
def DrawSource.runAfter (d : DrawSource) (bit : Bool) : Nat :=
  if 1 ≤ d.runLength && d.runLength < 32 && bit == d.lastBit then d.runLength + 1 else 1

/-- Whether a bit is gathered: in HEALTHY, while the pool holds fewer than eight (R160). A group of 64 takes no further bit
before its draw is made (log entry 11). -/
def DrawSource.gathers (d : DrawSource) : Bool := d.mode == .healthy && d.pool.length < 8 && d.group.length < 64

/-- One noise bit at the counts of both tests and at the conditioning group (R158, R160). -/
def DrawSource.countBit (bit : Bool) (d : DrawSource) : DrawSource :=
  { d with
    lastBit := bit
    runLength := d.runAfter bit
    windowBits := d.windowBits + 1
    ones := if bit then d.ones + 1 else d.ones
    group := if d.gathers then d.group ++ [bit] else d.group }

/-- Whether the window passes with the ones counted and without a repetition failure (R158). -/
def DrawSource.windowPasses (d : DrawSource) : Bool := 180 ≤ d.ones && d.ones ≤ 332 && !d.windowFailed

/-- The next window begins: its bits, its ones and its failure mark start again (R158). -/
def DrawSource.nextWindow (d : DrawSource) : DrawSource := { d with windowBits := 0, ones := 0, windowFailed := false }

/-- The bits, equal to the latest, that complete a run of 32 (R158; before the first bit, 32 zeros: log entry 11). -/
def DrawSource.runOut (d : DrawSource) : List Bool :=
  List.replicate (if d.runLength < 32 then 32 - d.runLength else 32) d.lastBit

/-- A group of 64 bits becomes a draw, which goes to the oldest waiting request or joins the tail of the pool (R160). With
the pool full and none waiting the group is kept. The answer is the consumer it goes to. -/
def conditionedDraw (draw : Nat) (s : Station) : Option Consumer × Station :=
  match s.draw.waiting with
  | c :: rest => (some c, { s with draw.waiting := rest, draw.group := [] })
  | [] =>
    (none, if s.draw.pool.length < 8 then { s with draw.pool := s.draw.pool ++ [draw], draw.group := [] } else s)

end Sys2Proof.Machine
end

