-- ==== Sys2Proof/Machine/Line.lean ====
section
/-! DEFINITION. The line interface's transmit side: the queue, service, displacement, backoff, attempts and drops
(R146-R154). -/

namespace Sys2Proof.Machine

/-! ### The queue (R146, R147) -/

/-- The frames held, the one in service included (R146). -/
def Line.total (l : Line) : Nat := l.queue.length + (if l.service.isSome then 1 else 0)

/-- Whether the queue takes a frame in the present operating state (R146, R155-R157). -/
def Station.takesFrame (s : Station) (body : TxBody) (dest : Nat) : Bool :=
  match s.power.opState with
  | .active => true
  | .isolated =>
    match body with
    | .status _ _ => dest == 0
    | _ => false
  | .start => false
  | .standby => false

/-- A frame added at the tail of its class (R146). -/
def addToClass (f : TxFrame) (q : List TxFrame) : List TxFrame :=
  if f.body.urgent then (q.takeWhile fun g => g.body.urgent) ++ [f] ++ (q.dropWhile fun g => g.body.urgent)
  else q ++ [f]

/-- A ROUTINE frame returned to the head of its class (R148). -/
def returnToClass (f : TxFrame) (q : List TxFrame) : List TxFrame :=
  (q.takeWhile fun g => g.body.urgent) ++ [f] ++ (q.dropWhile fun g => g.body.urgent)

/-- Whether an attempt of the frame in service is in progress. -/
def Backoff.attempt : Backoff → Bool
  | .attempting _ _ => true
  | _ => false

/-- Whether this station's own attempt is in progress (R142). -/
def Station.transmitting (s : Station) : Bool :=
  match s.line.service with
  | some v => v.backoff.attempt
  | none => false

/-- The frame in service leaves service: its draw request is withdrawn, its slot count discarded (R148). -/
def leaveService (s : Station) : Station := withdrawDraw .line { s with line.service := none }

/-- A drop reported to the frame's owner, with LINE_CONGESTION (R147, R152, R154). -/
def reportDrop (body : TxBody) (s : Station) : Station :=
  let s := raise .lineCongestion s
  match body with
  | .claim _ _ _ => post (.claimDropped body) s
  | .announce standby _ => post (.announceDropped standby) s
  | _ => s

/-- The displacement of a ROUTINE frame in service, no attempt of it in progress, by an URGENT frame (R148). -/
def displace (s : Station) : Station :=
  match s.line.service with
  | some v =>
    if !v.frame.body.urgent && !v.backoff.attempt then
      leaveService { s with line.queue := returnToClass v.frame s.line.queue }
    else s
  | none => s

/-- A frame added to the queue; an URGENT one displaces a ROUTINE frame in service (R146, R148). -/
def addFrame (f : TxFrame) (s : Station) : Station :=
  let s := if f.body.urgent then displace s else s
  { s with line.queue := addToClass f s.line.queue }

/-- The oldest ROUTINE frame not begun, taken out of the queue or out of service, if there is one (R147). -/
def takeRoutine (s : Station) : Option (TxFrame × Station) :=
  let fromQueue :=
    match s.line.queue.find? fun g => !g.body.urgent && !g.begun with
    | some g => some (g, { s with line.queue := s.line.queue.eraseP fun h => !h.body.urgent && !h.begun })
    | none => none
  match s.line.service with
  | some v => if !v.frame.body.urgent && !v.frame.begun then some (v.frame, leaveService s) else fromQueue
  | none => fromQueue

/-- A block hands a frame over (R146, R147). -/
def handOver (body : TxBody) (dest : Nat) (s : Station) : Station :=
  if !s.takesFrame body dest then s
  else
    let f : TxFrame := { body := body, dest := dest, attempts := 0, begun := false }
    if s.line.total < 8 then addFrame f s
    else if body.urgent then
      match takeRoutine s with
      | some (g, s') => addFrame f (reportDrop g.body s')
      | none => reportDrop body s
    else reportDrop body s

/-- The owner's removal of its frames whose begun flag is clear (R148). -/
def removeUnbegun (p : TxBody → Bool) (s : Station) : Station :=
  let s := { s with line.queue := s.line.queue.filter fun g => g.begun || !p g.body }
  match s.line.service with
  | some v => if !v.frame.begun && p v.frame.body then leaveService s else s
  | none => s

/-! ### Backoff and attempts (R149-R152) -/

/-- The size of the backoff range by class and number of collisions (R149). -/
def backoffRange (urgent : Bool) (n : Nat) : Nat := min 256 ((if urgent then 8 else 32) * 2 ^ n)

/-- A draw delivered to the line interface becomes the slot count of the frame in service (R149). -/
def lineDraw (draw : Nat) (s : Station) : Station :=
  match s.line.service with
  | some ⟨f, .waitingDraw⟩ =>
    { s with line.service := some ⟨f, .slots (draw % backoffRange f.body.urgent f.attempts)⟩ }
  | _ => s

/-- The line interface requests the draw of the frame in service (R149). -/
def requestLineDraw (s : Station) : Station :=
  match requestDraw .line s with
  | (some d, s') => lineDraw d s'
  | (none, s') => s'

/-- A frame enters service (R148, R149). -/
def enterService (f : TxFrame) (s : Station) : Station :=
  requestLineDraw { s with line.service := some ⟨f, .waitingDraw⟩ }

/-- Whether a frame is composed with power state STANDBY. -/
def TxBody.saysStandby : TxBody → Bool
  | .announce standby _ => standby
  | _ => false

/-- The attempt that starts when the slot count is 0 and the line has been idle for an idle gap (R150, R151). -/
def tryAttempt (s : Station) : Station :=
  match s.line.service with
  | some ⟨f, .slots 0⟩ =>
    if s.line.gap then
      let g := { f with attempts := f.attempts + 1, begun := true }
      let bytes := s.composeFrame g
      emit (.frame bytes)
        { s with
          line.service := some ⟨g, .attempting bytes f.body.saysStandby⟩
          line.gap := false }
    else s
  | _ => s

/-- The transmit side's service at the end of a command: the first frame in queue order enters service when none is in
service, and an attempt that may start starts (R148, R150; log entry 5). -/
def pump (s : Station) : Station :=
  match s.line.service, s.line.queue with
  | none, f :: rest => tryAttempt (enterService f { s with line.queue := rest })
  | _, _ => tryAttempt s

/-- The line after this station's own attempt has ended: the assembly skips, the idle gap is counted anew (R142,
R150). -/
def attemptEnded (s : Station) : Station := { s with line.assembly := .skipping, line.gap := false }

/-- The slot count one lower (R150). -/
def countSlot (s : Station) : Station :=
  match s.line.service with
  | some ⟨f, .slots (n + 1)⟩ => if s.line.gap then { s with line.service := some ⟨f, .slots n⟩ } else s
  | _ => s

/-- A collision of the attempt in progress (R151, R152, R148). An ANNOUNCE's re-announce mark is cleared (R13). -/
def attemptCollided (s : Station) : Station :=
  match s.line.service with
  | some ⟨f, .attempting _ _⟩ =>
    let s := attemptEnded s
    let s :=
      if f.body.isAnnounce then { s with announcing.mark := false, announcing.markSolicit := false } else s
    if 8 ≤ f.attempts then reportDrop f.body { s with line.service := none }
    else if !f.body.urgent && s.line.queue.any fun g => g.body.urgent then
      { s with line.service := none, line.queue := returnToClass f s.line.queue }
    else enterService f s
  | _ => s

end Sys2Proof.Machine
end

