-- ==== Sys2Proof/Machine/Announcer.lean ====
section
/-! DEFINITION. The station's own announcing and the effective circuit count (R7, R12-R15, R172). -/

namespace Sys2Proof.Machine

/-! ### Queueing and merging (R12, R13) -/

/-- Whether an ANNOUNCE of the station is in the transmit queue or in service. -/
def Station.announceQueued (s : Station) : Bool :=
  (s.line.queue.any fun g => g.body.isAnnounce) ||
    (match s.line.service with
    | some v => v.frame.body.isAnnounce
    | none => false)

/-- Whether the attempt in progress is one of this station's ANNOUNCE. -/
def Station.announcingNow (s : Station) : Bool :=
  match s.line.service with
  | some v => v.frame.body.isAnnounce && v.backoff.attempt
  | none => false

/-- A queued ANNOUNCE's body merged with a cause: the cause's power state, the solicit flag of either (R13). -/
def TxBody.mergedWith (standby solicit : Bool) : TxBody → TxBody
  | .announce _ old => .announce standby (old || solicit)
  | b => b

/-- The queued ANNOUNCE with its body changed, wherever in the line interface it stands. -/
def mapAnnounce (f : TxBody → TxBody) (s : Station) : Station :=
  { s with
    line.queue := s.line.queue.map fun g => { g with body := f g.body }
    line.service := s.line.service.map fun v => { v with frame.body := f v.frame.body } }

/-- A cause merged with the queued ANNOUNCE, or a new ANNOUNCE handed over (R13). While one is queued the period timer is
stopped (R12). -/
def mergeAnnounce (standby solicit : Bool) (s : Station) : Station :=
  if s.announceQueued then
    let s := mapAnnounce (TxBody.mergedWith standby solicit) s
    if s.announcingNow then { s with announcing.mark := true } else s
  else handOver (.announce standby solicit) 63 { s with announcing.period := none }

/-- A cause of R12 whose power state is ACTIVE. It is taken while the station is ACTIVE; from the standby decision on it
is held back (R12, R13). -/
def announceCause (solicit : Bool) (s : Station) : Station :=
  if s.power.opState = .active then
    match s.power.progress with
    | .announcing => { s with announcing.heldBack := some (s.announcing.heldBack.getD false || solicit) }
    | .waitingEntry => { s with announcing.heldBack := some (s.announcing.heldBack.getD false || solicit) }
    | .none => mergeAnnounce false solicit s
    | .waitingCommand => mergeAnnounce false solicit s
  else s

/-- An operation followed by an announcement cause if it changed the lend-ready value (R8, R12). -/
def notingLendReady (op : Station → Station) (s : Station) : Station :=
  let t := op s
  if t.lendReady = s.lendReady then t else announceCause false t

/-- The announce period timer starts with the configured period; it runs in ACTIVE only (R12). -/
def startPeriod (s : Station) : Station :=
  if s.power.opState = .active then
    { s with announcing.period := some (s.within (s.config.announcePeriod * 1000)) }
  else s

/-! ### Completion and drop of an ANNOUNCE (R12-R14, R153, R154) -/

/-- A transmission of the station's ANNOUNCE has completed: the period timer starts, a pending reply ends, a mark that is
set queues a new ANNOUNCE with the merged power state (R12-R14). -/
def announceCompleted (standbyNow : Bool) (s : Station) : Station :=
  let s := withdrawDraw .reply { s with announcing.reply := .none }
  let s := startPeriod s
  if s.announcing.mark then
    let solicit := s.announcing.markSolicit
    mergeAnnounce standbyNow solicit { s with announcing.mark := false, announcing.markSolicit := false }
  else s

/-- A queued ANNOUNCE was dropped: the mark is cleared and the period timer starts; a STANDBY ANNOUNCE's drop abandons
the standby entry (R12, R13, R154, R172). -/
def announceWasDropped (standby : Bool) (s : Station) : Station :=
  let s := startPeriod { s with announcing.mark := false, announcing.markSolicit := false }
  if standby && s.power.progress = .announcing then
    let held := s.announcing.heldBack
    let s := { s with power.progress := .none, announcing.heldBack := none }
    match held with
    | some solicit => mergeAnnounce false solicit s
    | none => s
  else s

/-! ### Abandoning a standby entry (R13, R172) -/

/-- Standby entry abandoned in ACTIVE (R13, R172). The queued STANDBY ANNOUNCE becomes an ACTIVE one. R13 sets its solicit
flag if a held-back cause had it and names no other ground; where none had it and the STANDBY ANNOUNCE carries the flag
from the ANNOUNCE that it was merged with, the model keeps it (log entry 51). -/
def abandonStandby (s : Station) : Station :=
  let held := s.announcing.heldBack.getD false
  match s.power.progress with
  | .none => s
  | .waitingCommand => { s with power.progress := .none }
  | .announcing =>
    let t := mapAnnounce (TxBody.mergedWith false held)
      { s with power.progress := .none, announcing.heldBack := none }
    if t.announcingNow then { t with announcing.mark := true, announcing.markSolicit := held } else t
  | .waitingEntry => mergeAnnounce false held { s with power.progress := .none, announcing.heldBack := none }

/-- The standby decision: a STANDBY ANNOUNCE is queued, progress ANNOUNCING (R172). -/
def decideStandby (s : Station) : Station := mergeAnnounce true false { s with power.progress := .announcing }

/-! ### Solicit replies (R14) -/

/-- The draw of a solicit reply: its delay starts (R14). -/
def replyDraw (draw : Nat) (s : Station) : Station :=
  match s.announcing.reply with
  | .waitingDraw => { s with announcing.reply := .delay (s.within (draw % 500)) }
  | _ => s

/-- A solicit taken from a peer (R14). -/
def takeSolicit (s : Station) : Station :=
  if s.power.opState = .active ∧ s.announcing.reply = .none ∧ s.power.progress ≠ .announcing ∧
      s.power.progress ≠ .waitingEntry then
    match requestDraw .reply { s with announcing.reply := .waitingDraw } with
    | (some d, t) => replyDraw d t
    | (none, t) => t
  else s

/-! ### The effective circuit count (R7) -/

/-- The smallest of the configured count and every entry's count (R7). -/
def Station.countOf (s : Station) : Nat :=
  s.directory.entries.foldl (fun n e => min n e.circuits) s.config.circuits

/-- Whether the station is in circuit mismatch (R7). -/
def Station.mismatched (s : Station) : Bool := s.directory.effective < s.config.circuits

/-- The effective count recomputed. CIRCUIT_MISMATCH is raised where the station was not in mismatch before and is after,
and where it was in mismatch already and the count is lower than before, whether or not mismatch is left (R7). -/
def recomputeCount (wasMismatch : Bool) (s : Station) : Station :=
  let t := { s with directory.effective := s.countOf }
  let raises := if wasMismatch then t.directory.effective < s.directory.effective else t.mismatched
  if raises then raise .circuitMismatch t else t

end Sys2Proof.Machine
end

