-- ==== Sys2Proof/Machine/Circuit.lean ====
section
/-! DEFINITION. The circuit unit: entries, contests, holding statements, the own claim round and the own holding
(R16-R35). -/

namespace Sys2Proof.Machine

/-! ### Entries -/

/-- An entry changed; a change of holder or tag is reported to the call engine (R97). -/
def setEntry (c : Circuit) (e : CircuitEntry) (s : Station) : Station :=
  let t := setView c e s
  if (s.entry c).holding = e.holding then t else post (.circuitChanged c e) t

/-- Whether an end lies on a circuit. -/
def End.onCircuit (c : Circuit) : End → Bool
  | .callerSide d => d = c
  | .farSide d => d = c
  | _ => false

/-- Whether a bridge has an end for which a test holds. -/
def Bridge.hasEnd (p : End → Bool) (b : Bridge) : Bool := p b.left || p b.right

/-- Whether an owner is the origin context. -/
def Owner.isOrigin : Owner → Bool
  | .origin _ => true
  | _ => false

/-- The origin context's bridge to a circuit removed: the context no longer names the circuit (R121). -/
def dropCircuitBridge (c : Circuit) (s : Station) : Station :=
  { s with audio := s.audio.filter fun b => !(b.owner.isOrigin && b.hasEnd (End.onCircuit c)) }

/-- Claims ranked by draw, then by address (R19). -/
def Claim.outranks (a b : Claim) : Bool := b.draw < a.draw || (a.draw == b.draw && b.claimant < a.claimant)

/-- Holdings ranked by hold age, then by the holder's address (R17). -/
def holdingOutranks (ageA holderA ageB holderB : Nat) : Bool := ageB < ageA || (ageA == ageB && holderB < holderA)

/-! ### The own claim round (R26-R29) -/

/-- The lowest-numbered circuit that an attempt may pick (R26). -/
def Station.pickCircuit (s : Station) (attempted : List Circuit) : Option Circuit :=
  allCircuits.find? fun c =>
    circuitNumber c ≤ s.directory.effective && s.entry c == .free && !attempted.contains c

/-- A draw delivered to the attempt that waits for it: the CLAIM is handed over (R26). -/
def claimDraw (draw : Nat) (s : Station) : Station :=
  match s.circuits.round with
  | some r =>
    if r.stage = .waitingDraw then
      handOver (.claim r.circuit r.tag draw) 63 { s with circuits.round := some { r with stage := .claimSent draw } }
    else s
  | none => s

/-- An attempt begins by picking a circuit and requesting a draw; none where no circuit qualifies (R26). -/
def beginAttempt (r : Round) (s : Station) : Option Station :=
  match s.pickCircuit r.attempted with
  | none => none
  | some c =>
    let s :=
      { s with
        circuits.round := some { r with attempted := r.attempted ++ [c], circuit := c, stage := .waitingDraw } }
    match requestDraw .circuit s with
    | (some d, t) => some (claimDraw d t)
    | (none, t) => some t

/-- A round begins for a call tag (R26). -/
def openRound (tag : Tag) (s : Station) : Station :=
  let r : Round :=
    { tag := tag, attempts := 0, attempted := [], circuit := 0, stage := .waitingDraw, abandoned := none }
  match beginAttempt r s with
  | some t => t
  | none => post (.roundFailed tag .noFreeCircuit) { s with circuits.round := none }

/-- The request held behind an abandoned round is taken when that round ends (R26). -/
def takeHeldRequest (s : Station) : Station :=
  match s.circuits.request with
  | some tag => openRound tag { s with circuits.request := none }
  | none => s

/-- A round ends without a win; an abandoned round reports nothing (R27, R29). -/
def endRound (r : Round) (reason : RoundFailure) (s : Station) : Station :=
  let s := { s with circuits.round := none }
  takeHeldRequest (if r.abandoned.isNone then post (.roundFailed r.tag reason) s else s)

/-- The next attempt of a round, or its end for want of a circuit (R26). -/
def continueRound (r : Round) (s : Station) : Station :=
  match beginAttempt r s with
  | some t => t
  | none => endRound r .noFreeCircuit s

/-- The attempt in progress is lost (R27, R29). -/
def attemptLost (s : Station) : Station :=
  match s.circuits.round with
  | some r =>
    let r := { r with attempts := r.attempts + 1 }
    if r.abandoned.isSome || 3 ≤ r.attempts then endRound r .attemptsLost s else continueRound r s
  | none => s

/-- The call engine asks for a circuit (R26). -/
def requestCircuit (tag : Tag) (s : Station) : Station :=
  if s.power.opState ≠ .active then post (.roundFailed tag .noLine) s
  else if s.circuits.round.isSome then { s with circuits.request := some tag }
  else openRound tag s

/-- Whether a frame is a CLAIM of this station. -/
def TxBody.isClaim : TxBody → Bool
  | .claim _ _ _ => true
  | _ => false

/-- The CLAIM of the attempt in progress, once it has its draw (R26). -/
def Round.claimFrame (r : Round) : Option TxBody :=
  match r.stage with
  | .claimSent draw => some (.claim r.circuit r.tag draw)
  | _ => none

/-- Whether a frame of a kind is in the transmit queue, begun or not. -/
def Station.queued (s : Station) (p : TxFrame → Bool) : Bool :=
  s.line.queue.any p ||
    (match s.line.service with
    | some v => p v.frame
    | none => false)

/-- Whether the attempt can still be withdrawn: it waits for its draw, or its CLAIM's begun flag is clear (R29). -/
def Station.withdrawable (s : Station) (r : Round) : Bool :=
  match r.stage with
  | .waitingDraw => true
  | .claimSent _ => s.queued fun g => r.claimFrame == some g.body && !g.begun
  | .contesting _ => false

/-- An attempt withdrawn: its draw request cancelled, its CLAIM removed (R29). -/
def withdrawAttempt (s : Station) : Station := removeUnbegun TxBody.isClaim (withdrawDraw .circuit s)

/-- The effective count has changed; an attempt above it that can be withdrawn picks again (R29). -/
def countChanged (s : Station) : Station :=
  match s.circuits.round with
  | some r =>
    if s.directory.effective < circuitNumber r.circuit && s.withdrawable r then
      continueRound { r with attempted := r.attempted.filter fun c => c != r.circuit } (withdrawAttempt s)
    else s
  | none => s

/-- The call engine abandons its round, or its held request (R26, R29). -/
def abandonRound (reason : ClearReason) (dest : Nat) (s : Station) : Station :=
  match s.circuits.request, s.circuits.round with
  | some _, _ => { s with circuits.request := none }
  | none, some r =>
    if s.withdrawable r then { withdrawAttempt s with circuits.round := none }
    else { s with circuits.round := some { r with abandoned := some ⟨reason, dest⟩ } }
  | none, none => s

/-! ### Release and yield (R23, R30) -/

/-- The own holding of a circuit is released (R30); the origin context's CALL_STATUS schedule stops with it (R91). -/
def releaseHeld (c : Circuit) (reason : ClearReason) (dest : Nat) (s : Station) : Station :=
  match s.entry c with
  | .heldOwn _ tag _ =>
    let s := dropCircuitBridge c (setEntry c .free s)
    let s := updOrigin (fun o => { o with schedule := none }) s
    announceCause false (handOver (.clear tag (some c) reason) dest s)
  | _ => s

/-- The own holding is released, where there is one (R30). -/
def releaseCircuit (reason : ClearReason) (dest : Nat) (s : Station) : Station :=
  match s.ownCircuit with
  | none => s
  | some c => releaseHeld c reason dest s

/-- The own holding is yielded to an older one: the entry is the winner's, the origin context no longer names the circuit,
and the yield is reported (R23, R91, R121). -/
def yieldCircuit (c : Circuit) (tag : Tag) (winner : CircuitEntry) (s : Station) : Station :=
  let s := dropCircuitBridge c (setEntry c winner s)
  let s := updOrigin (fun o => { o with schedule := none }) s
  announceCause false (post (.yielded tag) s)

/-- An attempt is won: the round ends, and the holding of its circuit is reported, or released at once where the round was
abandoned (R27, R29, R30). -/
def attemptWon (s : Station) : Station :=
  match s.circuits.round with
  | some r =>
    let s := announceCause false { s with circuits.round := none }
    match r.abandoned with
    | some a => takeHeldRequest (releaseHeld r.circuit a.reason a.dest s)
    | none => post (.roundWon r.tag) s
  | none => s

/-- The own claim in the contest of a circuit, where the attempt in progress stands in it (R27, R28). -/
def Station.ownClaim (s : Station) (c : Circuit) : Option Claim :=
  match s.circuits.round with
  | some r =>
    match r.stage with
    | .contesting draw => if r.circuit = c then some ⟨s.tagOrigin, r.tag, draw⟩ else none
    | _ => none
  | none => none

/-- Whether the own claim stands in the contest of a circuit. -/
def Station.contesting (s : Station) (c : Circuit) : Bool := (s.ownClaim c).isSome

/-! ### Contests (R18-R20, R28) -/

/-- A claim applied to an entry that is FREE or CONTESTED (R18, R28). -/
def joinContest (c : Circuit) (claim : Claim) (s : Station) : Station :=
  match s.entry c with
  | .free => setEntry c (.contested claim s.now) s
  | .contested best start => if claim.outranks best then setEntry c (.contested claim start) s else s
  | _ => s

/-- The attempt in progress joins the contest of its circuit with a draw, or is lost where the entry is HELD (R28). -/
def joinOwnClaim (r : Round) (draw : Nat) (s : Station) : Station :=
  if (s.entry r.circuit).holding.isSome then attemptLost s
  else
    joinContest r.circuit ⟨s.tagOrigin, r.tag, draw⟩
      { s with circuits.round := some { r with stage := .contesting draw } }

/-- A frame's transmission has completed: the CLAIM of the attempt in progress is taken into the view, no other frame is
(R28, R153). A CLAIM of a round that a reload has ended is none of the attempt's (log entry 49). -/
def ownClaimTaken (body : TxBody) (s : Station) : Station :=
  match s.circuits.round with
  | some r =>
    match r.stage with
    | .claimSent draw => if r.claimFrame = some body then joinOwnClaim r draw s else s
    | _ => s
  | none => s

/-- A frame was dropped by the line interface: the attempt in progress is lost with its own CLAIM, and with no other frame
(R27, R154). -/
def ownClaimDropped (body : TxBody) (s : Station) : Station :=
  match s.circuits.round with
  | some r => if r.claimFrame = some body then attemptLost s else s
  | none => s

/-- The entry that a contest leaves at its close: HELD by the best claimant, with the own flag where that is this station
(R20). The claimant is this station where it has the station's address as it is at the close; where a reload has made a
peer's address the station's own meanwhile, R20 does not say, and the model sets the own flag (log entry 49). -/
def Station.contestWinner (s : Station) (best : Claim) : CircuitEntry :=
  if s.isOwn best.claimant then .heldOwn best.claimant best.tag s.now
  else .heldByPeer best.claimant best.tag s.now s.now

/-- The contest of a circuit closes (R20, R27). The attempt in progress is won where its own claim is the best of its own
contest, and lost where another is; a contest in which it does not stand leaves it as it is. An own flag that no attempt
won is an acquisition all the same, a cause of ANNOUNCE by R12 (log entry 49). -/
def closeContest (c : Circuit) (s : Station) : Station :=
  match s.entry c with
  | .contested best _ =>
    let t := setEntry c (s.contestWinner best) s
    if s.ownClaim c = some best then attemptWon t
    else
      let t := if s.isOwn best.claimant then announceCause false t else t
      if s.contesting c then attemptLost t else t
  | _ => s

/-! ### Reassert (R32) -/

/-- Whether a frame is a CALL_STATUS of the origin context with a tag. -/
def TxBody.isOriginStatus (t : Tag) : TxBody → Bool
  | .callStatusOrigin u => u = t
  | _ => false

/-- Whether a CALL_STATUS of the origin context stands in the transmit queue and is not in transmission (R32; log entry
15). -/
def Station.originStatusWaits (s : Station) (t : Tag) : Bool :=
  (s.line.queue.any fun g => g.body.isOriginStatus t) ||
    (match s.line.service with
    | some v => v.frame.body.isOriginStatus t && !v.backoff.attempt
    | none => false)

/-- The holder states its holding at once (R32). -/
def reassert (s : Station) : Station :=
  match s.ownCircuit, s.call.origin with
  | some _, some o =>
    if s.originStatusWaits o.tag then s else handOver (.callStatusOrigin o.tag) o.partner s
  | _, _ => s

/-! ### Frames (R18, R21-R25) -/

/-- A CLAIM taken from the line (R18). -/
def takeClaim (source : Nat) (circuit : Nat) (tag : Tag) (draw : Nat) (s : Station) : Station :=
  if s.isPeer source && tag.origin == source then
    match circuitOf circuit with
    | some c => if (s.entry c).own then reassert s else joinContest c ⟨source, tag, draw⟩ s
    | none => s
  else s

/-- A holding adopted from a statement, ending a contest where one is open (R21, R22). -/
def adoptHolding (c : Circuit) (e : CircuitEntry) (s : Station) : Station :=
  let own := s.contesting c
  let t := setEntry c e s
  if own then attemptLost t else t

/-- A holding statement (R21-R23). -/
def takeHolding (source circuit : Nat) (tag : Tag) (age : Nat) (s : Station) : Station :=
  if s.isPeer source && tag.origin == source then
    match circuitOf circuit with
    | none => s
    | some c =>
      let stated : CircuitEntry := .heldByPeer source tag (estimatedStart s.now age) s.now
      match s.entry c with
      | .free => adoptHolding c stated s
      | .contested _ _ => adoptHolding c stated s
      | .heldByPeer holder _ start _ =>
        if holder = source then setEntry c stated s
        else if holdingOutranks (holdAge s.now start) holder age source then s
        else setEntry c stated s
      | .heldOwn holder own start =>
        if holdingOutranks (holdAge s.now start) holder age source then reassert s
        else yieldCircuit c own stated s
  else s

/-- A CLEAR taken into the view (R24). -/
def takeClearIntoView (source circuit : Nat) (tag : Tag) (s : Station) : Station :=
  if s.isPeer source then
    match circuitOf circuit with
    | none => s
    | some c => if (s.entry c).holding = some (source, tag) then setEntry c .free s else s
  else s

/-! ### The lender's record and the bridging check (R33, R34) -/

/-- Whether the check for a BORROW answers RECORDED (R33). -/
def Station.recordable (s : Station) (c : Circuit) (origin : Nat) (tag : Tag) : Bool :=
  match (s.entry c).holding with
  | none => true
  | some h => h = (origin, tag)

/-- The origin's holding recorded on acceptance of a BORROW (R33). -/
def recordLending (c : Circuit) (origin : Nat) (tag : Tag) (s : Station) : Station :=
  match s.entry c with
  | .free => adoptHolding c (.heldByPeer origin tag s.now s.now) s
  | .contested _ _ => adoptHolding c (.heldByPeer origin tag s.now s.now) s
  | .heldByPeer h t start _ => setEntry c (.heldByPeer h t start s.now) s
  | .heldOwn _ _ _ => s

/-- Whether a circuit may be bridged for the owner that asks (R34). -/
def Station.mayBridge (s : Station) (c : Circuit) : Owner → Bool
  | .origin t =>
    match s.entry c with
    | .heldOwn _ u _ => u = t
    | _ => false
  | .carrier t =>
    match s.entry c with
    | .heldByPeer h u _ _ => h == t.origin && u == t
    | _ => false
  | .panel => false

end Sys2Proof.Machine
end

