-- ==== Sys2Proof/Machine/Audio.lean ====
section
/-! DEFINITION. The audio switch (R119-R121) and the panel's selections (R115-R117). -/

namespace Sys2Proof.Machine

/-! ### Bridges (R119-R121) -/

/-- The reasons of a refusal (R120). -/
inductive BridgeRefusal where
  | notAllowed | notInCall | circuitGuard | endInUse | listFull
deriving DecidableEq, Repr

/-- Whether an end is a caller end. -/
def End.isCaller : End → Bool
  | .handset => true
  | .speaker => true
  | _ => false

/-- The pairs of ends that a bridge may join, in the order in which the requests name them (R119). -/
def pairAllowed : End → End → Bool
  | .tone, e => e.isCaller
  | e, .bearer _ => e.isCaller
  | e, .callerSide _ => e.isCaller
  | .bearer _, .farSide _ => true
  | _, _ => false

/-- A bearer end's bearer is IN_CALL (R120). -/
def Station.endInCall (s : Station) : End → Bool
  | .bearer l => (s.bearer l).state == .inCall
  | _ => true

/-- A circuit end passes the circuit unit's check (R120). -/
def Station.endGuarded (s : Station) (owner : Owner) : End → Bool
  | .callerSide c => s.mayBridge c owner
  | .farSide c => s.mayBridge c owner
  | _ => true

/-- Whether two bridges share an end. -/
def Bridge.meets (b r : Bridge) : Bool :=
  b.left == r.left || b.left == r.right || b.right == r.left || b.right == r.right

/-- Whether a request may replace a bridge that holds one of its ends: one of PANEL's, or the origin context's own TONE
bridge when it asks to join its caller end to a bearer or a circuit (R120). -/
def Bridge.replaceable (r b : Bridge) : Bool :=
  b.owner == .panel || (r.owner.isOrigin && b.owner == r.owner && b.left == .tone && r.left != .tone)

/-- A request to add a bridge (R120). -/
def addBridge (r : Bridge) (s : Station) : Except BridgeRefusal Station :=
  if !pairAllowed r.left r.right then .error .notAllowed
  else if !(s.endInCall r.left && s.endInCall r.right) then .error .notInCall
  else if !(s.endGuarded r.owner r.left && s.endGuarded r.owner r.right) then .error .circuitGuard
  else if s.audio.any fun b => b.meets r && !r.replaceable b then .error .endInUse
  else
    let kept := s.audio.filter fun b => !b.meets r
    if kept.length < 4 then .ok { s with audio := kept ++ [r] } else .error .listFull

/-- A request whose refusal the requester meets by going on without the bridge (R116, R120). -/
def tryBridge (r : Bridge) (s : Station) : Station :=
  match addBridge r s with
  | .ok t => t
  | .error _ => s

/-- Every bridge of an owner removed (R121). -/
def removeBridges (owner : Owner) (s : Station) : Station :=
  { s with audio := s.audio.filter fun b => b.owner != owner }

/-- The bridges with a bearer's end removed: the bearer leaves IN_CALL (R121). -/
def removeBearerBridges (l : Letter) (s : Station) : Station :=
  { s with audio := s.audio.filter fun b => !b.hasEnd fun e => e == .bearer l }

/-- SPEAKER replaced by HANDSET at an end (R114). -/
def End.toHandset : End → End
  | .speaker => .handset
  | e => e

/-- SPEAKER replaced by HANDSET in every bridge (R114). -/
def moveBridges (s : Station) : Station :=
  { s with audio := s.audio.map fun b => { b with left := b.left.toHandset, right := b.right.toHandset } }

/-! ### Tone, call lamp and the FAILED period (R115-R117) -/

/-- The FAILED period ends: its PANEL bridge is removed, the tone and the call lamp go off (R116). -/
def endFailed (s : Station) : Station :=
  if s.panel.failed.isSome then
    let s := removeBridges .panel s
    { s with panel := { s.panel with failed := none, tone := .none, lamp := .off } }
  else s

/-- A notice other than Failed: it ends a FAILED period and selects its tone and lamp (R115). -/
def showNotice (tone : Tone) (lamp : Lamp) (s : Station) : Station :=
  let s := endFailed s
  { s with panel := { s.panel with tone := tone, lamp := lamp } }

/-- Call in setup, or dialing again (R115). -/
def showConnecting : Station → Station := showNotice .connecting .slowFlash

/-- Ringing (R115). -/
def showRingback : Station → Station := showNotice .ringback .slowFlash

/-- Connected (R115). -/
def showConnected : Station → Station := showNotice .none .steady

/-- Recovering (R115). -/
def showRecovering : Station → Station := showNotice .recovering .slowFlash

/-- Ended (R115). -/
def showEnded : Station → Station := showNotice .none .off

/-- Failed, with the caller end: the FAILED period begins (R115, R116). -/
def showFailed (caller : End) (s : Station) : Station :=
  let s :=
    { s with
      panel := { s.panel with tone := .failed, lamp := .fastFlash, failed := some (s.within 60000) } }
  tryBridge ⟨.tone, caller, .panel⟩ s

end Sys2Proof.Machine
end

