-- ==== Sys2Proof/Machine/Arbiter.lean ====
section
/-! DEFINITION. The bearer managers and the bearer arbiter (R36-R63): records, commands, network choice, failures, claims,
orders and the handling that several indications share. -/

namespace Sys2Proof.Machine

/-! ### Records and commands (R36, R38) -/

/-- A bearer record replaced. Its bridge goes before it leaves IN_CALL (R121); a changed class or grade of a fitted bearer
is reported (R12, R38); on entry into AVAILABLE the report claims that wait are decided at once, before any other notice
(R41, R53). R12 does not say whether several causes that one event raises are one hand-over or one each: a change of one
record's class and grade is one, the model's choice (log entry 56). -/
def putBearer (l : Letter) (new : Bearer) (s : Station) : Station :=
  let old := s.bearer l
  let s := if old.state == .inCall && new.state != .inCall then removeBearerBridges l s else s
  let s := setBearer l new s
  let s :=
    if s.fitted l && (old.cls != new.cls || old.grade != new.grade) then post .bearerChanged (announceCause false s)
    else s
  if new.state == .available && old.state != .available then postFirst (.bearerAvailable l) s else s

/-- The timeout of a command in milliseconds; DIAL has none (R36). -/
def commandTimeoutMs : Command → Option Nat
  | .powerUp => some 20000
  | .scan => some 45000
  | .camp _ => some 15000
  | .dial => none
  | .hangup => some 5000
  | .sendReport => some 30000
  | .status => some 3000
  | .powerDown => none

/-- A command in flight from now (R36). -/
def Station.flight (s : Station) (c : Command) : Option InFlight := some ⟨c, (commandTimeoutMs c).map s.within⟩

/-- A command sent, with the record that goes with it (R36). -/
def sendCommand (l : Letter) (c : Command) (r : Bearer) (s : Station) : Station :=
  putBearer l { r with inFlight := s.flight c } (emit (.port l (commandMessage c)) s)

/-- A record without a camped network: the re-check timer stops and the owed count is 0 (R43, R47, R49). -/
def Bearer.uncamped (r : Bearer) : Bearer := { r with camped := none, recheck := none, owed := 0 }

/-- A bearer's record when it holds no work (R38). -/
def Bearer.unallocated (r : Bearer) : Bearer := { r with alloc := none }

/-- A notice of the arbiter to the claimant that holds a bearer (R50). -/
def notify (l : Letter) (n : Notice) (s : Station) : Station :=
  match (s.bearer l).alloc with
  | some a => post (.notice a.who l n) s
  | none => s

/-! ### Entering the states -/

/-- SCAN sent, SEARCHING entered (R36, R39-R41, R61, R62). -/
def goSearching (l : Letter) (s : Station) : Station :=
  sendCommand l .scan { (s.bearer l).uncamped.unallocated with state := .searching, rescan := none } s

/-- Whether a network is in the barred list. -/
def Bearer.bars (r : Bearer) (network : Nat) : Bool := r.barred.any fun b => b.1 == network

/-- The first eligible network (R41). -/
def Bearer.eligible (r : Bearer) : Option Nat := (r.networks.find? fun n => !r.bars n.1).map (·.1)

/-- Network choice (R41). -/
def chooseNetwork (l : Letter) (s : Station) : Station :=
  let r := (s.bearer l).uncamped.unallocated
  match r.eligible with
  | some n => sendCommand l (.camp n) { r with state := .camping } s
  | none => putBearer l { r with state := .noService, inFlight := none, rescan := some (s.within 10000) } s

/-- AVAILABLE entered (R41, R48, R55, R61). -/
def goAvailable (l : Letter) (s : Station) : Station :=
  putBearer l { (s.bearer l).unallocated with state := .available, inFlight := none } s

/-- STATUS sent, CHECKING entered, the owed count 0 (R47, R49, R55, R61). -/
def goChecking (l : Letter) (s : Station) : Station :=
  sendCommand l .status { (s.bearer l).unallocated with state := .checking, owed := 0 } s

/-- SETTLING entered with its guard of 3 s; the claimant is given RELEASED (R50, R61). -/
def goSettling (l : Letter) (s : Station) : Station :=
  let s := notify l .released s
  putBearer l
    { (s.bearer l).unallocated with
      state := .settling, inFlight := none, dialLimit := none, settle := some (s.within 3000) } s

/-- HANGUP sent, ENDING entered (R36, R56, R58-R60). -/
def hangUp (l : Letter) (s : Station) : Station :=
  sendCommand l .hangup { s.bearer l with state := .ending, dialLimit := none } s

/-- DIAL sent with a fresh limit of 60 s, DIALING entered (R55, R57). -/
def sendDial (l : Letter) (s : Station) : Station :=
  sendCommand l .dial { s.bearer l with state := .dialing, dialLimit := some (s.within 60000) } s

/-- The module's power restored, POWER_UP sent, STARTING entered (R36, R39, R45). -/
def startBearer (l : Letter) (s : Station) : Station :=
  sendCommand l .powerUp { s.bearer l with state := .starting, powered := true, failureWait := none }
    (emit (.power l true) s)

/-- POWER_DOWN sent and the module's power removed (R36, R45, R63). -/
def powerDown (l : Letter) (s : Station) : Station :=
  emit (.power l false) (emit (.port l (commandMessage .powerDown)) s)

/-- The other bearer. -/
def otherBearer : Letter → Letter
  | .a => .b
  | .b => .a

/-- The outcome given to the claimant of a bearer that fails (R45). -/
def Bearer.failureOutcome (r : Bearer) : Option Notice :=
  match r.state with
  | .reserved => some .dialFailed
  | .dialing => some .dialFailed
  | .ringing => some .dialFailed
  | .inCall => some .bearerLost
  | .sending => some .reportFailed
  | .ending =>
    match r.alloc with
    | some a => if a.preempt then some .dialFailed else none
    | none => none
  | _ => none

/-- Entry into FAILED, and on into FAILED_HELD after three power cycles (R45, R46). -/
def enterFailed (l : Letter) (s : Station) : Station :=
  let s :=
    match (s.bearer l).failureOutcome with
    | some n => notify l n s
    | none => s
  let s := powerDown l (notify l .released s)
  let old := s.bearer l
  let r : Bearer :=
    { old.uncamped.unallocated with
      powered := false, inFlight := none, dialLimit := none, rescan := none, settle := none
      failures := min 255 (old.failures + 1) }
  if r.powerCycles = 3 then
    let s := putBearer l { r with state := .failedHeld, failureWait := none } s
    if (s.bearer (otherBearer l)).state = .failedHeld then s else raise .bearerFailed s
  else putBearer l { r with state := .failed, failureWait := some (s.within 60000) } s

/-! ### The barred list (R42) -/

/-- Of two barred entries, the one to be replaced: the earlier expiry, then the lower network id (R42). -/
def barGoesFirst (a b : Nat × Stamp) : Bool :=
  Stamp.before a.2 b.2 || (a.2 == b.2 && a.1 < b.1)

/-- The entry of a full barred list that is replaced. -/
def barToReplace : List (Nat × Stamp) → Option (Nat × Stamp)
  | [] => none
  | b :: bs =>
    match barToReplace bs with
    | none => some b
    | some c => if barGoesFirst b c then some b else some c

/-- A network barred for 10 minutes (R42). A new bar joins at the end of the list, or stands where the one it replaces stood:
the rule gives no order, and the model chooses one (log entry 46). -/
def barNetwork (network : Nat) (now : Stamp) (barred : List (Nat × Stamp)) : List (Nat × Stamp) :=
  let bar := (network, Stamp.later now 600000)
  if barred.any fun b => b.1 == network then barred.map fun b => if b.1 == network then bar else b
  else if barred.length < 4 then barred ++ [bar]
  else
    match barToReplace barred with
    | some old => barred.map fun b => if b == old then bar else b
    | none => [bar]

/-! ### Re-checks (R47, R49) -/

/-- The interval of the re-check timer for a grade, in milliseconds (R47). -/
def recheckMs (grade : Nat) : Nat := if grade = 3 then 120000 else if grade = 2 then 60000 else 30000

/-- The owed count one higher, saturating at 4 (R49). -/
def Bearer.owing (r : Bearer) : Bearer := { r with owed := min 4 (r.owed + 1) }

/-! ### Voice claims (R51, R52) -/

/-- Of the fitted bearers that pass a test, the one with the highest grade, between equal grades A (R51-R53). -/
def Station.bestBearer (s : Station) (p : Bearer → Bool) : Option Letter :=
  match s.fittedBearers.filter fun l => p (s.bearer l) with
  | [] => none
  | [l] => some l
  | l :: m :: _ => if (s.bearer l).grade < (s.bearer m).grade then some m else some l

/-- A new voice allocation (R51, R52). -/
def voiceAllocation (who : Claimant) (preempt : Bool) : Allocation :=
  { who := who, redialUsed := false, preempt := preempt, keptDial := false }

/-- A bearer in AVAILABLE or CHECKING taken by a voice claim (R51). -/
def reserve (l : Letter) (who : Claimant) (s : Station) : Station :=
  let r := s.bearer l
  let r := if r.state = .checking then r.owing else r
  putBearer l { r with state := .reserved, inFlight := none, alloc := some (voiceAllocation who false) } s

/-- A bearer in SENDING taken from its report (R52). -/
def preempt (l : Letter) (who : Claimant) (s : Station) : Station :=
  let s := notify l .preempted s
  sendCommand l .hangup { s.bearer l with state := .ending, alloc := some (voiceAllocation who true) } s

/-- A voice claim, decided when it arrives: the bearer granted, or none for REFUSED(NO_BEARER) (R51, R52). -/
def claimVoice (who : Claimant) (minimum : Nat) (s : Station) : Option Letter × Station :=
  match s.bestBearer fun r => (r.state == .available || r.state == .checking) && minimum ≤ r.grade with
  | some l => (some l, reserve l who s)
  | none =>
    match s.bestBearer fun r => r.state == .sending && minimum ≤ r.grade with
    | some l => (some l, preempt l who s)
    | none => (none, s)

/-- The claimant's order to dial; kept while the preempt mark is set (R52, R55). -/
def orderDial (l : Letter) (s : Station) : Station :=
  let r := s.bearer l
  match r.state, r.alloc with
  | .reserved, _ => sendDial l s
  | .ending, some a => if a.preempt then setBearer l { r with alloc := some { a with keptDial := true } } s else s
  | _, _ => s

/-- A bearer leaves RESERVED on a release: to CHECKING where a re-check is owed, else to AVAILABLE (R55). -/
def leaveReserved (l : Letter) (s : Station) : Station :=
  let s := notify l .released s
  if 0 < (s.bearer l).owed then goChecking l s else goAvailable l s

/-- Whether the command in flight is the CAMP of a re-camp (R57). -/
def Bearer.recamping (r : Bearer) : Bool :=
  match r.inFlight with
  | some f =>
    match f.command with
    | .camp _ => r.state == .dialing
    | _ => false
  | none => false

/-- Whether DIAL is in flight in DIALING or RINGING (R37, R56). -/
def Bearer.dialInFlight (r : Bearer) : Bool :=
  (r.state == .dialing || r.state == .ringing) &&
    (match r.inFlight with
    | some f => f.command == .dial
    | none => false)

/-- A release by the claimant (R55-R60). -/
def releaseBearer (l : Letter) (s : Station) : Station :=
  let r := s.bearer l
  match r.state with
  | .reserved => leaveReserved l s
  | .dialing => if r.recamping then hangUp l (putBearer l r.uncamped s) else hangUp l s
  | .ringing => hangUp l s
  | .inCall => hangUp l s
  | .sending => hangUp l s
  | .ending =>
    setBearer l { r with alloc := r.alloc.map fun a => { a with preempt := false, keptDial := false } } s
  | _ => s

/-- A release by a claimant of the bearer it holds. -/
def releaseFor (who : Claimant) (l : Letter) (s : Station) : Station :=
  match (s.bearer l).alloc with
  | some a => if a.who = who then releaseBearer l s else s
  | none => s

/-! ### Report claims (R53, R55) -/

/-- A bearer in AVAILABLE granted to a report claim: SEND_REPORT at once, or REPORT_FAILED where no destination is
configured (R53, R55). -/
def grantReport (l : Letter) (who : Claimant) (record : Record) (s : Station) : Station :=
  let r := { s.bearer l with state := .reserved, inFlight := none, alloc := some (voiceAllocation who false) }
  if s.config.destination.isEmpty then
    leaveReserved l (notify l .reportFailed (putBearer l r s))
  else
    putBearer l { r with state := .sending, inFlight := s.flight .sendReport }
      (emit (.port l (sendReportMessage record s.config.destination)) s)

/-- A report claim arrives (R53). -/
def claimReport (who : Claimant) (record : Record) (s : Station) : Station :=
  match s.bestBearer fun r => r.state == .available with
  | some l => grantReport l who record s
  | none => { s with bearers.waiting := s.bearers.waiting ++ [⟨who, record⟩] }

/-- Whether a report claim waits (R53). -/
def Station.claimWaits (s : Station) (who : Claimant) : Bool := s.bearers.waiting.any fun w => w.who == who

/-- A waiting claim withdrawn (R53). -/
def withdrawClaim (who : Claimant) (s : Station) : Station :=
  { s with bearers.waiting := s.bearers.waiting.filter fun w => w.who != who }

/-- A bearer has entered AVAILABLE: the claim that has waited longest takes it (R53). -/
def decideWaiting (l : Letter) (s : Station) : Station :=
  if s.fitted l && (s.bearer l).state == .available then
    match s.bearers.waiting with
    | w :: rest => grantReport l w.who w.record { s with bearers.waiting := rest }
    | [] => s
  else s

/-- The bearer that an allocation of a claimant is on. -/
def Station.bearerOf (s : Station) (who : Claimant) : Option Letter :=
  [Letter.a, Letter.b].find? fun l =>
    match (s.bearer l).alloc with
    | some a => a.who == who
    | none => false

/-! ### What several indications share -/

/-- An expected answer clears the consecutive timeout count (R44). -/
def clearTimeouts (l : Letter) (s : Station) : Station := setBearer l { s.bearer l with timeouts := 0 } s

/-- The HANGUP is answered: RESERVED for the voice claimant under the preempt mark, with a kept DIAL carried out; else
SETTLING (R52, R60). -/
def hangUpAnswered (l : Letter) (s : Station) : Station :=
  let r := s.bearer l
  match r.alloc with
  | some a =>
    if a.preempt then
      let s :=
        putBearer l
          { r with state := .reserved, inFlight := none, alloc := some { a with preempt := false, keptDial := false } } s
      if a.keptDial then sendDial l s else s
    else goSettling l s
  | none => goSettling l s

/-- A re-camp failed: DIAL_FAILED and RELEASED, no camped network, SETTLING (R57). -/
def recampFailed (l : Letter) (s : Station) : Station :=
  let s := notify l .dialFailed s
  goSettling l (setBearer l { s.bearer l with camped := none, recheck := none, owed := 0 } s)

/-- LOST in ENDING: the voice claimant is given DIAL_FAILED and the preempt mark is cleared (R62). -/
def lostInEnding (l : Letter) (s : Station) : Station :=
  let r := s.bearer l
  match r.alloc with
  | some a =>
    let s := if a.preempt then notify l .dialFailed s else s
    putBearer l { r.uncamped with alloc := some { a with preempt := false, keptDial := false } } s
  | none => putBearer l r.uncamped s

/-- The module has lost its network (R62). -/
def networkLost (l : Letter) (s : Station) : Station :=
  let r := s.bearer l
  match r.state with
  | .camping => goSearching l s
  | .available => goSearching l s
  | .checking => goSearching l s
  | .reserved => goSearching l (notify l .released (notify l .dialFailed s))
  | .dialing =>
    if r.recamping then recampFailed l s else hangUp l (putBearer l r.uncamped (notify l .dialFailed s))
  | .ringing => hangUp l (putBearer l r.uncamped (notify l .dialFailed s))
  | .inCall => hangUp l (putBearer l r.uncamped (notify l .bearerLost s))
  | .sending => hangUp l (putBearer l r.uncamped (notify l .reportFailed s))
  | .ending => lostInEnding l s
  | .settling => putBearer l r.uncamped s
  | _ => s

/-- ENDED(REJECTED) with the DIAL in flight: the network is barred; a re-camp where the flag is clear and a network is
eligible, else DIAL_FAILED and SETTLING (R57). -/
def dialRejected (l : Letter) (s : Station) : Station :=
  let r := s.bearer l
  let barred :=
    match r.camped with
    | some n => barNetwork n.1 s.now r.barred
    | none => r.barred
  let r := { r with barred := barred, dialLimit := none, inFlight := none }
  match r.alloc, r.eligible with
  | some a, some n =>
    if a.redialUsed then goSettling l (notify l .dialFailed (setBearer l r s))
    else
      sendCommand l (.camp n) { r with state := .dialing, alloc := some { a with redialUsed := true } }
        (notify l .redialing s)
  | _, _ => goSettling l (notify l .dialFailed (setBearer l r s))

/-- The list built from a SCAN_RESULT: emergency-capable networks of defined id, each once at its highest level, highest
level first and then lowest id (R40). -/
def networkList (items : List ScanItem) : List (Nat × Nat) :=
  let usable :=
    (items.filter fun i => i.flags.getLsbD 0 && 1 ≤ i.network.toNat && i.network.toNat ≤ 999999).map fun i =>
      (i.network.toNat, i.level.toNat)
  let once :=
    usable.foldl
      (fun (kept : List (Nat × Nat)) n =>
        if kept.any fun k => k.1 == n.1 then
          kept.map fun k => if k.1 == n.1 && k.2 < n.2 then n else k
        else kept ++ [n])
      []
  (sortBy (fun (a b : Nat × Nat) => b.2 < a.2 || (a.2 == b.2 && a.1 < b.1)) once).take 6

/-! ### Resets and configuration (R63) -/

/-- POWER_DOWN to a powered module, and its power removed (R63). -/
def powerDownIfPowered (l : Letter) (s : Station) : Station :=
  if (s.bearer l).powered then powerDown l s else s

/-- Both bearers powered down and cleared, waiting claims discarded (R63). -/
def clearBearers (s : Station) : Station :=
  { powerDownIfPowered .b (powerDownIfPowered .a s) with bearers := clearedBearers }

/-- The fitted bearers in OFF enter STARTING (R39). -/
def startFitted (s : Station) : Station :=
  s.fittedBearers.foldl (fun t l => if (t.bearer l).state = .off then startBearer l t else t) s

/-- A bearer that stops being fitted goes OFF (R46, R63). -/
def unfit (l : Letter) (s : Station) : Station :=
  if s.fitted l then s else setBearer l clearedBearer (powerDownIfPowered l s)

end Sys2Proof.Machine
end

