-- ==== Sys2Proof/Machine/Origin.lean ====
section
/-! DEFINITION. The origin context of the call engine: choosing the route, the borrowed route, rounds, recovery and
endings (R64-R81, R90-R94, R99-R109). -/

namespace Sys2Proof.Machine

/-! ### Phases and steps -/

/-- The recovery step in whose manner a phase is run (R100). -/
def Phase.asStep : Phase → RecoveryStep
  | .selecting => .selecting
  | .dialingLocal => .dialingLocal
  | .claiming => .claiming
  | .asking => .asking
  | .waking => .waking
  | .awaitingConnect => .awaitingConnect
  | _ => .none

/-- A phase entered with its deadline; within RECOVERING, the step of its name with the step deadline (R66, R100). -/
def Origin.enter (phase : Phase) (deadline : Timer) (o : Origin) : Origin :=
  if o.phase = .recovering then { o with step := phase.asStep, stepDeadline := deadline }
  else { o with phase := phase, phaseDeadline := deadline }

/-- A phase or step entered; a phase before connect reports tone CONNECTING (R66; log entry 17). -/
def enterPhase (phase : Phase) (deadline : Timer) (s : Station) : Station :=
  match s.call.origin with
  | some o =>
    let s := updOrigin (Origin.enter phase deadline) s
    if o.phase = .recovering then s else showConnecting s
  | none => s

/-- A CLEAR from the origin as a partner message: circuit 0, so that no view frees the circuit (R74, R76, R94). -/
def clearPartner (tag : Tag) (reason : ClearReason) (dest : Nat) (s : Station) : Station :=
  handOver (.clear tag none reason) dest s

/-- An address joins the tried list, unless it is there (R65). -/
def Origin.tryAddress (a : Nat) (o : Origin) : Origin :=
  if o.tried.contains a then o else { o with tried := o.tried ++ [a] }

/-! ### Ending a context (R81, R91, R107, R121) -/

/-- The origin context ends when it is in ENDING and names no own bearer: its CALL_STATUS frames not begun are removed,
and the panel may act on an off-hook held for it (R81, R91, R107, R112). -/
def tryEnd (s : Station) : Station :=
  match s.call.origin with
  | some o =>
    if o.phase = .ending ∧ o.carrier.ownBearer = none ∧ o.releasing = none then
      post .originEnded
        (removeUnbegun (TxBody.isOriginStatus o.tag) { s with call.origin := none })
    else s
  | none => s

/-- The context enters ENDING: its timers and schedule stop, its bridges are removed, a lender is no longer its carrier
(R79, R80, R103, R105-R107, R121). After connect its CALL_STATUS frames not begun are removed at once (R107). -/
def enterEnding (s : Station) : Station :=
  match s.call.origin with
  | some o =>
    let s :=
      updOrigin
        (fun o =>
          { o with
            phase := .ending, phaseDeadline := none, step := .none, stepDeadline := none, setupDeadline := none
            schedule := none
            carrier := match o.carrier with
              | .own l => .own l
              | _ => .absent })
        s
    let s := removeBridges (.origin o.tag) s
    if o.connected then removeUnbegun (TxBody.isOriginStatus o.tag) s else s
  | none => s

/-- The own bearer named by the carrier field is released (R79, R80, R103, R105). -/
def releaseOwnBearer (s : Station) : Station :=
  match s.call.origin with
  | some o =>
    match o.carrier.ownBearer with
    | some l => releaseFor (.origin o.tag) l s
    | none => s
  | none => s

/-- A claim round of the context is abandoned where one is in progress (R29). -/
def abandonOwnRound (reason : ClearReason) (activity : Phase) (s : Station) : Station :=
  if activity = .claiming then abandonRound reason 63 s else s

/-! ### A report for the report unit -/

/-- A report as it is handed to the report unit (R130, R132): a call report carries the stamp of its hand-over. -/
def callReport (kind : ReportKind) (now : Stamp) : CabinetEvent :=
  { kind := kind, first := now, last := now, repeats := 1, peakSq := 0, axis := none }

/-- A 410's report number one higher, wrapping from 4,095 to 0 (R132). -/
def nextNumber (n : Nat) : Nat := (n + 1) % 4096

/-- The integer square root by bisection bits, highest first: enough for a level of 0-255 (R132). -/
def isqrtFrom : Nat → Nat → Nat → Nat
  | 0, r, _ => r
  | b + 1, r, n => isqrtFrom b (if (r + 2 ^ b) * (r + 2 ^ b) ≤ n then r + 2 ^ b else r) n

/-- The peak level: the peak in mg divided by 50, rounded down, saturating at 255 (R132), from its exact square. -/
def peakLevel (peakSq : Rat) : Nat := min 255 (isqrtFrom 16 0 (peakSq / 2500).floor.toNat)

/-- The record of a new report (R132). -/
def Station.newRecord (s : Station) (e : CabinetEvent) : Record :=
  { tag := ⟨s.tagOrigin, nextNumber s.keep.lastReport⟩, kind := e.kind, first := e.first, last := e.last
    repeats := e.repeats, peak := if e.kind = .impact then peakLevel e.peakSq else 0
    axis := if e.kind = .impact then e.axis else none, label := s.config.label }

/-- An entry that is not IN_FLIGHT counts as waiting (R133). -/
def ReportEntry.waits (e : ReportEntry) : Bool := e.state != .inFlight

/-- A handed report merged into a waiting entry of its kind (R133). -/
def ReportEntry.merge (h : CabinetEvent) (e : ReportEntry) : ReportEntry :=
  let e := { e with record.repeats := min 255 (e.record.repeats + h.repeats), record.last := h.last }
  if h.kind = .impact ∧ e.peakSq < h.peakSq then
    { e with peakSq := h.peakSq, record.peak := peakLevel h.peakSq, record.axis := h.axis }
  else e

/-- The first entry of a list for which a test holds, changed. -/
def mapFirst {α : Type} (p : α → Bool) (f : α → α) : List α → List α
  | [] => []
  | x :: xs => if p x then f x :: xs else x :: mapFirst p f xs

/-- A new entry of the report queue (R132, R133). -/
def newEntry (record : Record) (peakSq : Rat) : ReportEntry :=
  { record := record, peakSq := peakSq, state := .waiting, route := .absent, attempts := 0, declined := []
    timer := none }

/-- A report handed to the report unit: merged, queued, or dropped; delivery is decided again (R132-R134). Where eight are
held, R133 does not say by what the oldest waiting entry is found when preemption has moved one to the head; that it is the
first in queue order is the model's choice (log entry 59). -/
def handReport (h : CabinetEvent) (s : Station) : Station :=
  let waiting := fun (e : ReportEntry) => e.waits && e.record.kind == h.kind
  if s.reports.queue.any waiting then
    post .decideReports { s with reports.queue := mapFirst waiting (ReportEntry.merge h) s.reports.queue }
  else if s.reports.queue.length < 8 then
    let r := s.newRecord h
    post .decideReports
      { s with keep.lastReport := r.tag.number, reports.queue := s.reports.queue ++ [newEntry r h.peakSq] }
  else
    let s := countDropped (raise .reportDropped s)
    if s.reports.queue.any fun e => e.waits then
      let r := s.newRecord h
      post .decideReports
        { s with
          keep.lastReport := r.tag.number
          reports.queue := (s.reports.queue.eraseP fun e => e.waits) ++ [newEntry r h.peakSq] }
    else s

/-! ### Recovery and dropping (R99, R102, R103) -/

/-- The call is dropped (R103). The owed CLEAR is its reason and the lost carrier. -/
def dropCall (owed : Option (ClearReason × Nat)) (s : Station) : Station :=
  match s.call.origin with
  | none => s
  | some o =>
    let s := enterEnding s
    let s :=
      match owed, s.ownCircuit with
      | some w, some _ => releaseCircuit w.1 w.2 s
      | none, some _ => releaseCircuit .noAnswer 63 s
      | some w, none => clearPartner o.tag w.1 w.2 s
      | none, none => s
    let s := releaseOwnBearer s
    let s := handReport (callReport .callDropped s.now) s
    tryEnd (showFailed o.mode.callerEnd s)

/-- The steps 1, 5 and 6 of a recovery's beginning (R99, R102): the count, the limit of 60 s, and the step SELECTING, at
once or when a releasing bearer gives RELEASED. -/
def beginRecovery (s : Station) : Station :=
  match s.call.origin with
  | none => s
  | some o =>
    let s :=
      updOrigin
        (fun o =>
          { o with
            recoveries := o.recoveries + 1, phase := .recovering, phaseDeadline := some (s.within 60000)
            step := if o.releasing.isSome then .none else .selecting, stepDeadline := none })
        s
    if o.releasing.isSome then s else post (.select o.tag) s

/-- The carrier of a connected context is lost (R99). The owed reason goes to a lost lender; `released` says that a lost
own bearer has already given RELEASED. -/
def carrierLost (owed : Option ClearReason) (released : Bool) (s : Station) : Station :=
  match s.call.origin with
  | none => s
  | some o =>
    let owedTo :=
      match owed, o.carrier.lender with
      | some r, some l => some (r, l)
      | _, _ => none
    if 2 ≤ o.recoveries then
      dropCall owedTo
        (if released then updOrigin (fun o => { o with carrier := .absent }) s else s)
    else
      let s :=
        match owedTo with
        | some w => clearPartner o.tag w.1 w.2 s
        | none => s
      let s :=
        updOrigin
          (fun o =>
            { o with
              tried := o.carrier.lender.toList
              localTried := o.carrier.ownBearer.isSome
              releasing := if released then none else o.carrier.ownBearer
              carrier := .absent })
          s
      let s := tryBridge ⟨.tone, o.mode.callerEnd, .origin o.tag⟩ (removeBridges (.origin o.tag) s)
      beginRecovery (showRecovering s)

/-- The step of a recovery closed (R102). -/
def closeStep (s : Station) : Station :=
  match s.call.origin with
  | none => s
  | some o =>
    let s := abandonOwnRound .noAnswer o.activity s
    let s :=
      match o.carrier with
      | .absent => s
      | .own l => updOrigin (fun o => { o with releasing := some l, carrier := .absent }) (releaseFor (.origin o.tag) l s)
      | .asked l => updOrigin (fun o => { o with carrier := .absent }) (clearPartner o.tag .noAnswer l s)
      | .lent l _ => updOrigin (fun o => { o with carrier := .absent }) (clearPartner o.tag .noAnswer l s)
    updOrigin (fun o => { o with step := .none, stepDeadline := none }) s

/-- A recovery fails (R102). -/
def recoveryFails (s : Station) : Station :=
  match s.call.origin with
  | none => s
  | some o =>
    let s := closeStep s
    if o.recoveries < 2 then
      beginRecovery (updOrigin (fun o => { o with tried := [], localTried := false }) s)
    else dropCall none s

/-! ### Rounds (R67-R77) -/

/-- A round ends: PAUSED for 5 s, or the failure of a recovery (R77, R100). -/
def endOfRound (s : Station) : Station :=
  match s.call.origin with
  | none => s
  | some o =>
    if o.phase = .recovering then recoveryFails s
    else
      let s := releaseCircuit .noAnswer 63 s
      let s := updOrigin (fun o => { o with carrier := .absent, schedule := none }) s
      enterPhase .paused (some (s.within 5000)) s

/-- The local route (R68). -/
def localRoute (minimum : Nat) (s : Station) : Station :=
  match s.call.origin with
  | none => s
  | some o =>
    let s := updOrigin (fun o => { o with localTried := true }) s
    match claimVoice (.origin o.tag) minimum s with
    | (some l, s) =>
      let s := updOrigin (fun o => { o with carrier := .own l }) s
      orderDial l (enterPhase .dialingLocal none s)
    | (none, s) => if s.power.opState = .active then post (.borrow o.tag) s else endOfRound s

/-- Whether a fitted bearer is AVAILABLE or SENDING with grade 1 or more (R72; CHECKING is read as AVAILABLE, log entry
33). -/
def Station.localFallback (s : Station) : Bool :=
  s.fittedBearers.any fun l =>
    ((s.bearer l).cls == .available || (s.bearer l).state == .sending) && 1 ≤ (s.bearer l).grade

/-- The borrowed part of a round is over: the fallback to the own bearer, or the end of the round (R72, R100). -/
def borrowingOver (s : Station) : Station :=
  match s.call.origin with
  | none => s
  | some o =>
    if !o.localTried && s.localFallback then
      localRoute 1 (if o.phase = .recovering then s else releaseCircuit .noAnswer 63 s)
    else endOfRound s

/-- A claim round is asked for, and CLAIMING entered (R70, R78, R104). -/
def askCircuit (s : Station) : Station :=
  match s.call.origin with
  | none => s
  | some o => requestCircuit o.tag (enterPhase .claiming none s)

/-- BORROW to a lender (R73). -/
def askLender (lender : Nat) (s : Station) : Station :=
  match s.call.origin, s.ownCircuit with
  | some o, some c =>
    let s := updOrigin (fun o => { o with carrier := .asked lender }) s
    enterPhase .asking (some (s.within s.answerMs)) (handOver (.borrowVoice o.tag c) lender s)
  | _, _ => s

/-- WAKE to a standby station (R75). -/
def wakeStation (address : Nat) (s : Station) : Station :=
  let s := handOver .wake address s
  let s := updOrigin (fun o => { o with carrier := .absent, woken := address }) s
  enterPhase .waking (some (s.within (s.config.wakeAllowance * 1000))) s

/-- The choice of lender (R72). -/
def chooseLender (s : Station) : Station :=
  match s.call.origin with
  | none => s
  | some o =>
    if 4 ≤ o.tried.length then borrowingOver s
    else
      match s.ranking o.tried, s.wakeList o.tried with
      | l :: _, _ => askLender l s
      | [], w :: _ => wakeStation w s
      | [], [] => borrowingOver s

/-- The borrowed route (R70). -/
def borrowRoute (s : Station) : Station :=
  match s.call.origin with
  | none => s
  | some o =>
    if 4 ≤ o.tried.length || ((s.ranking o.tried).isEmpty && (s.wakeList o.tried).isEmpty) then borrowingOver s
    else if s.ownCircuit.isSome then chooseLender s
    else askCircuit s

/-- The own grade of R67: the highest grade among the fitted bearers of class AVAILABLE. -/
def Station.ownGrade (s : Station) : Nat :=
  (s.fittedBearers.filter fun l => (s.bearer l).cls == .available).foldl (fun g l => max g (s.bearer l).grade) 0

/-- The lender grade of R67: the offered grade of the first candidate. -/
def Station.lenderGrade (s : Station) (tried : List Nat) : Nat :=
  match s.rankedEntries tried with
  | e :: _ => offeredGrade s.config.lendMinimum e
  | [] => 0

/-- Whether a fitted bearer is in SENDING with grade 1 or more (R67). -/
def Station.sendingBearer (s : Station) : Bool :=
  s.fittedBearers.any fun l => (s.bearer l).state == .sending && 1 ≤ (s.bearer l).grade

/-- SELECTING: the route is chosen (R67). -/
def selectRoute (s : Station) : Station :=
  match s.call.origin with
  | none => s
  | some o =>
    let own := s.ownGrade
    let active := s.power.opState == .active
    let lender := if !active || o.localTried then 0 else s.lenderGrade o.tried
    if !o.localTried && s.config.localPreference ≤ own then localRoute s.config.localPreference s
    else if !o.localTried && 0 < lender && own < lender && active then borrowRoute s
    else if !o.localTried && (1 ≤ own || s.sendingBearer) then localRoute 1 s
    else if active then borrowRoute s
    else endOfRound s

/-- The context's own bearer failed before it answered: the borrowed route, or the end of the round in ISOLATED (R69). Where a
recovery's round ends so, R69 has made the carrier absent and R102 would hold the own bearer until RELEASED; that the bearer
is not held and the next recovery selects at once is the model's choice (log entry 58). -/
def localFailed (s : Station) : Station :=
  let s := updOrigin (fun o => { o with carrier := .absent }) s
  if s.power.opState = .active then borrowRoute s else endOfRound s

/-- A lender is passed over: it joins the tried list, the lender is chosen again (R73, R76). -/
def passOver (lender : Nat) (s : Station) : Station :=
  chooseLender (updOrigin (fun o => { (o.tryAddress lender) with carrier := .absent }) s)

/-! ### Creation (R64, R122) -/

/-- A call request is taken: the origin context is created (R64, R116, R122). -/
def createOrigin (mode : Mode) (s : Station) : Station :=
  if s.inService && s.call.origin.isNone then
    let number := nextNumber s.keep.lastCall
    let tag : Tag := ⟨s.tagOrigin, number⟩
    let s := endFailed { s with keep.lastCall := number }
    let s := tallyUp (fun t => { t with placed := t.placed + 1 }) s
    let s :=
      { s with
        call.origin :=
          some
            { tag := tag, mode := mode, phase := .selecting, carrier := .absent, tried := [], localTried := false
              recoveries := 0, step := .none, stepDeadline := none, releasing := none
              setupDeadline := some (s.within (s.config.setupLimit * 1000)), phaseDeadline := none
              lastPartner := none, connected := false, woken := 0, schedule := none } }
    let s := tryBridge ⟨.tone, mode.callerEnd, .origin tag⟩ s
    post (.select tag) (showConnecting s)
  else s

/-! ### Connecting (R69, R76, R90, R101) -/

/-- CONNECTED is entered: the timers stop, and the call is counted when it first connects (R69, R76, R90, R101). -/
def enterConnected (s : Station) : Station :=
  match s.call.origin with
  | none => s
  | some o =>
    let s := if o.connected then s else tallyUp (fun t => { t with connected := t.connected + 1 }) s
    updOrigin
      (fun o =>
        { o with
          phase := .connected, phaseDeadline := none, step := .none, stepDeadline := none, setupDeadline := none
          connected := true })
      s

/-- ANSWERED from the own bearer (R69, R90, R101, R120). -/
def connectLocal (l : Letter) (s : Station) : Station :=
  match s.call.origin with
  | none => s
  | some o =>
    let s := if o.phase = .recovering then releaseCircuit .noAnswer 63 s else s
    let s := enterConnected s
    match addBridge ⟨o.mode.callerEnd, .bearer l, .origin o.tag⟩ s with
    | .ok t => showConnected t
    | .error _ => carrierLost none false (releaseFor (.origin o.tag) l s)

/-- CONNECTED from the carrier (R76, R90, R101, R104). -/
def connectBorrowed (s : Station) : Station :=
  match s.call.origin with
  | none => s
  | some o =>
    let s := enterConnected { s with call.origin := some { o with lastPartner := some s.now } }
    let lost := carrierLost (some .circuitConflict) false (updOrigin (fun o => { o with schedule := none }) s)
    match s.ownCircuit with
    | none => lost
    | some c =>
      match addBridge ⟨o.mode.callerEnd, .callerSide c, .origin o.tag⟩ s with
      | .ok t => showConnected t
      | .error _ => lost

/-! ### Yields (R78, R104) -/

/-- The held circuit of the context was yielded (R78, R104). -/
def circuitYielded (s : Station) : Station :=
  match s.call.origin with
  | none => s
  | some o =>
    match o.activity, o.carrier.lender with
    | .asking, some l =>
      askCircuit
        (updOrigin (fun o => { o with carrier := .absent }) (clearPartner o.tag .circuitConflict l s))
    | .awaitingConnect, some l =>
      askCircuit
        (updOrigin (fun o => { o with carrier := .absent }) (clearPartner o.tag .circuitConflict l s))
    | .waking, _ => askCircuit s
    | .connected, some _ => carrierLost (some .circuitConflict) false s
    | _, _ => s

/-! ### Endings (R79, R80, R105, R106) -/

/-- The destination of the release at an ending: the asked lender or carrier, and 63 otherwise (R79, R80, R105). -/
def Origin.releaseDest (o : Origin) : Nat :=
  match o.activity with
  | .asking => o.partner
  | .awaitingConnect => o.partner
  | .connected => o.partner
  | _ => 63

/-- The call is unplaced at its setup deadline (R79). -/
def unplaced (s : Station) : Station :=
  match s.call.origin with
  | none => s
  | some o =>
    let s := tallyUp (fun t => { t with unplaced := t.unplaced + 1 }) s
    let s := abandonOwnRound .setupExpired o.activity s
    let s := releaseCircuit .setupExpired o.releaseDest (enterEnding s)
    let s := releaseOwnBearer s
    let s := handReport (callReport .callUnplaced s.now) s
    tryEnd (showFailed o.mode.callerEnd (raise .callUnplaced s))

/-- An end request from the panel: a withdrawal before connect, an ending after it; a context in ENDING discards it (R80,
R105, R112). -/
def endRequest (s : Station) : Station :=
  match s.call.origin with
  | none => s
  | some o =>
    if o.phase = .ending then s
    else
      let s := if o.connected then s else tallyUp (fun t => { t with withdrawn := t.withdrawn + 1 }) s
      let s := abandonOwnRound .callerEnded o.activity s
      let s := enterEnding s
      let s :=
        match s.ownCircuit, o.carrier.lender with
        | some _, _ => releaseCircuit .callerEnded o.releaseDest s
        | none, some l => if o.connected then clearPartner o.tag .callerEnded l s else s
        | none, none => s
      tryEnd (showEnded (releaseOwnBearer s))

/-- The far end has hung up a connected call (R106). -/
def farEndEnds (s : Station) : Station :=
  let s := releaseCircuit .farEnd 63 (enterEnding s)
  tryEnd (showEnded s)

/-! ### Notices of the arbiter (R69, R93, R99, R107) -/

/-- RELEASED: a bearer that the context names is free (R69, R81, R93, R99, R102, R107). -/
def originReleased (l : Letter) (s : Station) : Station :=
  match s.call.origin with
  | none => s
  | some o =>
    if o.releasing = some l then
      let s := updOrigin (fun o => { o with releasing := none }) s
      if o.phase = .recovering ∧ o.step = .none then
        post (.select o.tag) (updOrigin (fun o => { o with step := .selecting }) s)
      else tryEnd s
    else if o.carrier = .own l then
      match o.activity with
      | .ending => tryEnd (updOrigin (fun o => { o with carrier := .absent }) s)
      | .dialingLocal => localFailed s
      | .connected => carrierLost none true s
      | _ => s
    else s

/-- A notice of the arbiter to the origin context (R69, R93). -/
def originNotice (tag : Tag) (l : Letter) (n : Notice) (s : Station) : Station :=
  match s.call.origin with
  | none => s
  | some o =>
    if o.tag = tag then
      if n = .released then originReleased l s
      else if o.carrier = .own l then
        match o.activity, n with
        | .dialingLocal, .ringing => if o.phase = .recovering then s else showRingback s
        | .dialingLocal, .redialing => if o.phase = .recovering then s else showConnecting s
        | .dialingLocal, .answered => connectLocal l s
        | .dialingLocal, .dialFailed => localFailed s
        | .dialingLocal, .noAnswer => localFailed s
        | .connected, .farEnd => farEndEnds s
        | .connected, .bearerLost => carrierLost none false s
        | _, _ => s
      else s
    else s

/-! ### Frames about the origin's calls (R73, R74, R76, R92) -/

/-- Whether the origin context has a tag. -/
def Station.originHas (s : Station) (tag : Tag) : Bool :=
  match s.call.origin with
  | some o => o.tag == tag
  | none => false

/-- A LEND with a call tag addressed to this station (R73, R74, R92). Whether a LEND from the present carrier that names
another bearer letter than the one taken repeats it, R74 does not say: that it does, and that the letter taken stays, is the
model's choice (log entry 55). -/
def takeLend (source : Nat) (b : LendBody) (s : Station) : Station :=
  if !s.isOwn b.tag.origin then s
  else
    match s.call.origin with
    | some o =>
      if o.tag = b.tag ∧ o.activity = .asking ∧ o.carrier = .asked source then
        enterPhase .awaitingConnect (some (s.within 65000))
          (updOrigin (fun o => { o with carrier := .lent source b.letter, lastPartner := some s.now }) s)
      else if o.tag = b.tag ∧ o.carrier.lender = some source ∧
          (o.activity = .awaitingConnect ∨ o.activity = .connected) then
        updOrigin (fun o => { o with lastPartner := some s.now }) s
      else clearPartner b.tag .late source s
    | none => clearPartner b.tag .late source s

/-- A CALL_STATUS with role CARRIER addressed to this station about a call of its own (R74, R76, R92). -/
def takeCarrierStatus (source : Nat) (tag : Tag) (phase : Nat) (s : Station) : Station :=
  match s.call.origin with
  | some o =>
    if o.tag = tag ∧ o.carrier.lender = some source then
      match o.activity with
      | .awaitingConnect =>
        let s := updOrigin (fun o => { o with lastPartner := some s.now }) s
        if o.phase = .recovering then s
        else if phase = 12 then showRingback s
        else if phase = 11 then showConnecting s
        else s
      | .connected => updOrigin (fun o => { o with lastPartner := some s.now }) s
      | _ => s
    else clearPartner tag .late source s
  | none => clearPartner tag .late source s

/-- A CONNECTED addressed to this station about a call of its own (R74, R76, R92, R101). -/
def takeConnected (source : Nat) (tag : Tag) (s : Station) : Station :=
  if !s.isOwn tag.origin then s
  else
    match s.call.origin with
    | some o =>
      if o.tag = tag ∧ o.carrier.lender = some source then
        match o.activity with
        | .awaitingConnect => connectBorrowed s
        | .connected => updOrigin (fun o => { o with lastPartner := some s.now }) s
        | _ => s
      else clearPartner tag .late source s
    | none => clearPartner tag .late source s

/-- The last-partner-heard stamp set to the present (R73, R76, R92). -/
def partnerHeard (s : Station) : Station := updOrigin (fun o => { o with lastPartner := some s.now }) s

/-- A DECLINE with a call tag addressed to this station (R73, R74); from the carrier of a connected call it sets the
last-partner-heard stamp and has no other effect (R92). -/
def takeDecline (source : Nat) (tag : Tag) (s : Station) : Station :=
  match s.call.origin with
  | some o =>
    if s.isOwn tag.origin ∧ o.tag = tag ∧ o.activity = .asking ∧ o.carrier = .asked source then passOver source s
    else if s.isOwn tag.origin ∧ o.tag = tag ∧ o.activity = .connected ∧ o.carrier.lender = some source then
      partnerHeard s
    else s
  | none => s

/-- A CLEAR addressed to this station from the origin context's carrier; in CONNECTED it sets the last-partner-heard stamp
before its effect (R74, R76, R92, R106). -/
def takeCarrierClear (source : Nat) (tag : Tag) (reason : ClearReason) (s : Station) : Station :=
  match s.call.origin with
  | some o =>
    if o.tag = tag ∧ o.carrier.lender = some source then
      match o.activity with
      | .awaitingConnect => passOver source s
      | .connected =>
        if reason = .farEnd then farEndEnds (partnerHeard s) else carrierLost none false (partnerHeard s)
      | _ => s
    else s
  | none => s

/-! ### ISOLATED (R89, R109) -/

/-- The origin context at an entry into ISOLATED, the circuit gone and the operating state already set (R89, R109). -/
def isolateOrigin (s : Station) : Station :=
  match s.call.origin with
  | none => s
  | some o =>
    match o.phase with
    | .claiming => endOfRound s
    | .asking => endOfRound s
    | .waking => endOfRound s
    | .awaitingConnect => endOfRound s
    | .connected => if o.carrier.lender.isSome then carrierLost none false s else s
    | .recovering =>
      let s := closeStep s
      match s.call.origin with
      | some p =>
        if p.releasing.isSome then s
        else post (.select p.tag) (updOrigin (fun o => { o with step := .selecting }) s)
      | none => s
    | _ => s

end Sys2Proof.Machine
end

