-- ==== Sys2Proof/Machine/Lender.lean ====
section
/-! DEFINITION. The carrier contexts of the call engine: a call lent to a peer's caller (R82-R87, R95-R98). -/

namespace Sys2Proof.Machine

/-- A carrier context ends: it is removed with its CALL_STATUS frames not begun, an input to lend-ready (R86, R91,
R98). -/
def endCarrier (t : Tag) (s : Station) : Station :=
  notingLendReady
    (fun s =>
      removeUnbegun
        (fun b =>
          match b with
          | .callStatusCarrier u _ => u = t
          | _ => false)
        { s with call.carriers := s.call.carriers.filter fun k => k.tag != t })
    s

/-- A carrier context enters ENDING: its schedule stops, its bridge is removed (R86, R98, R121). -/
def closeCarrier (t : Tag) (s : Station) : Station :=
  removeBridges (.carrier t) (updCarrier t (fun k => { k with phase := .ending, schedule := none }) s)

/-- A CLEAR of a carrier context to its origin (R86, R95): it names the context's circuit. -/
def carrierClearFrame (k : Carrier) (reason : ClearReason) (s : Station) : Station :=
  handOver (.clear k.tag (some k.circuit) reason) k.tag.origin s

/-- A carrier context ends as by a CLEAR from its origin: the bearer released, ENDING, no CLEAR in return (R87, R95). -/
def originCleared (k : Carrier) (s : Station) : Station :=
  if k.phase = .ending then s else closeCarrier k.tag (releaseFor (.carrier k.tag) k.letter s)

/-- LEND for a carrier context, with the network its bearer is camped on (R82, R84). -/
def sendLend (k : Carrier) (s : Station) : Station :=
  handOver (.lendCall k.tag k.letter (s.bearer k.letter).networkId) k.tag.origin s

/-- The acceptance of a BORROW (R84). -/
def acceptBorrow (tag : Tag) (c : Circuit) (l : Letter) (s : Station) : Station :=
  let k : Carrier :=
    { tag := tag, circuit := c, letter := l, phase := .dialing, lastPartner := s.now
      schedule := some (s.within 5000) }
  let s := notingLendReady (fun s => { s with call.carriers := s.call.carriers ++ [k] }) s
  orderDial l (sendLend k (recordLending c tag.origin tag s))

/-- A BORROW with no carrier context of its tag: the four tests, then acceptance (R83, R84). -/
def judgeBorrow (tag : Tag) (circuit : Nat) (s : Station) : Station :=
  let decline := fun (r : DeclineReason) => handOver (.declineCall tag r) tag.origin
  match circuitOf circuit with
  | none => decline .badCircuit s
  | some c =>
    if s.directory.effective < circuit then decline .badCircuit s
    else if !s.recordable c tag.origin tag then decline .circuitConflict s
    else if 2 ≤ s.call.carriers.length then decline .busy s
    else
      match claimVoice (.carrier tag) s.config.lendMinimum s with
      | (some l, t) => acceptBorrow tag c l t
      | (none, t) => decline .noBearer t

/-- A BORROW of kind VOICE addressed to this station (R82). -/
def takeBorrow (source : Nat) (b : VoiceBody) (s : Station) : Station :=
  if s.power.opState = .active ∧ s.isPeer source ∧ b.tag.origin = source then
    match s.carrier? b.tag with
    | none => judgeBorrow b.tag b.circuit s
    | some k =>
      if k.phase = .ending then handOver (.declineCall b.tag .busy) source s
      else if circuitOf b.circuit = some k.circuit then
        sendLend k (updCarrier b.tag (fun k => { k with lastPartner := s.now }) s)
      else handOver (.declineCall b.tag .busy) source (originCleared k s)
  else s

/-- A notice of the arbiter to a carrier context (R85, R86, R95, R98). -/
def carrierNotice (tag : Tag) (l : Letter) (n : Notice) (s : Station) : Station :=
  match s.carrier? tag with
  | none => s
  | some k =>
    if k.letter ≠ l then s
    else
      match k.phase, n with
      | .ending, .released => endCarrier tag s
      | .ending, _ => s
      | .connected, .farEnd => closeCarrier tag (carrierClearFrame k .farEnd s)
      | .connected, .bearerLost => closeCarrier tag (carrierClearFrame k .bearerLost s)
      | .connected, .released => endCarrier tag (closeCarrier tag (carrierClearFrame k .bearerLost s))
      | .connected, _ => s
      | _, .ringing => updCarrier tag (fun k => { k with phase := .ringing }) s
      | _, .redialing => updCarrier tag (fun k => { k with phase := .dialing }) s
      | _, .answered =>
        match addBridge ⟨.bearer l, .farSide k.circuit, .carrier tag⟩ s with
        | .ok t =>
          tallyLent
            (handOver (.connected tag) tag.origin (updCarrier tag (fun k => { k with phase := .connected }) t))
        | .error _ => closeCarrier tag (releaseFor (.carrier tag) l (carrierClearFrame k .circuitConflict s))
      | _, .dialFailed => closeCarrier tag (carrierClearFrame k .dialFailed s)
      | _, .noAnswer => closeCarrier tag (carrierClearFrame k .noAnswer s)
      | _, .released => endCarrier tag (closeCarrier tag (carrierClearFrame k .dialFailed s))
      | _, _ => s

/-- A CALL_STATUS from the origin of a carrier context, addressed to this station (R84, R95, R98). -/
def takeOriginStatus (source : Nat) (tag : Tag) (s : Station) : Station :=
  if tag.origin = source then
    updCarrier tag (fun k => if k.phase = .ending then k else { k with lastPartner := s.now }) s
  else s

/-- A CLEAR from the origin of a carrier context, addressed to this station (R87, R95, R98). -/
def takeOriginClear (source : Nat) (tag : Tag) (s : Station) : Station :=
  if tag.origin = source then
    match s.carrier? tag with
    | some k => originCleared k s
    | none => s
  else s

/-- When the carrier's partner-silence limit expires (R96). -/
def Carrier.silenceDeadline (k : Carrier) : Timer :=
  if k.phase = .ending then none else some (Stamp.later k.lastPartner 15000)

/-- The carrier's partner-silence limit has expired (R96). -/
def carrierSilent (k : Carrier) (s : Station) : Station :=
  let s := releaseFor (.carrier k.tag) k.letter (raise .partnerLost s)
  closeCarrier k.tag (carrierClearFrame k .partnerSilent s)

/-- The circuit watch of one carrier context (R97). -/
def watchCircuit (e : CircuitEntry) (k : Carrier) (s : Station) : Station :=
  if k.phase = .ending then s
  else
    match e with
    | .free => originCleared k s
    | _ =>
      match e.holding with
      | some h => if h = (k.tag.origin, k.tag) then s else originCleared k (carrierClearFrame k .circuitConflict s)
      | none => s

/-- A change of an entry reaches the carrier contexts that name the circuit (R97). -/
def circuitWatch (c : Circuit) (e : CircuitEntry) (s : Station) : Station :=
  (s.call.carriers.filter fun k => k.circuit == c).foldl (fun t k => watchCircuit e k t) s

/-- A carrier context at an entry into ISOLATED (R89, R109). -/
def isolateCarriers (s : Station) : Station := s.call.carriers.foldl (fun t k => originCleared k t) s

end Sys2Proof.Machine
end

