-- ==== Sys2Proof/Machine/Reports.lean ====
section
/-! DEFINITION. The report unit: delivering reports, relaying a peer's reports (R134-R140). -/

namespace Sys2Proof.Machine

/-! ### Delivery (R134-R136) -/

/-- The entry of the report queue that is in flight. -/
def Station.flying (s : Station) : Option ReportEntry := s.reports.queue.find? fun e => e.state == .inFlight

/-- The entry of a tag. -/
def Station.report? (s : Station) (t : Tag) : Option ReportEntry := s.reports.queue.find? fun e => e.record.tag == t

/-- The entry of a tag changed. -/
def updReport (t : Tag) (f : ReportEntry → ReportEntry) (s : Station) : Station :=
  { s with reports.queue := s.reports.queue.map fun e => if e.record.tag = t then f e else e }

/-- The entry of a tag removed. -/
def removeReport (t : Tag) (s : Station) : Station :=
  { s with reports.queue := s.reports.queue.filter fun e => e.record.tag != t }

/-- A BORROW of kind REPORT to a lender, the answer timer started (R136). -/
def askReportLender (t : Tag) (lender : Nat) (s : Station) : Station :=
  match s.report? t with
  | none => s
  | some e =>
    handOver (.borrowReport e.record) lender
      (updReport t
        (fun e => { e with state := .inFlight, route := .asking lender, timer := some (s.within s.answerMs) }) s)

/-- An entry offered for delivery (R134). -/
def offerEntry (e : ReportEntry) (s : Station) : Station :=
  let t := e.record.tag
  if s.anyGrade then
    claimReport (.report t) e.record
      (updReport t (fun e => { e with state := .inFlight, route := .ownBearer, timer := none }) s)
  else if s.power.opState = .active then
    match s.ranking e.declined with
    | l :: _ => askReportLender t l s
    | [] => s
  else s

/-- Delivery decided while no entry is in flight (R134). -/
def offerNext (s : Station) : Station :=
  if s.inService && s.flying.isNone then
    match s.reports.queue.find? fun e => e.state == .waiting with
    | some e => offerEntry e s
    | none => s
  else s

/-- The newer waiting entry of the kind of a returning one, merged into it and removed (R137). With the greater peak goes
its axis, which the rule does not name (log entry 21). -/
def mergeReturning (t : Tag) (s : Station) : Station :=
  match s.report? t with
  | none => s
  | some e =>
    match s.reports.queue.find? fun f => f.waits && f.record.tag != t && f.record.kind == e.record.kind with
    | none => s
    | some f =>
      let last := if Stamp.before e.record.last f.record.last then f.record.last else e.record.last
      let merged :=
        { e with record.repeats := min 255 (e.record.repeats + f.record.repeats), record.last := last }
      let merged :=
        if e.peakSq < f.peakSq then
          { merged with peakSq := f.peakSq, record.peak := f.record.peak, record.axis := f.record.axis }
        else merged
      updReport t (fun _ => merged) (removeReport f.record.tag s)

/-- An entry returned to WAITING with its attempt count as it was (R135, R136). -/
def returnWaiting (t : Tag) (s : Station) : Station :=
  mergeReturning t
    (updReport t (fun e => { e with state := .waiting, route := .absent, timer := none }) s)

/-- The re-test of an entry whose LOCAL claim waits: with no bearer of grade 1 or more it is withdrawn (R135). -/
def retestClaim (s : Station) : Station :=
  match s.flying with
  | some e =>
    if e.route = .ownBearer && s.claimWaits (.report e.record.tag) && !s.anyGrade then
      returnWaiting e.record.tag (withdrawClaim (.report e.record.tag) s)
    else s
  | none => s

/-- Delivery decided again (R134, R135). -/
def decideReports (s : Station) : Station := offerNext (retestClaim s)

/-- An attempt has failed (R137). -/
def attemptFailed (t : Tag) (s : Station) : Station :=
  match s.report? t with
  | none => s
  | some e =>
    if 5 ≤ e.attempts + 1 then post .decideReports (removeReport t (countDropped (raise .reportUndelivered s)))
    else
      post .decideReports
        (mergeReturning t
          (updReport t
            (fun e =>
              { e with
                attempts := e.attempts + 1, declined := [], route := .absent, state := .resting
                timer := some (s.within 30000) })
            s))

/-- The next candidate is asked after a lender joined the declined list, or the attempt has failed (R136). -/
def askNext (t : Tag) (lender : Nat) (s : Station) : Station :=
  let s :=
    updReport t
      (fun e => { e with declined := if e.declined.contains lender then e.declined else e.declined ++ [lender] }) s
  match s.report? t with
  | none => s
  | some e =>
    match s.ranking e.declined with
    | l :: _ => if e.declined.length < 4 then askReportLender t l s else attemptFailed t s
    | [] => attemptFailed t s

/-- An entry is delivered: its claim or bearer is given up where it still has one, it is counted and removed (R137). -/
def delivered (t : Tag) (s : Station) : Station :=
  let who : Claimant := .report t
  let s := withdrawClaim who s
  let s :=
    match s.bearerOf who with
    | some l => releaseFor who l s
    | none => s
  post .decideReports (removeReport t (countDelivered s))

/-- A notice of the arbiter to an entry of the report queue (R135). -/
def reportNotice (t : Tag) (n : Notice) (s : Station) : Station :=
  match s.report? t with
  | none => s
  | some e =>
    if e.state = .inFlight ∧ e.route = .ownBearer then
      match n with
      | .reportSent => delivered t s
      | .reportFailed => attemptFailed t s
      | .preempted =>
        let s := { s with reports.queue := e :: s.reports.queue.filter fun f => f.record.tag != t }
        post .decideReports (returnWaiting t s)
      | _ => s
    else s

/-- A LEND with a report tag (R136). -/
def reportLent (source : Nat) (t : Tag) (s : Station) : Station :=
  match s.report? t with
  | some e =>
    if e.route = .asking source then
      updReport t (fun e => { e with route := .relayed source, timer := some (s.within 120000) }) s
    else s
  | none => s

/-- A DECLINE with a report tag (R136). -/
def reportDeclined (source : Nat) (t : Tag) (s : Station) : Station :=
  match s.report? t with
  | some e => if e.route = .asking source then askNext t source s else s
  | none => s

/-- A REPORT_RESULT (R136, R137). -/
def takeResult (source : Nat) (b : ResultBody) (s : Station) : Station :=
  match s.report? b.tag with
  | none => s
  | some e =>
    if b.delivered then delivered b.tag s
    else if e.route = .relayed source then attemptFailed b.tag s
    else s

/-! ### Relaying (R138, R139) -/

/-- The relay entry of a tag. -/
def Station.relay? (s : Station) (t : Tag) : Option RelayEntry := s.reports.relay.find? fun e => e.record.tag == t

/-- The relay entry of a tag changed. -/
def updRelay (t : Tag) (f : RelayEntry → RelayEntry) (s : Station) : Station :=
  { s with reports.relay := s.reports.relay.map fun e => if e.record.tag = t then f e else e }

/-- The relay entry of a tag removed; the queue has changed (R139). -/
def removeRelay (t : Tag) (s : Station) : Station :=
  post .decideRelay { s with reports.relay := s.reports.relay.filter fun e => e.record.tag != t }

/-- The first WAITING relay entry goes in flight while none is (R139). -/
def decideRelay (s : Station) : Station :=
  if s.inService && (s.reports.relay.all fun e => e.state != .inFlight) then
    match s.reports.relay.find? fun e => e.state == .waiting with
    | some e =>
      claimReport (.relay e.record.tag) e.record
        (updRelay e.record.tag (fun e => { e with state := .inFlight, rest := none }) s)
    | none => s
  else s

/-- A relay entry ends with its result to the origin (R139). In ISOLATED the frame is discarded (R140, R156). -/
def endRelay (t : Tag) (delivered : Bool) (s : Station) : Station :=
  removeRelay t (handOver (.reportResult t delivered) t.origin s)

/-- A notice of the arbiter to a relay entry (R139). In ISOLATED every outcome is final (R140; log entry 31). -/
def relayNotice (t : Tag) (n : Notice) (s : Station) : Station :=
  match s.relay? t with
  | none => s
  | some e =>
    let final := e.expired || s.power.opState == .isolated
    if e.state = .inFlight then
      match n with
      | .reportSent => endRelay t true s
      | .reportFailed =>
        if final || 3 ≤ e.attempts + 1 then endRelay t false s
        else
          post .decideRelay
            (updRelay t
              (fun e =>
                { e with attempts := e.attempts + 1, state := .resting, rest := some (s.within 30000) }) s)
      | .preempted =>
        if final then endRelay t false s
        else
          post .decideRelay
            { s with
              reports.relay := { e with state := .waiting } :: s.reports.relay.filter fun f => f.record.tag != t }
      | _ => s
    else s

/-- The lifetime of a relay entry has expired (R139). -/
def relayExpired (t : Tag) (s : Station) : Station :=
  match s.relay? t with
  | none => s
  | some e =>
    if e.state = .inFlight ∧ !s.claimWaits (.relay t) then
      updRelay t (fun e => { e with lifetime := none, expired := true }) s
    else endRelay t false (withdrawClaim (.relay t) s)

/-- A BORROW of kind REPORT addressed to this station (R138). -/
def takeReportBorrow (source : Nat) (record : Record) (s : Station) : Station :=
  if s.power.opState = .active ∧ s.isPeer source ∧ record.tag.origin = source then
    if (s.relay? record.tag).isSome then handOver (.lendReport record.tag) source s
    else if !s.anyGrade then handOver (.declineReport record.tag .noBearer) source s
    else if s.reports.relay.length < 4 then
      let e : RelayEntry :=
        { record := record, state := .waiting, attempts := 0, rest := none, lifetime := some (s.within 110000)
          expired := false }
      post .decideRelay
        (handOver (.lendReport record.tag) source { s with reports.relay := s.reports.relay ++ [e] })
    else handOver (.declineReport record.tag .queueFull) source s
  else s

/-! ### Operating states (R134, R136, R140) -/

/-- The stall check runs while the queue holds a WAITING entry and none is in flight (R134). -/
def keepStall (s : Station) : Station :=
  if s.inService && s.flying.isNone && (s.reports.queue.any fun e => e.state == .waiting) then
    if s.reports.stall.isSome then s else { s with reports.stall := some (s.within 5000) }
  else { s with reports.stall := none }

/-- The report unit at an entry into ISOLATED (R136, R140). -/
def isolateReports (s : Station) : Station :=
  let lent := s.reports.queue.filter fun e =>
    match e.route with
    | .asking _ => true
    | .relayed _ => true
    | _ => false
  let s := lent.foldl (fun t e => returnWaiting e.record.tag t) s
  let granted := fun (e : RelayEntry) => e.state == .inFlight && !s.claimWaits (.relay e.record.tag)
  let waiting := s.bearers.waiting.filter fun w =>
    match w.who with
    | .relay _ => false
    | _ => true
  post .decideReports { s with reports.relay := s.reports.relay.filter granted, bearers.waiting := waiting }

end Sys2Proof.Machine
end

