-- ==== Sys2Proof/Machine/Cabinet.lean ====
section
/-! DEFINITION. The cabinet monitor: baseline, reference capture, IMPACT and tilt detectors, the pending list
(R124-R131). -/

namespace Sys2Proof.Machine

/-! ### Angles (R129) -/

/-- The squares of the cosines of 5 to 45 degrees, times 10^40, rounded to the nearest whole number; those of 30 and 45
degrees are exact (log entry 19). -/
def cosSquares : List Nat :=
  [9924038765061040296833715122947615068353
  , 9890738003669028189642833739347997662299
  , 9851478631379982361531889370169951888161
  , 9806308479691594309582485242785324367628
  , 9755282581475767860582196666896910717028
  , 9698463103929541920270546386623657349681
  , 9635919272833937004032372255684784710488
  , 9567727288213004477510637859926585889704
  , 9493970231495834963911478383478926774650
  , 9414737964294634710160856801578596930418
  , 9330127018922193233818615853764680917357
  , 9240240480782129851930880893451932243644
  , 9145187862775208460031684207508210131645
  , 9045084971874737120511467085914095294301] ++
  [8940053768033609783469888939179258333208
  , 8830222215594890176011963252777083369679
  , 8715724127386971175073485244871284885946
  , 8596699001693255696780273372283559541153
  , 8473291852294986433282031497113431149599
  , 8345653031794291069131366653433902367998
  , 8213938048432696631613217049536317164538
  , 8078307376628291398344055464218278141255
  , 7938926261462365645843529773195363842988
  , 7795964517353734150802140699929946436533
  , 7649596321166024770233905759080433343860
  , 7500000000000000000000000000000000000000
  , 7347357813929453879797311441139216478616
  , 7191855733945387087263672703291328695314] ++
  [7033683215379001038769929951707488064616
  , 6873032967079560177074818872505975655001
  , 6710100716628343665220498073411297903815
  , 6545084971874737120511467085914095294301
  , 6378186779084995928249857873056520738562
  , 6209609477998338612802211870501764826475
  , 6039558454088796685508711422025625831083
  , 5868240888334651744258583133846573980002
  , 5695865504800327220562483316505526377280
  , 5522642316338267356999170774012490595403
  , 5348782368720626503879794175970716643005
  , 5174497483512504858229975908126664686774
  , 5000000000000000000000000000000000000000]

/-- The square of the cosine of a tilt threshold of 5 to 45 degrees. -/
def cosSq (degrees : Nat) : Rat := (cosSquares.getD (degrees - 5) 0 : Nat) / (10 ^ 40 : Nat)

/-- An integer vector as an exact one. -/
def IVec.exact (v : IVec) : QVec := { x := v.x, y := v.y, z := v.z }

/-- The inner product. -/
def QVec.dot (a b : QVec) : Rat := a.x * b.x + a.y * b.y + a.z * b.z

/-- The difference. -/
def QVec.minus (a b : QVec) : QVec := { x := a.x - b.x, y := a.y - b.y, z := a.z - b.z }

/-- Whether the angle between two vectors lies above an acute angle whose cosine has the square given. -/
def angleAbove (cosSquare : Rat) (a b : QVec) : Bool :=
  a.dot b < 0 || a.dot b * a.dot b < cosSquare * (a.dot a * b.dot b)

/-- A vector long enough for an angle test: 200 mg or more (R129). -/
def QVec.testable (v : QVec) : Bool := 40000 ≤ v.dot v

/-! ### Samples (R124, R125) -/

/-- A sample within the sensor's range (R124). -/
def IVec.inRange (v : IVec) : Bool :=
  -8000 ≤ v.x && v.x ≤ 8000 && -8000 ≤ v.y && v.y ≤ 8000 && -8000 ≤ v.z && v.z ≤ 8000

/-- The rate selected in an operating state, in samples per second (R124). -/
def Station.sensorRate (s : Station) : Nat := if s.power.opState = .standby then 25 else 100

/-- One axis of the baseline moved toward the sample: by 1/400 of the difference at 100 samples per second, by 1/100 at 25
(R125). -/
def baselineStep (rate : Nat) (old sample : Rat) : Rat := old + (sample - old) / (if rate = 25 then 100 else 400)

/-- The baseline after a sample (R125). -/
def newBaseline (rate : Nat) (old : Option QVec) (v : QVec) : QVec :=
  match old with
  | none => v
  | some b =>
    { x := baselineStep rate b.x v.x, y := baselineStep rate b.y v.y, z := baselineStep rate b.z v.z }

/-! ### Reference capture (R127) -/

/-- The sum, smallest and largest of two vectors, axis by axis. -/
def IVec.zip (f : Int → Int → Int) (a b : IVec) : IVec := { x := f a.x b.x, y := f a.y b.y, z := f a.z b.z }

/-- A window that begins at a sample (R127). -/
def openWindow (now : Stamp) (v : IVec) : Capture := .window now 1 v v v

/-- Whether the samples of a window are still: less than 50 mg between largest and smallest on each axis (R127). -/
def stillWindow (low high : IVec) : Bool :=
  high.x - low.x < 50 && high.y - low.y < 50 && high.z - low.z < 50

/-- A mean rounded toward zero (R127). -/
def meanOf (sum : IVec) (count : Nat) : IVec :=
  { x := Int.tdiv sum.x count, y := Int.tdiv sum.y count, z := Int.tdiv sum.z count }

/-- A sample offered to the reference capture (R127). -/
def offerCapture (v : IVec) (s : Station) : Station :=
  match s.cabinet.capture with
  | .off => s
  | .armed => { s with cabinet.capture := openWindow s.now v }
  | .window start count sum low high =>
    let sum := IVec.zip (· + ·) sum v
    let low := IVec.zip min low v
    let high := IVec.zip max high v
    if !stillWindow low high then { s with cabinet.capture := openWindow s.now v }
    else if 10000 ≤ Stamp.elapsed start s.now then
      { s with keep.reference := some (meanOf sum (count + 1)), cabinet.capture := .off, cabinet.tilt := .armed }
    else { s with cabinet.capture := .window start (count + 1) sum low high }

/-! ### Handing events on (R130) -/

/-- An event merged into a pending entry of its kind (R130). -/
def CabinetEvent.merge (e : CabinetEvent) (p : CabinetEvent) : CabinetEvent :=
  let m := { p with repeats := min 255 (p.repeats + 1), last := e.last }
  if e.kind = .impact ∧ p.peakSq < e.peakSq then { m with peakSq := e.peakSq, axis := e.axis } else m

/-- A cabinet event: handed to the report unit in ACTIVE and ISOLATED, held in the pending list else (R130). -/
def handCabinetEvent (e : CabinetEvent) (s : Station) : Station :=
  if s.inService then handReport e s
  else if s.cabinet.pending.any fun p => p.kind == e.kind then
    { s with cabinet.pending := mapFirst (fun p => p.kind == e.kind) e.merge s.cabinet.pending }
  else { s with cabinet.pending := s.cabinet.pending ++ [e] }

/-- The pending entries handed to the report unit in the order of their first stamps (R130). -/
def handPending (s : Station) : Station :=
  let events := sortBy (fun a b => Stamp.before a.first b.first) s.cabinet.pending
  events.foldl (fun t e => handReport e t) { s with cabinet.pending := [] }

/-- A wake cause given to the power unit, in STANDBY (R128, R129). -/
def wakeIfStandby (cause : WakeCause) (s : Station) : Station :=
  if s.power.opState = .standby then post (.wake cause) s else s

/-! ### IMPACT (R128) -/

/-- The axis of the largest absolute component, X before Y before Z (R128). -/
def axisOfLargest (d : QVec) : Axis :=
  if d.y * d.y ≤ d.x * d.x ∧ d.z * d.z ≤ d.x * d.x then .x else if d.z * d.z ≤ d.y * d.y then .y else .z

/-- A sample offered to the IMPACT detector, with the baseline as it stood before (R128). -/
def offerImpact (old : Option QVec) (v : QVec) (s : Station) : Station :=
  match old with
  | none => s
  | some b =>
    let d := v.minus b
    let threshold : Rat := (s.config.impactThreshold * 100 : Nat)
    if threshold * threshold < d.dot d then
      match s.cabinet.impact with
      | .quiet =>
        wakeIfStandby .impact
          { s with
            cabinet.impact := .opened s.now (d.dot d) (axisOfLargest d) (s.within 2000)
            cabinet.lastImpact := some s.now }
      | .opened first peak axis _ =>
        let impact : Impact :=
          if peak < d.dot d then .opened first (d.dot d) (axisOfLargest d) (s.within 2000)
          else .opened first peak axis (s.within 2000)
        { s with cabinet.impact := impact }
    else s

/-- An open IMPACT event closes and is handed on (R128, R130). -/
def closeImpact (s : Station) : Station :=
  match s.cabinet.impact with
  | .quiet => s
  | .opened first peak axis _ =>
    handCabinetEvent { kind := .impact, first := first, last := first, repeats := 1, peakSq := peak, axis := some axis }
      { s with cabinet.impact := .quiet }

/-! ### TILT and KNOCKDOWN (R129) -/

/-- TILT or KNOCKDOWN raised with the present stamp (R129, R130). -/
def raiseTilt (kind : ReportKind) (cause : WakeCause) (s : Station) : Station :=
  let e : CabinetEvent :=
    { kind := kind, first := s.now, last := s.now, repeats := 1, peakSq := 0, axis := none }
  wakeIfStandby cause (handCabinetEvent e { s with cabinet.tilt := .raised })

/-- Whether the last impact lies within the 10 s before a sustain start, itself included (R129). -/
def Station.eligible (s : Station) : Bool :=
  match s.cabinet.lastImpact with
  | some t => Stamp.elapsed t s.now ≤ 10000
  | none => false

/-- A tested sample: the angle above the threshold or not, above 60 degrees or not (R129). -/
def testTilt (above high : Bool) (s : Station) : Station :=
  match s.cabinet.tilt with
  | .armed =>
    if above then
      { s with cabinet.tilt := .sustaining s.now (if high then some s.now else none) s.eligible }
    else s
  | .sustaining start was eligible =>
    if !above then { s with cabinet.tilt := .armed }
    else
      let highStart := if high then some (was.getD s.now) else none
      match highStart with
      | some t =>
        if eligible then
          if 5000 ≤ Stamp.elapsed t s.now then raiseTilt .knockdown .knockdown s
          else { s with cabinet.tilt := .sustaining start highStart eligible }
        else if 5000 ≤ Stamp.elapsed start s.now then raiseTilt .tilt .tilt s
        else { s with cabinet.tilt := .sustaining start highStart eligible }
      | none =>
        if 5000 ≤ Stamp.elapsed start s.now then raiseTilt .tilt .tilt s
        else { s with cabinet.tilt := .sustaining start highStart eligible }
  | .raised => if above then s else { s with cabinet.tilt := .rearming s.now }
  | .rearming start =>
    if above then { s with cabinet.tilt := .raised }
    else if 5000 ≤ Stamp.elapsed start s.now then { s with cabinet.tilt := .armed }
    else s

/-- A sample offered to the tilt detector, after the baseline has moved (R129). -/
def offerTilt (s : Station) : Station :=
  match s.cabinet.baseline, s.keep.reference with
  | some b, some r =>
    if b.testable && r.exact.testable then
      testTilt (angleAbove (cosSq s.config.tiltThreshold) b r.exact) (angleAbove (1 / 4) b r.exact) s
    else s
  | _, _ => s

/-- A sample is taken (R124-R129). -/
def takeSample (v : IVec) (s : Station) : Station :=
  if v.inRange then
    let old := s.cabinet.baseline
    let s :=
      { s with
        cabinet.silent := false
        cabinet.silence := some (s.within 1000)
        cabinet.baseline := some (newBaseline s.sensorRate old v.exact) }
    offerTilt (offerImpact old v.exact (offerCapture v s))
  else s

/-! ### Silence and resets (R126, R127, R131) -/

/-- The sensor is silent (R126). -/
def sensorFalls (s : Station) : Station :=
  let s := raise .sensorSilent { s with cabinet.silent := true, cabinet.silence := none }
  let tilt : Tilt :=
    match s.cabinet.tilt with
    | .sustaining _ _ _ => .armed
    | .rearming _ => .raised
    | t => t
  let capture : Capture :=
    match s.cabinet.capture with
    | .window _ _ _ _ _ => .armed
    | c => c
  closeImpact { s with cabinet.tilt := tilt, cabinet.capture := capture }

/-- A reference capture begins, or restarts (R127). -/
def beginCapture (s : Station) : Station := { s with cabinet.capture := .armed }

/-- The cabinet monitor after a warm reset: a capture begins anew where the reference is absent (R127, R131). The silence
limit runs from the entry into START (R126). -/
def clearedCabinet (reference : Option IVec) (silence : Timer) : Cabinet :=
  { baseline := none, capture := if reference.isNone then .armed else .off, impact := .quiet, lastImpact := none
    tilt := .armed, silent := false, silence := silence, pending := [] }

end Sys2Proof.Machine
end

