-- ==== Sys2Proof/Machine/Peers.lean ====
section
/-! DEFINITION. The peer directory: filing, refreshing, ageing and the recomputation that follows (R1-R7). -/

namespace Sys2Proof.Machine

/-- A raw summary that a directory entry may hold (R3). -/
def RawSummary.fileable (m : RawSummary) : Bool :=
  m.letter.isSome && m.grade ≤ 3 && !(m.grade == 0 && m.network != 0)

/-- Whether two items of a summary list have the same bearer letter. -/
def repeatsLetter : List RawSummary → Bool
  | [] => false
  | m :: ms => (ms.any fun n => n.letter == m.letter) || repeatsLetter ms

/-- Whether an ANNOUNCE is filed with its content, and not as a refresh only (R3). -/
def AnnounceBody.fileable (b : AnnounceBody) : Bool :=
  10 ≤ b.period && b.period ≤ 60 && 1 ≤ b.circuits && b.circuits ≤ 6 && b.summaries.length ≤ 2 &&
    !repeatsLetter b.summaries && (b.summaries.all fun m => m.fileable) &&
    (match b.held with
    | some h => 1 ≤ h.circuit && h.circuit ≤ 6
    | none => true)

/-- A summary as an entry holds it. -/
def RawSummary.summary (m : RawSummary) : Option Summary :=
  m.letter.map fun l => { letter := l, cls := m.cls, grade := m.grade, network := m.network }

/-- The entry that an ANNOUNCE makes (R1, R3). -/
def AnnounceBody.entry (b : AnnounceBody) (source : Nat) (now : Stamp) : PeerEntry :=
  { address := source, power := if b.standby then .standby else .active, lendReady := b.lendReady, period := b.period
    circuits := b.circuits, summaries := b.summaries.filterMap fun m => m.summary, held := b.held, lastHeard := now }

/-- An entry put in its place in address order, in place of one of the same address (R1, R3). -/
def putEntry (e : PeerEntry) : List PeerEntry → List PeerEntry
  | [] => [e]
  | f :: fs =>
    if f.address = e.address then e :: fs
    else if e.address < f.address then e :: f :: fs
    else f :: putEntry e fs

/-- The entry with the oldest last-heard stamp; the lowest address among several (R3). -/
def oldestEntry : List PeerEntry → Option PeerEntry
  | [] => none
  | e :: es =>
    match oldestEntry es with
    | none => some e
    | some f => if Stamp.before f.lastHeard e.lastHeard then some f else some e

/-- The entries with a new or overwritten one, within the capacity of 31 (R3). -/
def fileEntry (e : PeerEntry) (entries : List PeerEntry) : List PeerEntry :=
  if (entries.any fun f => f.address == e.address) || entries.length < 31 then putEntry e entries
  else
    match oldestEntry entries with
    | some old => putEntry e (entries.filter fun f => f.address != old.address)
    | none => putEntry e entries

/-- The recomputation after a change of the entries: count, CIRCUIT_MISMATCH, and the own attempt above the new count
(R7, R29). -/
def recount (wasMismatch : Bool) (s : Station) : Station := countChanged (recomputeCount wasMismatch s)

/-- An entry's last-heard stamp set to the present (R4). -/
def refreshPeer (source : Nat) (s : Station) : Station :=
  if s.isPeer source then
    { s with
      directory.entries :=
        s.directory.entries.map fun e => if e.address = source then { e with lastHeard := s.now } else e }
  else s

/-- An ANNOUNCE filed from a peer (R3). -/
def fileAnnounce (source : Nat) (b : AnnounceBody) (s : Station) : Station :=
  if !s.isPeer source then s
  else if b.fileable then
    post .directoryChanged
      (recount s.mismatched
        { s with directory.entries := fileEntry (b.entry source s.now) s.directory.entries })
  else refreshPeer source s

/-- The ageing limit of an entry in milliseconds (R5). -/
def PeerEntry.limitMs (e : PeerEntry) : Nat :=
  match e.power with
  | .active => 3 * e.period * 1000
  | .standby => 3600000

/-- When an entry's ageing limit expires (R5). -/
def PeerEntry.deadline (e : PeerEntry) : Stamp := Stamp.later e.lastHeard e.limitMs

/-- An entry removed at its ageing limit (R5). A context in WAKING takes no removal (R75). -/
def agePeer (address : Nat) (s : Station) : Station :=
  recount s.mismatched
    { s with directory.entries := s.directory.entries.filter fun e => e.address != address }

/-- The directory emptied, the effective count the configured one (R6). -/
def clearDirectory (s : Station) : Station := { s with directory := { entries := [], effective := s.config.circuits } }

end Sys2Proof.Machine
end

