-- ==== Sys2Proof/Machine/Supply.lean ====
section
/-! DEFINITION. The power unit: resets, start-up, ISOLATED, standby and wake, reload (R6, R15, R35, R63, R89, R108, R109,
R123, R131, R140, R157, R164-R177, R184). -/

namespace Sys2Proof.Machine

/-! ### Resets (R108, R140, R176, R177) -/

/-- The keep domain's last writes of a warm reset: *interrupted*, and the reports lost (R108, R140, R176). -/
def writeLast (s : Station) : Station :=
  let s :=
    match s.call.origin with
    | some o =>
      if !o.connected && o.phase != Phase.ending then tallyUp (fun t => { t with interrupted := t.interrupted + 1 }) s
      else s
    | none => s
  s.reports.queue.foldl (fun t _ => countDropped t) s

/-- Every volatile block but the power unit and the cabinet monitor at its warm-reset values (R6, R15, R35, R63, R89,
R123, R140, R157, R164). -/
def clearBlocks (s : Station) : Station :=
  let s := clearDirectory (clearBearers s)
  { s with
    announcing := clearedAnnouncing, circuits := clearedCircuits, line := clearedLine, draw := startedDraw, audio := []
    panel := clearedPanel, call := { origin := none, carriers := [] }, reports := clearedReports, work := [] }

/-- The power unit when nothing runs: no read, no timer, no standby entry, no clash (R171, R173, R177, R184). -/
def Power.cleared (p : Power) : Power :=
  { p with
    opState := .start, heldWake := none, configRead := none, reload := none, idleTimer := none, progress := .none
    checkIn := none, clash := false }

/-- START entered: the configuration read begins, the silence limit runs, the sensor's rate is selected (R124, R126,
R165, R167). -/
def enterStart (cause : StartCause) (s : Station) : Station :=
  emit (.sensorRate 100)
    { s with
      power :=
        { s.power.cleared with
          startCause := cause, wakeCause := none, held := false, configRead := some (s.within 500) }
      cabinet := clearedCabinet s.keep.reference (some (s.within 1000)) }

/-- A warm reset (R177). -/
def warmReset (s : Station) : Station := enterStart .warm (clearBlocks (writeLast s))

/-- The station held in reset: the volatile blocks at their warm-reset values, START not begun. POWER_DOWN is sent and the
modules lose their power here, at the start of the hold, and nothing more is sent to them at the warm reset that ends it
(R63, R177 leave the moment open; log entry 30). -/
def holdReset (s : Station) : Station :=
  let s := clearBlocks (writeLast s)
  { s with power := { s.power.cleared with held := true }, cabinet := clearedCabinet s.keep.reference none }

/-- The held warm reset, once the reset line is released and the main rail is there (R177). For a reset line asserted and
released while the main rail is absent, in STANDBY too, R177 does not say when the warm reset is taken: the model holds it
until the main rail returns (log entry 53). -/
def releaseReset (s : Station) : Station :=
  if s.power.held && !s.power.resetLine && s.power.mainRail then warmReset s else s

/-- A power-on reset: the keep domain cleared, every block at its power-on values, START with cause POWER_ON; held while
the reset line is asserted or the main rail is absent (R176, R177; log entry 8). -/
def powerOnReset (s : Station) : Station :=
  let fresh :=
    { Station.reset with
      power := { Station.reset.power with mainRail := s.power.mainRail, resetLine := s.power.resetLine }
      out := [.sensorRate 100], free := s.free }
  if s.power.resetLine || !s.power.mainRail then holdReset fresh else fresh

/-- Every block without power: the station has stopped (R177). R63 gives the modules unpowered at the power-on reset only;
that the keep rail's loss sends no POWER_DOWN and records them unpowered at once is the model's choice (log entry 54). -/
def keepLost (s : Station) : Station :=
  { Station.reset with
    power :=
      { Station.reset.power with
        keepRail := false, mainRail := s.power.mainRail, resetLine := s.power.resetLine, configRead := none }
    cabinet := clearedCabinet none none
    free := s.free }

/-! ### Entries into ACTIVE and ISOLATED (R12, R39, R113, R130, R167, R168, R170) -/

/-- A call request held in START handed on (R113). -/
def handRequest (s : Station) : Station :=
  match s.panel.request with
  | some m => createOrigin m { s with panel.request := none }
  | none => s

/-- ACTIVE entered from START or by a wake (R6, R12, R39, R113, R130, R167, R174). -/
def enterActive (s : Station) : Station :=
  let s := clearDirectory { s with power.opState := .active, power.configRead := none }
  let s := startFitted (announceCause true (emit (.sensorRate 100) s))
  handPending (handRequest s)

/-- ISOLATED entered from START on the built-in set (R6, R39, R113, R130, R168, R170). -/
def enterIsolatedFromStart (s : Station) : Station :=
  let s := clearDirectory { s with power.opState := .isolated, power.configRead := none }
  let s := startFitted (emit (.sensorRate 100) s)
  handPending (handRequest s)

/-- The record of START is invalid: CONFIG_INVALID, the built-in set, ISOLATED (R168). -/
def configInvalid (s : Station) : Station :=
  enterIsolatedFromStart { raise .configInvalid s with keep.config := some builtInSet }

/-- The record of START is judged (R167). -/
def judgeRecord (bytes : List Byte) (s : Station) : Station :=
  match readConfiguration bytes with
  | some c => enterActive { s with keep.config := some c }
  | none => configInvalid s

/-- Whether a queued frame is kept at an entry into ISOLATED: a STATUS to 0 (R156). -/
def TxFrame.serviceAnswer (f : TxFrame) : Bool :=
  (match f.body with
  | .status _ _ => true
  | _ => false) && f.dest == 0

/-- The line interface at an entry into ISOLATED (R156). -/
def isolateLine (s : Station) : Station :=
  let s := { s with line.queue := s.line.queue.filter TxFrame.serviceAnswer }
  match s.line.service with
  | some v => if v.frame.serviceAnswer then s else leaveService s
  | none => s

/-- The circuit view and the own round at an entry into ISOLATED, with the bridges of the own circuit (R35, R121). -/
def isolateCircuits (s : Station) : Station :=
  let s :=
    match s.ownCircuit with
    | some c => dropCircuitBridge c s
    | none => s
  let s := updOrigin (fun o => { o with schedule := none }) s
  { withdrawDraw .circuit s with circuits := clearedCircuits }

/-- ISOLATED entered from ACTIVE (R6, R15, R35, R63, R89, R109, R123, R140, R156, R170, R172). -/
def enterIsolated (s : Station) : Station :=
  let s :=
    { s with
      power.opState := .isolated, power.progress := .none, power.idleTimer := none
      announcing := clearedAnnouncing }
  let s := clearDirectory (isolateCircuits (isolateLine (withdrawDraw .reply s)))
  isolateReports (isolateCarriers (isolateOrigin (emit (.sensorRate 100) s)))

/-- An address clash (R145). -/
def addressClash (s : Station) : Station :=
  enterIsolated { raise .addressClash s with power.clash := true }

/-! ### Standby (R171-R174) -/

/-- The quiet condition (R171). -/
def Station.quiet (s : Station) : Bool :=
  s.power.opState == .active && s.config.standbyEnable && s.call.origin.isNone && s.call.carriers.isEmpty &&
    s.reports.queue.isEmpty && s.reports.relay.isEmpty && s.panel.hook == .onHook && s.power.reload.isNone

/-- Entry into STANDBY: the hook and button watch runs on from what the panel held (R6, R15, R35, R63, R123, R124, R155,
R164, R173). -/
def enterStandby (s : Station) : Station :=
  let assembly := s.line.assembly
  let gap := s.line.gap
  let watch := { clearedPanel with hook := s.panel.hook, disregard := s.panel.pressHeld }
  let s := clearBlocks s
  emit (.sensorRate 25)
    { s with
      line := { clearedLine with assembly := assembly, gap := gap }
      panel := watch
      draw := { startedDraw with mode := .off }
      power :=
        { s.power with
          opState := .standby, progress := .none, idleTimer := none
          checkIn := if s.config.checkIn = 0 then none else some (s.within (s.config.checkIn * 3600000)) } }

/-- The idle timer follows the quiet condition while no standby entry is in progress (R171). -/
def keepIdle (s : Station) : Station :=
  if s.power.progress = .none then
    if s.quiet then
      if s.power.idleTimer.isSome then s
      else { s with power.idleTimer := some (s.within (s.config.idleTime * 1000)) }
    else { s with power.idleTimer := none }
  else s

/-- The standby check at the end of a command: the idle timer follows the quiet condition, a standby entry in progress
goes on or is abandoned (R171, R172; log entry 5). -/
def standbyCheck (s : Station) : Station :=
  match s.power.progress with
  | .none => keepIdle s
  | .waitingCommand => if !s.quiet then abandonStandby s else if s.noCommand then decideStandby s else s
  | .announcing => if !s.quiet then abandonStandby s else s
  | .waitingEntry => if !s.quiet then abandonStandby s else if s.noCommand then enterStandby s else s

/-- A WAKE for the station or for 63 taken in ACTIVE: a standby entry is abandoned, the idle timer restarts (R171,
R172). -/
def wakeInActive (s : Station) : Station := abandonStandby { s with power.idleTimer := none }

/-- The wake cause delivered in ACTIVE (R174). -/
def deliverWake (cause : WakeCause) (s : Station) : Station :=
  match cause with
  | .offHook => createOrigin .handset { s with panel.hook := .offHook }
  | .button => createOrigin .handsFree s
  | _ => s

/-- A wake cause in STANDBY: the wake, or the cause held while the main rail is absent (R174, R177). Of several
causes taken while the rail is absent the first is held, and each later one is dropped, so that an OFF_HOOK or BUTTON among
these makes no call request: the model's choice (log entry 52). The first settled hook level is the one that the hook watch
of STANDBY has, and a press that is held is disregarded (R111, R123; log entry 28). -/
def takeWake (cause : WakeCause) (s : Station) : Station :=
  if s.power.opState ≠ .standby then s
  else if !s.power.mainRail then
    { s with power.heldWake := some (s.power.heldWake.getD cause) }
  else
    let work := s.work
    let cabinet := s.cabinet
    let panel := { clearedPanel with hook := s.panel.hook, disregard := s.panel.disregard }
    let s := { clearBlocks s with cabinet := cabinet, work := work, panel := panel }
    deliverWake cause
      (enterActive
        { s with
          power :=
            { s.power with startCause := .wake, wakeCause := some cause, checkIn := none, heldWake := none } })

/-! ### Reload (R169) -/

/-- A bearer state of R169's idle condition: one in which the bearer holds work. -/
def BearerState.working : BearerState → Bool
  | .reserved => true
  | .dialing => true
  | .ringing => true
  | .inCall => true
  | .sending => true
  | .ending => true
  | _ => false

/-- The idle condition of a reload, but for a read in progress (R169). -/
def Station.reloadIdle (s : Station) : Bool :=
  s.call.origin.isNone && s.call.carriers.isEmpty && s.ownCircuit.isNone && s.reports.queue.isEmpty &&
    s.reports.relay.isEmpty && (s.fittedBearers.all fun l => !(s.bearer l).state.working) &&
    s.power.progress == .none

/-- A reload read remembers that the idle condition has failed since it began (R169). -/
def markReload (s : Station) : Station :=
  match s.power.reload with
  | some r => if s.reloadIdle then s else { s with power.reload := some { r with idleFailed := true } }
  | none => s

/-- The view's entries held by the new own address freed (R35). -/
def freeHeldBy (address : Option Nat) (s : Station) : Station :=
  allCircuits.foldl
    (fun t c =>
      match (t.entry c).holding with
      | some h => if some h.1 = address then setView c .free t else t
      | none => t)
    s

/-- The own round ends with a changed station address or segment code, and a request held behind it (R35; log entry
49). -/
def dropRound (s : Station) : Station :=
  { withdrawAttempt s with circuits.round := none, circuits.request := none }

/-- The directory, the view and the own round at a reload, each case with its recomputation of the effective count (R6, R7,
R35). -/
def reloadPicture (old new : Configuration) (wasMismatch : Bool) (s : Station) : Station :=
  if old.segment ≠ new.segment then
    { recomputeCount wasMismatch { dropRound s with directory.entries := [] } with circuits := clearedCircuits }
  else if old.address ≠ new.address then
    recount wasMismatch
      (freeHeldBy new.address
        (dropRound
          { s with
            directory.entries := s.directory.entries.filter fun e => some e.address != new.address }))
  else recount wasMismatch s

/-- The announcement causes of a reload (R12). -/
def reloadAnnounce (old new : Configuration) (s : Station) : Station :=
  let s := if old.segment ≠ new.segment then announceCause true s else s
  if old.announcePeriod ≠ new.announcePeriod ∨ old.circuits ≠ new.circuits then announceCause false s else s

/-- A valid record replaces the configuration copy; each block takes the new values (R169). Whether the station was in
circuit mismatch before the recomputation is judged by the old configured count: R7 does not say by which, where the reload
changes the count, and a reload that raises both counts may raise the fault so (log entry 50). -/
def applyReload (new : Configuration) (s : Station) : Station :=
  let old := s.config
  let wasMismatch := s.mismatched
  notingLendReady
    (fun s =>
      let s := reloadPicture old new wasMismatch { s with keep.config := some new }
      startFitted (unfit .b (unfit .a (reloadAnnounce old new s))))
    s

end Sys2Proof.Machine
end

