-- ==== Sys2Proof/Machine/Service.lean ====
section
/-! DEFINITION. The service responder: what it takes, and the STATUS frames it answers with (R180-R183, R186, 12.2). -/

namespace Sys2Proof.Machine

/-- Whether the responder takes a service frame (R181). -/
def Station.servesFrame (s : Station) (source dest : Byte) : Bool :=
  source.toNat == 0 &&
    (match s.power.opState with
    | .active => s.isOwn dest.toNat
    | .isolated => s.isOwn dest.toNat || dest.toNat == 63
    | .start => false
    | .standby => false)

/-- STATUS results (12.1). -/
inductive StatusResult where
  | content | noEntry | done | busy | rejected | unknown
deriving DecidableEq, Repr

/-- The code of a STATUS result (12.1). -/
def resultCode : StatusResult → Byte
  | .content => 0
  | .noEntry => 1
  | .done => 2
  | .busy => 3
  | .rejected => 4
  | .unknown => 5

/-- A STATUS frame to the service terminal: answered code, index, result, the stamp of the decision, content (R181,
12.2). -/
def answerService (segment : BitVec 16) (code index : Byte) (result : StatusResult) (content : List Byte)
    (s : Station) : Station :=
  handOver (.status ([code, index, resultCode result] ++ stampBytes s.now ++ content) segment) 0 s

/-- The answer to an order: its code is the order plus 128, its index 0 (12.2). -/
def answerOrder (segment : BitVec 16) (order : Nat) (result : StatusResult) (content : List Byte) :
    Station → Station := answerService segment (byte (order + 128)) 0 result content

/-! ### Contents (R182, 12.2) -/

/-- The content of a STATION answer (R182). -/
def Station.stationContent (s : Station) : List Byte :=
  [byte (opStateCode s.power.opState), byte (startCauseCode s.power.startCause), byte (wakeCauseCode s.power.wakeCause)]
    ++ be32 s.now.clock.toNat ++ be16 s.now.epoch.toNat ++
    [byte (progressCode s.power.progress), byte s.directory.effective, byte (yesNoCode s.lendReady)] ++
    be32 s.keep.tally.placed.toNat ++ be32 s.keep.tally.connected.toNat ++ be32 s.keep.tally.unplaced.toNat ++
    be32 s.keep.tally.withdrawn.toNat ++ be32 s.keep.tally.interrupted.toNat ++ be32 s.keep.tally.lent.toNat ++
    be32 s.keep.delivered.toNat ++ be32 s.keep.dropped.toNat

/-- The code of a fault kind (12.1). -/
def faultCode (k : FaultKind) : Nat := k.index.val + 1

/-- The content of a FAULTS answer; an absent last-fault record is coded 0 throughout (R182, 12.1). -/
def Faults.content (f : Faults) : List Byte :=
  classSetByte f.flags :: (allFaultKinds.map fun k => byte (f.counter k)) ++
    (match f.last with
    | some r => byte (faultCode r.1) :: stampBytes r.2
    | none => List.replicate 7 0)

/-- A directory entry in a DIRECTORY answer (12.2). -/
def PeerEntry.bytes (e : PeerEntry) : List Byte :=
  byte e.address ::
    (announceBytes (e.power == .standby) e.lendReady false e.period e.circuits e.summaries e.held ++
      stampBytes e.lastHeard)

/-- The bytes of a tag, 0 where absent. -/
def optTagBytes : Option Tag → List Byte
  | some t => tagBytes t
  | none => [0, 0, 0]

/-- The state code of a circuit entry: its position in R16. -/
def CircuitEntry.code : CircuitEntry → Nat
  | .free => 1
  | .contested _ _ => 2
  | .heldByPeer _ _ _ _ => 3
  | .heldOwn _ _ _ => 3

/-- The hold age of an entry, 0 where absent (R17). -/
def CircuitEntry.age (now : Stamp) : CircuitEntry → Nat
  | .heldByPeer _ _ start _ => holdAge now start
  | .heldOwn _ _ start => holdAge now start
  | _ => 0

/-- A circuit entry in a CIRCUITS answer (12.2). -/
def CircuitEntry.bytes (now : Stamp) (e : CircuitEntry) : List Byte :=
  [byte (e.code + 4 * e.own.toNat), byte ((e.holding.map (·.1)).getD 0)] ++ optTagBytes (e.holding.map (·.2)) ++
    be16 (e.age now)

/-- The content of a CIRCUITS answer (R182). -/
def Station.circuitsContent (s : Station) : List Byte :=
  byte s.directory.effective :: allCircuits.flatMap fun c => (s.entry c).bytes s.now

/-- Whole seconds to an expiry, the fraction dropped, 0 when it has come (R182 does not say how a fraction is rounded; log
entry 22). -/
def remainingSeconds (now expiry : Stamp) : Nat :=
  if Stamp.reached now expiry then 0 else Stamp.elapsed now expiry / 1000

/-- The content of a BEARER answer (12.2). -/
def Station.bearerContent (s : Station) (l : Letter) : List Byte :=
  let r := s.bearer l
  [byte (128 * (s.fitted l).toNat + 32 * r.grade + bearerStateCode r.state)] ++ be24 r.networkId ++
    [byte (r.owed + 8 * r.timeouts + 16 * r.powerCycles), byte r.failures
    , byte (r.networks.length + 16 * r.barred.length)] ++
    (r.networks.flatMap fun n => be32 (n.1 * 64 + n.2)) ++
    (r.barred.flatMap fun b => be32 (b.1 * 1024 + remainingSeconds s.now b.2))

/-- An entry in a QUEUES answer, without the repeat count (12.2). -/
def queueEntryBytes (r : Record) (state : Delivery) (attempts : Nat) : List Byte :=
  tagBytes r.tag ++ [byte (reportKindCode r.kind + 8 * deliveryCode state + 32 * attempts)]

/-- The content of a QUEUES answer for the report queue (R182). -/
def Station.reportContent (s : Station) : List Byte :=
  byte s.reports.queue.length ::
    s.reports.queue.flatMap fun e => queueEntryBytes e.record e.state e.attempts ++ [byte e.record.repeats]

/-- The content of a QUEUES answer for the relay queue (R182). -/
def Station.relayContent (s : Station) : List Byte :=
  byte s.reports.relay.length :: s.reports.relay.flatMap fun e => queueEntryBytes e.record e.state e.attempts

/-! ### Reload (R169, R183) -/

/-- The reload read ends with the record it read, or with none (R169, R183). -/
def endReload (record : Option Configuration) (s : Station) : Station :=
  match s.power.reload with
  | none => s
  | some r =>
    let s := { s with power.reload := none }
    match record with
    | none => answerOrder r.segment 3 .rejected [] (raise .configRejected s)
    | some c =>
      if r.idleFailed || !s.reloadIdle then answerOrder r.segment 3 .busy [] s
      else answerOrder r.segment 3 .done [] (applyReload c s)

/-- A RELOAD order (R169, R183). -/
def takeReload (segment : BitVec 16) (s : Station) : Station :=
  if s.power.reload.isSome || !s.reloadIdle then answerOrder segment 3 .busy [] s
  else if s.onBuiltIn then warmReset s
  else { s with power.reload := some { limit := s.within 500, segment := segment, idleFailed := false } }

end Sys2Proof.Machine
end

