-- ==== Sys2Proof/Machine/Settle.lean ====
section
/-! DEFINITION. How one command settles: the notices between blocks taken in turn, the standing conditions kept, the
transmit side served (log entries 4, 5), and the way a received frame is judged (R142-R145). -/

namespace Sys2Proof.Machine

/-! ### Draws delivered to their consumers (R161) -/

/-- A draw delivered to its consumer (R14, R26, R149). -/
def deliverDraw (c : Consumer) (draw : Nat) (s : Station) : Station :=
  match c with
  | .line => lineDraw draw s
  | .circuit => claimDraw draw s
  | .reply => replyDraw draw s

/-- Draws delivered in turn. -/
def deliverDraws (l : List (Consumer × Nat)) (s : Station) : Station :=
  l.foldl (fun t d => deliverDraw d.1 d.2 t) s

/-! ### Notices between blocks (log entry 4) -/

/-- A notice of the arbiter reaches its claimant (R50). -/
def takeNotice (who : Claimant) (l : Letter) (n : Notice) (s : Station) : Station :=
  match who with
  | .origin t => originNotice t l n s
  | .carrier t => carrierNotice t l n s
  | .report t => reportNotice t n s
  | .relay t => relayNotice t n s

/-- Whether the origin context of a tag acts in the manner of a phase. -/
def Station.originIn (s : Station) (tag : Tag) (phase : Phase) : Bool :=
  match s.call.origin with
  | some o => o.tag == tag && o.activity == phase
  | none => false

/-- The circuit unit reports the held circuit: the schedule begins, a lender is chosen (R71, R91). -/
def roundIsWon (tag : Tag) (s : Station) : Station :=
  if s.originIn tag .claiming then
    chooseLender (updOrigin (fun o => { o with schedule := some (s.within 5000) }) s)
  else s

/-- A change of the directory reaches a context in WAKING (R75). -/
def directoryReported (s : Station) : Station :=
  match s.call.origin with
  | some o =>
    if o.activity = .waking then
      match s.ranking o.tried with
      | l :: _ => askLender l s
      | [] => s
    else s
  | none => s

/-- A refused LOCAL_VOICE claim's borrowed route (R68). -/
def borrowAfterRefusal (tag : Tag) (s : Station) : Station :=
  if s.originHas tag && !s.originIn tag .ending then borrowRoute s else s

/-- An off-hook held until the context ended (R112). -/
def originHasEnded (s : Station) : Station :=
  if s.panel.deferred then
    let s := { s with panel.deferred := false }
    if s.panel.hook = .offHook then createOrigin .handset s else s
  else s

/-- One notice taken. -/
def takeTask (t : Task) (s : Station) : Station :=
  match t with
  | .notice who l n => takeNotice who l n s
  | .bearerChanged => decideRelay (decideReports s)
  | .bearerAvailable l => decideWaiting l s
  | .roundWon tag => roundIsWon tag s
  | .roundFailed tag _ => if s.originIn tag .claiming then endOfRound s else s
  | .yielded tag => if s.originHas tag then circuitYielded s else s
  | .circuitChanged c e => circuitWatch c e s
  | .claimDropped f => ownClaimDropped f s
  | .announceDropped standby => announceWasDropped standby s
  | .directoryChanged => directoryReported s
  | .select tag => if s.originIn tag .selecting then selectRoute s else s
  | .borrow tag => borrowAfterRefusal tag s
  | .decideReports => decideReports s
  | .decideRelay => decideRelay s
  | .originEnded => originHasEnded s
  | .wake cause => takeWake cause s

/-- Notices taken in turn, oldest first, at most as many as given (log entry 4). -/
def drain : Nat → Station → Station
  | 0, s => s
  | n + 1, s =>
    match s.work with
    | [] => s
    | t :: rest => drain n (takeTask t { s with work := rest })

/-- The standing conditions kept: the stall check, a reload's idle condition, the standby check (R134, R169, R171). -/
def upkeep (s : Station) : Station := standbyCheck (markReload (keepStall s))

/-- What every command ends with: the notices, the standing conditions, the notices these caused (the drop of a STANDBY
ANNOUNCE, after which the idle timer may start again: R172), the transmit side. -/
def finish (s : Station) : Station := pump (keepIdle (drain 128 (upkeep (drain 256 s))))

/-- Whether the station runs: the keep rail is present and it is not held in reset (R177). -/
def Station.running (s : Station) : Bool := s.power.keepRail && !s.power.held

/-- The outputs of the last command gone, and no notice left over (log entry 4). -/
def freshOut (s : Station) : Station := { s with out := [], work := [] }

/-- An event taken by a running station, and everything that follows from it; a station without its keep rail or held in
reset takes nothing (R177; log entry 7). -/
def takeEvent (f : Station → Station) (s : State) : Host.Outcome State Fault Refusal :=
  .next
    { s with
      station := if s.station.running then finish (f (freshOut s.station)) else freshOut s.station }

/-- The expiry of a timer that runs: the clock is brought to its deadline, then its effect; an expiry of a timer that does
not run has none (log entry 2). -/
def takeExpiry (timer : Station → Timer) (f : Station → Station) (s : State) : Host.Outcome State Fault Refusal :=
  takeEvent
    (fun s =>
      match timer s with
      | some deadline => f (catchUp deadline s)
      | none => s)
    s

/-! ### Received frames (R142-R145, R155, R156) -/

/-- Check 2 of R143: the segment code. A station without one skips it for QUERY and SERVICE_ORDER and discards every other
frame. -/
def Station.segmentOk (s : Station) (kind : Nat) (f : RxFrame) : Bool :=
  match s.config.segment with
  | some g => f.segment == g
  | none => kind == 11 || kind == 13

/-- Check 4 of R143, as far as every frame has it (R186). -/
def frameAddressesDefined (f : RxFrame) : Bool := addressDefined f.source && addressDefined f.dest

/-- A whole frame is taken from the line: the checks in their order, then what its owners do with it (R142-R145). While
this station transmits, or the assembly skips, no frame is assembled (R142; log entry 10). -/
def receiveFrame (kind : Nat) (f : RxFrame) (owners : Station → Station) (s : Station) : Station :=
  if s.transmitting || s.line.assembly == .skipping then s
  else
    let s := { s with line.assembly := .skipping, line.gap := false }
    if !frameCheckOk kind f then raise .frameCheck s
    else if s.power.opState = .start || !s.segmentOk kind f then s
    else if s.power.opState == .active && s.isOwn f.source.toNat then addressClash s
    else if frameAddressesDefined f then owners s
    else s

/-- A frame of a kind that peers send: taken in ACTIVE, not from the service terminal; its body's form is judged, the
directory entry refreshed, and its owners take it (R4, R144, R186). -/
def fromPeer {α : Type} (f : RxFrame) (read : List Byte → Option α) (owners : α → Station → Station) (s : Station) :
    Station :=
  if s.power.opState = .active ∧ f.source ≠ 0 then
    match read f.body with
    | some b => owners b (refreshPeer f.source.toNat s)
    | none => s
  else s

/-- An owner that takes a frame only when it is addressed to this station (R144). -/
def whenAddressed (f : RxFrame) (op : Station → Station) (s : Station) : Station :=
  if s.isOwn f.dest.toNat then op s else s

/-- A peer's frame whose owner takes it when addressed (R144). -/
def takeAddressed {α : Type} (kind : Nat) (f : RxFrame) (read : List Byte → Option α)
    (owner : α → Station → Station) : State → Host.Outcome State Fault Refusal :=
  takeEvent (receiveFrame kind f (fromPeer f read fun b => whenAddressed f (owner b)))

/-- A service frame with its answer: selector or order, and index or class set (R181, R186). -/
def takeService (kind : Nat) (f : RxFrame) (respond : Byte → Byte → Station → Station) :
    State → Host.Outcome State Fault Refusal :=
  takeEvent
    (receiveFrame kind f fun s =>
      match readService f.body with
      | some b => if s.servesFrame f.source f.dest then respond b.1 b.2 s else s
      | none => s)

end Sys2Proof.Machine
end

