-- ==== Sys2Proof/Machine/BearerRows.lean ====
section
/-! DEFINITION. The commands that bring indications from the bearer ports, and the bearers' timers (R36-R62, R188). -/

namespace Sys2Proof.Machine

/-- An indication taken where the port's bearer is fitted and its record passes the test of R37; discarded else (R36,
R37). -/
def takeIndication (l : Letter) (test : Bearer → Bool) (f : Station → Station) :
    State → Host.Outcome State Fault Refusal :=
  takeEvent fun s => if s.fitted l && test (s.bearer l) then f s else s

/-- Whether the command in flight is the one given. -/
def Bearer.flies (r : Bearer) (c : Command) : Bool :=
  match r.inFlight with
  | some f => f.command == c
  | none => false

/-- READY in STARTING (R39). -/
def execReady (bearer : Letter) (s : State) : Host.Outcome State Fault Refusal :=
  takeIndication bearer (fun r => r.state == .starting)
    (fun s => goSearching bearer (setBearer bearer { s.bearer bearer with timeouts := 0, powerCycles := 0 } s)) s

/-- SCAN_RESULT in SEARCHING (R40, R41). -/
def execScanResult (bearer : Letter) (networks : List ScanItem) (s : State) : Host.Outcome State Fault Refusal :=
  takeIndication bearer (fun r => r.state == .searching)
    (fun s =>
      chooseNetwork bearer
        (setBearer bearer { s.bearer bearer with timeouts := 0, networks := networkList networks } s))
    s

/-- CAMPED in CAMPING: AVAILABLE, the re-check timer started (R41, R47). The grade that the record gains and the class that
AVAILABLE brings are handed over one each, where R12 does not say it (log entry 56). -/
def campedHere (l : Letter) (network level : Nat) (s : Station) : Station :=
  goAvailable l
    (putBearer l
      { s.bearer l with
        timeouts := 0, camped := some (network, level), owed := 0
        recheck := some (s.within (recheckMs (gradeOfLevel level))) }
      s)

/-- CAMPED during a re-camp: DIAL sent again with a fresh limit (R57). -/
def recamped (l : Letter) (network level : Nat) (s : Station) : Station :=
  sendDial l (putBearer l { s.bearer l with timeouts := 0, camped := some (network, level) } s)

/-- CAMPED naming the network of the CAMP in flight (R37, R41, R57). -/
def execCamped (bearer : Letter) (network : BitVec 24) (level : Byte) (s : State) :
    Host.Outcome State Fault Refusal :=
  takeIndication bearer
    (fun r =>
      (r.state == .camping || r.state == .dialing) && r.flies (.camp network.toNat) && level.toNat ≤ 63)
    (fun s =>
      if (s.bearer bearer).state = .camping then campedHere bearer network.toNat level.toNat s
      else recamped bearer network.toNat level.toNat s)
    s

/-- LEVEL in CHECKING (R37, R48). -/
def execLevel (bearer : Letter) (level : Byte) (s : State) : Host.Outcome State Fault Refusal :=
  takeIndication bearer (fun r => r.state == .checking && r.flies .status && level.toNat ≤ 63)
    (fun s =>
      let r := s.bearer bearer
      goAvailable bearer
        (putBearer bearer { r with timeouts := 0, camped := r.camped.map fun n => (n.1, level.toNat) } s))
    s

/-- PROGRESS in DIALING (R56). -/
def execProgress (bearer : Letter) (s : State) : Host.Outcome State Fault Refusal :=
  takeIndication bearer (fun r => r.state == .dialing && r.dialInFlight)
    (fun s =>
      notify bearer .ringing (putBearer bearer { s.bearer bearer with timeouts := 0, state := .ringing } s))
    s

/-- ANSWERED in DIALING and RINGING, during a re-camp too: no command is in flight after it (R37, R56; log entry 18). -/
def execAnswered (bearer : Letter) (s : State) : Host.Outcome State Fault Refusal :=
  takeIndication bearer (fun r => r.state == .dialing || r.state == .ringing)
    (fun s =>
      notify bearer .answered
        (putBearer bearer
          { s.bearer bearer with timeouts := 0, state := .inCall, inFlight := none, dialLimit := none } s))
    s

/-- ENDED with the DIAL in flight (R56, R57, R62). -/
def dialEnded (l : Letter) (reason : EndReason) (s : Station) : Station :=
  let s := clearTimeouts l s
  match reason with
  | .remoteHangup => goSettling l (notify l .dialFailed s)
  | .networkLost => networkLost l s
  | .rejected => dialRejected l s

/-- ENDED in IN_CALL (R58, R62). -/
def callEnded (l : Letter) (reason : EndReason) (s : Station) : Station :=
  match reason with
  | .networkLost => networkLost l s
  | .remoteHangup => goSettling l (notify l .farEnd s)
  | .rejected => goSettling l (notify l .farEnd s)

/-- ENDED that answers a HANGUP; NETWORK_LOST has the effect of a LOST first (R60, R62). -/
def hangUpEnded (l : Letter) (reason : EndReason) (s : Station) : Station :=
  let s := clearTimeouts l s
  hangUpAnswered l (if reason = .networkLost then networkLost l s else s)

/-- ENDED (R37, R56-R58, R60, R62). -/
def execEnded (bearer : Letter) (reason : EndReason) (s : State) : Host.Outcome State Fault Refusal :=
  takeIndication bearer (fun r => r.dialInFlight || r.state == .inCall || r.state == .ending)
    (fun s =>
      match (s.bearer bearer).state with
      | .inCall => callEnded bearer reason s
      | .ending => hangUpEnded bearer reason s
      | _ => dialEnded bearer reason s)
    s

/-- REPORT_SENT in SENDING (R59). -/
def execReportSent (bearer : Letter) (s : State) : Host.Outcome State Fault Refusal :=
  takeIndication bearer (fun r => r.state == .sending)
    (fun s => goSettling bearer (notify bearer .reportSent (clearTimeouts bearer s))) s

/-- REPORT_FAILED in SENDING, and in ENDING as the answer to the HANGUP (R59, R60). -/
def execReportFailed (bearer : Letter) (s : State) : Host.Outcome State Fault Refusal :=
  takeIndication bearer (fun r => r.state == .sending || r.state == .ending)
    (fun s =>
      let t := clearTimeouts bearer s
      if (s.bearer bearer).state = .ending then hangUpAnswered bearer t
      else goSettling bearer (notify bearer .reportFailed t))
    s

/-- LOST (R37, R62). -/
def execLost (bearer : Letter) (s : State) : Host.Outcome State Fault Refusal :=
  takeIndication bearer (fun _ => true) (networkLost bearer) s

/-- FAULT (R45). -/
def execFault (bearer : Letter) (s : State) : Host.Outcome State Fault Refusal :=
  takeIndication bearer (fun r => r.state != .off && r.state != .failed && r.state != .failedHeld)
    (enterFailed bearer) s

/-- UNDECODABLE_INDICATION: discarded without effect (R37, R188). -/
def execUndecodableIndication (bearer : Letter) (_kind : Byte) (_params : List Byte) (s : State) :
    Host.Outcome State Fault Refusal :=
  takeIndication bearer (fun _ => true) (fun s => s) s

/-- How a bearer goes on after a command timeout that does not send it to FAILED (R44). -/
def afterTimeout (l : Letter) (c : Command) (s : Station) : Station :=
  match c with
  | .powerUp => sendCommand l .powerUp (s.bearer l) s
  | .scan => sendCommand l .scan (s.bearer l) s
  | .camp _ => if (s.bearer l).state = .dialing then recampFailed l s else goSearching l s
  | .status => goAvailable l s
  | .hangup => hangUpAnswered l s
  | .sendReport => hangUp l (notify l .reportFailed s)
  | .dial => s
  | .powerDown => s

/-- A command's timeout has expired (R44). -/
def commandTimedOut (l : Letter) (c : Command) (s : Station) : Station :=
  let s := raise .bearerTimeout s
  let r : Bearer := { s.bearer l with inFlight := none }
  if 2 ≤ r.timeouts + 1 then enterFailed l (setBearer l { r with timeouts := 0 } s)
  else afterTimeout l c (setBearer l { r with timeouts := r.timeouts + 1 } s)

/-- COMMAND_TIMEOUT (R44). -/
def execCommandTimeout (bearer : Letter) (s : State) : Host.Outcome State Fault Refusal :=
  takeExpiry (fun s => (s.bearer bearer).inFlight.bind fun f => f.timeout)
    (fun s =>
      match (s.bearer bearer).inFlight with
      | some f => commandTimedOut bearer f.command s
      | none => s)
    s

/-- DIAL_ANSWER_LIMIT_EXPIRY (R56). -/
def execDialAnswerLimitExpiry (bearer : Letter) (s : State) : Host.Outcome State Fault Refusal :=
  takeExpiry (fun s => (s.bearer bearer).dialLimit) (fun s => hangUp bearer (notify bearer .noAnswer s)) s

/-- RESCAN_TIMER_EXPIRY (R41). -/
def execRescanTimerExpiry (bearer : Letter) (s : State) : Host.Outcome State Fault Refusal :=
  takeExpiry (fun s => (s.bearer bearer).rescan) (goSearching bearer) s

/-- BAR_EXPIRY: the entry leaves the barred list (R42). -/
def execBarExpiry (bearer : Letter) (network : Nat) (s : State) : Host.Outcome State Fault Refusal :=
  takeExpiry (fun s => ((s.bearer bearer).barred.find? fun b => b.1 == network).map (·.2))
    (fun s =>
      let r := s.bearer bearer
      setBearer bearer { r with barred := r.barred.filter fun b => b.1 != network } s)
    s

/-- A RECHECK claim decided by its bearer's state (R47). -/
def recheckClaim (l : Letter) (s : Station) : Station :=
  match (s.bearer l).state with
  | .available => goChecking l s
  | .reserved => setBearer l (s.bearer l).owing s
  | .dialing => setBearer l (s.bearer l).owing s
  | .ringing => setBearer l (s.bearer l).owing s
  | .inCall => setBearer l (s.bearer l).owing s
  | .sending => setBearer l (s.bearer l).owing s
  | .ending => setBearer l (s.bearer l).owing s
  | .settling => setBearer l (s.bearer l).owing s
  | _ => s

/-- RECHECK_TIMER_EXPIRY: the timer starts again for the present grade, a RECHECK claim arrives (R47). -/
def execRecheckTimerExpiry (bearer : Letter) (s : State) : Host.Outcome State Fault Refusal :=
  takeExpiry (fun s => (s.bearer bearer).recheck)
    (fun s =>
      let r := s.bearer bearer
      recheckClaim bearer (setBearer bearer { r with recheck := some (s.within (recheckMs r.grade)) } s))
    s

/-- FAILURE_WAIT_EXPIRY: the power-cycle count increments, the module is powered up again (R45). -/
def execFailureWaitExpiry (bearer : Letter) (s : State) : Host.Outcome State Fault Refusal :=
  takeExpiry (fun s => (s.bearer bearer).failureWait)
    (fun s =>
      let r := s.bearer bearer
      startBearer bearer (setBearer bearer { r with powerCycles := r.powerCycles + 1 } s))
    s

/-- How a bearer goes on when its settling guard expires (R61). -/
def settled (l : Letter) (s : Station) : Station :=
  let r := s.bearer l
  match r.camped with
  | none => goSearching l s
  | some n => if r.bars n.1 then chooseNetwork l s else if 0 < r.owed then goChecking l s else goAvailable l s

/-- SETTLING_GUARD_EXPIRY (R61). -/
def execSettlingGuardExpiry (bearer : Letter) (s : State) : Host.Outcome State Fault Refusal :=
  takeExpiry (fun s => (s.bearer bearer).settle)
    (fun s => settled bearer (setBearer bearer { s.bearer bearer with settle := none } s)) s

end Sys2Proof.Machine
end

