-- ==== Sys2Proof/Machine/CallRows.lean ====
section
/-! DEFINITION. The expiries of the call engine's timers (R73, R75-R79, R91, R94, R96, R102). -/

namespace Sys2Proof.Machine

/-- The timer of the origin context while it acts in the manner of a phase (R66, R100). -/
def Station.phaseTimer (phase : Phase) (s : Station) : Timer :=
  match s.call.origin with
  | some o => if o.activity = phase then o.activityDeadline else none
  | none => none

/-- The lender in the origin context's carrier field is passed over, after a CLEAR with a reason where one goes to it
(R73, R76). -/
def passOverCarrier (reason : Option ClearReason) (s : Station) : Station :=
  match s.call.origin with
  | none => s
  | some o =>
    match o.carrier.lender with
    | none => s
    | some l =>
      passOver l
        (match reason with
        | some r => clearPartner o.tag r l s
        | none => s)

/-- ANSWER_TIMEOUT_EXPIRY (R73). -/
def execAnswerTimeoutExpiry (s : State) : Host.Outcome State Fault Refusal :=
  takeExpiry (Station.phaseTimer .asking) (passOverCarrier none) s

/-- WAKE_ALLOWANCE_EXPIRY: the woken station joins the tried list (R75). -/
def execWakeAllowanceExpiry (s : State) : Host.Outcome State Fault Refusal :=
  takeExpiry (Station.phaseTimer .waking)
    (fun s => chooseLender (updOrigin (fun o => o.tryAddress o.woken) s)) s

/-- AWAITING_CONNECT_EXPIRY: CLEAR(NO_ANSWER) to the carrier, the lender chosen again (R76). -/
def execAwaitingConnectExpiry (s : State) : Host.Outcome State Fault Refusal :=
  takeExpiry (Station.phaseTimer .awaitingConnect) (passOverCarrier (some .noAnswer)) s

/-- PAUSE_EXPIRY: a new round, the tried list and the local-tried flag cleared (R77). -/
def execPauseExpiry (s : State) : Host.Outcome State Fault Refusal :=
  takeExpiry (Station.phaseTimer .paused)
    (fun s =>
      match s.call.origin with
      | some o =>
        post (.select o.tag)
          (enterPhase .selecting none (updOrigin (fun o => { o with tried := [], localTried := false }) s))
      | none => s)
    s

/-- SETUP_DEADLINE_EXPIRY: the call is unplaced (R79). -/
def execSetupDeadlineExpiry (s : State) : Host.Outcome State Fault Refusal :=
  takeExpiry (fun s => s.call.origin.bind fun o => o.setupDeadline) unplaced s

/-- The origin's partner silence (R76, R94, R99). -/
def originSilent (s : Station) : Station :=
  let s := raise .partnerLost s
  match s.call.origin with
  | none => s
  | some o =>
    if o.activity = .connected then carrierLost (some .partnerSilent) false s
    else passOverCarrier (some .partnerSilent) s

/-- PARTNER_SILENCE at the origin (R94). -/
def execPartnerSilence (s : State) : Host.Outcome State Fault Refusal :=
  takeExpiry (fun s => s.call.origin.bind fun o => o.silenceDeadline) originSilent s

/-- CARRIER_PARTNER_SILENCE (R96). -/
def execCarrierPartnerSilence (tag : Tag) (s : State) : Host.Outcome State Fault Refusal :=
  takeExpiry (fun s => (s.carrier? tag).bind fun k => k.silenceDeadline)
    (fun s =>
      match s.carrier? tag with
      | some k => carrierSilent k s
      | none => s)
    s

/-- The CALL_STATUS schedule of a context (R91). -/
def Station.scheduleOf (s : Station) : ContextRef → Timer
  | .origin => s.call.origin.bind fun o => o.schedule
  | .carrier t => (s.carrier? t).bind fun k => k.schedule

/-- A CALL_STATUS handed over at its schedule, unless one of the context has not begun transmission (R91). -/
def queueStatus (body : TxBody) (dest : Nat) (s : Station) : Station :=
  if s.queued fun g => g.body == body && !g.begun then s else handOver body dest s

/-- The schedule starts again, and a CALL_STATUS is queued (R91). -/
def statusDue (context : ContextRef) (s : Station) : Station :=
  match context with
  | .origin =>
    match s.call.origin with
    | some o =>
      queueStatus (.callStatusOrigin o.tag) o.partner
        (updOrigin (fun o => { o with schedule := some (s.within 5000) }) s)
    | none => s
  | .carrier t =>
    match s.carrier? t with
    | some k =>
      queueStatus (.callStatusCarrier t k.circuit) t.origin
        (updCarrier t (fun k => { k with schedule := some (s.within 5000) }) s)
    | none => s

/-- CALL_STATUS_SCHEDULE_EXPIRY (R91). -/
def execCallStatusScheduleExpiry (context : ContextRef) (s : State) : Host.Outcome State Fault Refusal :=
  takeExpiry (fun s => s.scheduleOf context) (statusDue context) s

/-- The recovery limit (R99). -/
def Station.recoveryLimit (s : Station) : Timer :=
  match s.call.origin with
  | some o => if o.phase = .recovering then o.phaseDeadline else none
  | none => none

/-- RECOVERY_LIMIT_EXPIRY: the recovery fails (R102). -/
def execRecoveryLimitExpiry (s : State) : Host.Outcome State Fault Refusal :=
  takeExpiry Station.recoveryLimit recoveryFails s

end Sys2Proof.Machine
end

