-- ==== Sys2Proof/Machine/FrameRows.lean ====
section
/-! DEFINITION. The commands that bring whole frames from the corridor line, but for the service frames (R142-R145), and
the timers of the directory, the announcing and the circuit view. -/

namespace Sys2Proof.Machine

/-- ANNOUNCE: filed, a holding statement, and a solicit (R3, R14, R21). R144 has the directory and the circuit unit take the
frame independently and gives no order; that it is filed and the effective count recomputed first, that the holding statement
comes next and the solicit last, is the model's choice (log entry 57). -/
def takeAnnounceFrame (source : Nat) (b : AnnounceBody) (s : Station) : Station :=
  let s := fileAnnounce source b s
  let s :=
    match b.held with
    | some h => if b.fileable then takeHolding source h.circuit h.tag h.age s else s
    | none => s
  if b.solicit && s.isPeer source then takeSolicit s else s

/-- ANNOUNCE. -/
def execAnnounce (f : RxFrame) (s : State) : Host.Outcome State Fault Refusal :=
  takeEvent
    (receiveFrame 1 f fun s =>
      if s.power.opState = .active ∧ f.source ≠ 0 then
        match readAnnounce f.body with
        | some b => takeAnnounceFrame f.source.toNat b s
        | none => s
      else s)
    s

/-- PEER_AGEING_EXPIRY: the entry of an address is removed (R5). -/
def execPeerAgeingExpiry (address : Nat) (s : State) : Host.Outcome State Fault Refusal :=
  takeExpiry
    (fun s => (s.directory.entries.find? fun e => e.address == address).map fun e => e.deadline)
    (agePeer address) s

/-- ANNOUNCE_PERIOD_EXPIRY: an ACTIVE ANNOUNCE is queued (R12). -/
def execAnnouncePeriodExpiry (s : State) : Host.Outcome State Fault Refusal :=
  takeExpiry (·.announcing.period) (fun s => announceCause false { s with announcing.period := none }) s

/-- The deadline of a solicit reply's delay (R14). -/
def Reply.deadline : Reply → Timer
  | .delay d => some d
  | _ => Option.none

/-- SOLICIT_REPLY_DELAY_EXPIRY: the pending reply ends, an ANNOUNCE is queued (R14). -/
def execSolicitReplyDelayExpiry (s : State) : Host.Outcome State Fault Refusal :=
  takeExpiry (·.announcing.reply.deadline) (fun s => announceCause false { s with announcing.reply := .none }) s

/-- CLAIM (R18). -/
def execClaim (f : RxFrame) (s : State) : Host.Outcome State Fault Refusal :=
  takeEvent
    (receiveFrame 3 f
      (fromPeer f readClaim fun b => takeClaim f.source.toNat b.circuit b.tag b.draw))
    s

/-- When the contest of a circuit closes (R18, R20). -/
def CircuitEntry.contestDeadline : CircuitEntry → Timer
  | .contested _ start => some (Stamp.later start 250)
  | _ => none

/-- When a circuit's orphan limit expires (R25). -/
def CircuitEntry.orphanDeadline : CircuitEntry → Timer
  | .heldByPeer _ _ _ refreshed => some (Stamp.later refreshed 20000)
  | _ => none

/-- CONTEST_TIMER_EXPIRY: the contest closes (R20). -/
def execContestTimerExpiry (circuit : Fin 6) (s : State) : Host.Outcome State Fault Refusal :=
  takeExpiry (fun s => (s.entry circuit).contestDeadline) (closeContest circuit) s

/-- ORPHAN_LIMIT_EXPIRY: the entry becomes FREE (R25). -/
def execOrphanLimitExpiry (circuit : Fin 6) (s : State) : Host.Outcome State Fault Refusal :=
  takeExpiry (fun s => (s.entry circuit).orphanDeadline) (setEntry circuit .free) s

/-- CALL_STATUS at its owners: a holding statement, and the call engine's supervision when addressed (R21, R74, R76, R84,
R92, R95). -/
def takeCallStatusFrame (f : RxFrame) (b : CallStatusBody) (s : Station) : Station :=
  let source := f.source.toNat
  let s := if b.role = .origin then takeHolding source b.circuit b.tag b.age s else s
  whenAddressed f
    (fun s =>
      if s.isOwn b.tag.origin then
        if b.role = .carrier then takeCarrierStatus source b.tag b.phase s else s
      else takeOriginStatus source b.tag s)
    s

/-- CALL_STATUS. -/
def execCallStatus (f : RxFrame) (s : State) : Host.Outcome State Fault Refusal :=
  takeEvent (receiveFrame 4 f (fromPeer f readCallStatus (takeCallStatusFrame f))) s

/-- BORROW of kind VOICE (R82). -/
def execBorrowVoice (f : RxFrame) (s : State) : Host.Outcome State Fault Refusal :=
  takeAddressed 5 f readBorrowVoice (takeBorrow f.source.toNat) s

/-- BORROW of kind REPORT (R138). -/
def execBorrowReport (f : RxFrame) (s : State) : Host.Outcome State Fault Refusal :=
  takeAddressed 5 f readBorrowReport (fun r => takeReportBorrow f.source.toNat r) s

/-- LEND with a call tag (R73, R74). -/
def execLendCall (f : RxFrame) (s : State) : Host.Outcome State Fault Refusal :=
  takeAddressed 6 f readLendCall (takeLend f.source.toNat) s

/-- LEND with a report tag (R136). -/
def execLendReport (f : RxFrame) (s : State) : Host.Outcome State Fault Refusal :=
  takeAddressed 6 f readLendReport (reportLent f.source.toNat) s

/-- DECLINE with a call tag (R73, R74). -/
def execDeclineCall (f : RxFrame) (s : State) : Host.Outcome State Fault Refusal :=
  takeAddressed 7 f (readDecline 1) (takeDecline f.source.toNat) s

/-- DECLINE with a report tag (R136). -/
def execDeclineReport (f : RxFrame) (s : State) : Host.Outcome State Fault Refusal :=
  takeAddressed 7 f (readDecline 2) (reportDeclined f.source.toNat) s

/-- CONNECTED (R74, R76, R92). -/
def execConnected (f : RxFrame) (s : State) : Host.Outcome State Fault Refusal :=
  takeAddressed 8 f readConnected (takeConnected f.source.toNat) s

/-- CLEAR at its owners: the view, and the call engine when addressed (R24, R74, R76, R87, R92, R95). -/
def takeClearFrame (f : RxFrame) (b : ClearBody) (s : Station) : Station :=
  let source := f.source.toNat
  let s := takeClearIntoView source b.circuit b.tag s
  whenAddressed f
    (fun s =>
      if s.isOwn b.tag.origin then takeCarrierClear source b.tag b.reason s else takeOriginClear source b.tag s)
    s

/-- CLEAR. -/
def execClear (f : RxFrame) (s : State) : Host.Outcome State Fault Refusal :=
  takeEvent (receiveFrame 9 f (fromPeer f readClear (takeClearFrame f))) s

/-- WAKE at the power unit, in ACTIVE and in STANDBY, for the station's address or 63 (R144, R155, R171-R174). -/
def takeWakeFrame (f : RxFrame) (s : Station) : Station :=
  if f.source ≠ 0 ∧ (readWake f.body).isSome then
    let s := if s.power.opState = .active then refreshPeer f.source.toNat s else s
    if s.isOwn f.dest.toNat || f.dest.toNat == 63 then
      if s.power.opState = .active then wakeInActive s
      else if s.power.opState = .standby then post (.wake .wakeFrame) s
      else s
    else s
  else s

/-- WAKE. -/
def execWakeFrame (f : RxFrame) (s : State) : Host.Outcome State Fault Refusal :=
  takeEvent (receiveFrame 2 f (takeWakeFrame f)) s

/-- REPORT_RESULT (R137). -/
def execReportResult (f : RxFrame) (s : State) : Host.Outcome State Fault Refusal :=
  takeAddressed 10 f readResult (takeResult f.source.toNat) s

/-- STATUS: it only refreshes the sender's entry (R4, R144). -/
def execStatus (f : RxFrame) (s : State) : Host.Outcome State Fault Refusal :=
  takeEvent (receiveFrame 12 f (fromPeer f readStatus fun _ s => s)) s

/-- UNKNOWN_FRAME_KIND: the checks of R143, then the silent discard (R143, R145, R186). -/
def execUnknownFrameKind (kind : Byte) (f : RxFrame) (s : State) : Host.Outcome State Fault Refusal :=
  takeEvent (receiveFrame kind.toNat f fun s => s) s

end Sys2Proof.Machine
end

