-- ==== Sys2Proof/Machine/LineRows.lean ====
section
/-! DEFINITION. The commands of the corridor line itself and of the noise source (R142, R148-R153, R158-R160). -/

namespace Sys2Proof.Machine

/-- MALFORMED_FRAME: discarded, SKIPPING (R142). -/
def execMalformedFrame (_count : Byte) (s : State) : Host.Outcome State Fault Refusal :=
  takeEvent
    (fun s =>
      if s.transmitting then s else { s with line.assembly := .skipping, line.gap := false })
    s

/-- IDLE_GAP: the assembly enters SEEKING, a runt is discarded; a paused backoff resumes, and an attempt whose count is 0
starts at the end of the command (R142, R150). -/
def execIdleGap (s : State) : Host.Outcome State Fault Refusal :=
  takeEvent
    (fun s => if s.transmitting then s else { s with line.assembly := .seeking, line.gap := true }) s

/-- LINE_BUSY: the countdown pauses; in SEEKING a frame begins (R142, R150). -/
def execLineBusy (s : State) : Host.Outcome State Fault Refusal :=
  takeEvent
    (fun s =>
      if s.transmitting then s
      else
        { s with
          line.gap := false
          line.assembly := if s.line.assembly = .seeking then .assembling else s.line.assembly })
    s

/-- BACKOFF_SLOT: the slot count falls by one; at 0 the attempt starts at the end of the command (R150). -/
def execBackoffSlot (s : State) : Host.Outcome State Fault Refusal := takeEvent countSlot s

/-- COLLISION (R151, R152). -/
def execCollision (s : State) : Host.Outcome State Fault Refusal := takeEvent attemptCollided s

/-- The completion of an ANNOUNCE at the peer directory and the power unit (R12-R14, R153, R172). A new ANNOUNCE that a mark
queues is handed over once this one has left, since the queue holds one at most (R13, R146; log entry 48). -/
def completed (f : TxFrame) (standby : Bool) (s : Station) : Station :=
  match f.body with
  | .announce standbyNow _ =>
    let s := announceCompleted standbyNow s
    if standby ∧ s.power.progress = .announcing then { s with power.progress := .waitingEntry } else s
  | _ => s

/-- The completed frame leaves the queue (R153). -/
def frameLeaves (s : Station) : Station := { s with line.service := none }

/-- TRANSMISSION_COMPLETE: the owner is told, a CLAIM's while the frame is still one of those the queue holds, the frame
leaves the queue, the next frame enters service (R28, R153). -/
def execTransmissionComplete (s : State) : Host.Outcome State Fault Refusal :=
  takeEvent
    (fun s =>
      match s.line.service with
      | some ⟨f, .attempting _ standby⟩ => completed f standby (frameLeaves (ownClaimTaken f.body (attemptEnded s)))
      | _ => s)
    s

/-! ### The noise source (R158-R160, R163) -/

/-- LATCHED entered, the waiting requests served (R159, R163). -/
def latch (s : Station) : Station := deliverDraws (enterLatched s).1 (enterLatched s).2

/-- The repetition test fails: the failure counts against the current window and latches a source that is not LATCHED
(R158, R159). -/
def failRepetition (s : Station) : Station :=
  let s := { s with draw.windowFailed := true }
  match s.draw.mode with
  | .off => s
  | .latched => s
  | .qualifying => latch s
  | .healthy => latch s

/-- A window is judged, and the next begins (R158, R159). -/
def judgeWindow (s : Station) : Station :=
  let passes := s.draw.windowPasses
  let s := { s with draw := s.draw.nextWindow }
  match s.draw.mode with
  | .off => s
  | .healthy => if passes then s else latch s
  | .qualifying => if passes then enterHealthy s else latch s
  | .latched => if passes then enterHealthy s else s

/-- One noise bit: counted and gathered, then a run of 32 takes effect, then the window's end (R158-R160). -/
def takeBit (s : Station) (bit : Bool) : Station :=
  let s := { s with draw := s.draw.countBit bit }
  let s := if s.draw.runLength = 32 then failRepetition s else s
  if s.draw.windowBits = 512 then judgeWindow s else s

/-- Noise bits in stream order; none are taken while the source is off (R158, R164). -/
def takeNoise (bits : List Bool) (s : Station) : Station := if s.draw.mode = .off then s else bits.foldl takeBit s

/-- REPETITION_FAILURE: the noise goes on with the bits that complete a run of 32 (R158, R159, R163; log entry 11). -/
def execRepetitionFailure (s : State) : Host.Outcome State Fault Refusal :=
  takeEvent (fun s => takeNoise s.draw.runOut s) s

/-- PROPORTION_WINDOW_JUDGED: the noise goes on up to the end of the window, which is judged (R158, R159; log entry 11). -/
def execProportionWindowJudged (bits : List Bool) (s : State) : Host.Outcome State Fault Refusal :=
  takeEvent (takeNoise bits) s

/-- DRAW_CONDITIONED: the noise goes on up to the bit that completes the group, whose draw goes to the oldest waiting request
or into the pool (R160; log entry 11). -/
def execDrawConditioned (noise : ConditionedNoise) (s : State) : Host.Outcome State Fault Refusal :=
  takeEvent
    (fun s =>
      let s := takeNoise noise.bits s
      if s.draw.mode = .healthy && s.draw.group.length = 64 then
        match conditionedDraw noise.draw.toNat s with
        | (some c, t) => deliverDraw c noise.draw.toNat t
        | (none, t) => t
      else s)
    s

end Sys2Proof.Machine
end

