-- ==== Sys2Proof/Machine/PanelRows.lean ====
section
/-! DEFINITION. The commands of the caller panel (R110-R116). -/

namespace Sys2Proof.Machine

/-- The call moved to the handset (R114). -/
def moveToHandset (s : Station) : Station := moveBridges (updOrigin (fun o => { o with mode := .handset }) s)

/-- The off-hook action (R112, R113). -/
def offHookAction (s : Station) : Station :=
  if s.power.opState = .start then { s with panel.request := some .handset }
  else
    match s.call.origin with
    | none => createOrigin .handset s
    | some o =>
      match o.mode with
      | .handsFree => moveToHandset s
      | .handset => { s with panel.deferred := true }

/-- The on-hook action (R112, R113, R116). An on-hook ends a FAILED period whatever context there is. R112 says that on-hook
with a context in HANDS_FREE mode cannot occur; it can where the hook's first settled level was adopted without an action,
and the model then gives it no other effect (log entry 47). -/
def onHookAction (s : Station) : Station :=
  if s.power.opState = .start then
    if s.panel.request = some .handset then { s with panel.request := none } else s
  else
    match s.call.origin with
    | none => endFailed s
    | some o =>
      match o.mode with
      | .handset => endRequest (endFailed s)
      | .handsFree => endFailed s

/-- A single press recognised (R112, R113). -/
def singlePress (s : Station) : Station :=
  if s.panel.hook = .offHook then s
  else if s.power.opState = .start then
    if s.panel.request.isNone then { s with panel.request := some .handsFree } else s
  else if s.call.origin.isNone then createOrigin .handsFree s
  else s

/-- A double press recognised (R112, R113). -/
def doublePress (s : Station) : Station :=
  if s.power.opState = .start then
    if s.panel.request = some .handsFree then { s with panel.request := none } else s
  else
    match s.call.origin with
    | none => s
    | some o =>
      match o.mode with
      | .handsFree => endRequest s
      | .handset => s

/-- A settled off-hook level: the first after a reset is adopted, in STANDBY it is a wake cause (R110), and the hook watch
has seen it (log entry 28). -/
def execOffHook (s : State) : Host.Outcome State Fault Refusal :=
  takeEvent
    (fun s =>
      if s.power.opState = .standby then post (.wake .offHook) { s with panel.hook := .offHook }
      else
        match s.panel.hook with
        | .unadopted => { s with panel.hook := .offHook }
        | .onHook => offHookAction { s with panel.hook := .offHook }
        | .offHook => s)
    s

/-- A settled on-hook level: the first after a reset is adopted, in STANDBY it has no effect but that the hook watch has seen
it (R110; log entry 28). -/
def execOnHook (s : State) : Host.Outcome State Fault Refusal :=
  takeEvent
    (fun s =>
      if s.power.opState = .standby then { s with panel.hook := .onHook }
      else
        match s.panel.hook with
        | .unadopted => { s with panel.hook := .onHook }
        | .offHook => onHookAction { s with panel.hook := .onHook }
        | .onHook => s)
    s

/-- BUTTON_INPUT_PRESSED: in WINDOW a candidate's begin time is noted (R111). -/
def execButtonInputPressed (s : State) : Host.Outcome State Fault Refusal :=
  takeEvent
    (fun s =>
      match s.panel.classifier with
      | .window close expired none => { s with panel.classifier := .window close expired (some s.now) }
      | _ => s)
    s

/-- Whether a begin time lies within a window that ends at `close` (R111; the end included, log entry 24). -/
def beganInWindow (close begun : Stamp) : Bool := !(Stamp.before close begun)

/-- A press counts in WINDOW: a double press where it began within the window; else the single press is recognised and
this press is a new first one (R111). -/
def pressInWindow (close begun : Stamp) (s : Station) : Station :=
  if beganInWindow close begun then doublePress { s with panel.classifier := .secondHeld }
  else singlePress { s with panel.classifier := .firstHeld }

/-- BUTTON_PRESS_COUNTS (R111); in STANDBY a wake cause, and the press is held until its release counts. -/
def execButtonPressCounts (s : State) : Host.Outcome State Fault Refusal :=
  takeEvent
    (fun s =>
      if s.power.opState = .standby then post (.wake .button) { s with panel.disregard := true }
      else if s.panel.disregard then s
      else
        match s.panel.classifier with
        | .idle => { s with panel.classifier := .firstHeld }
        | .window close _ (some begun) => pressInWindow close begun s
        | .window close _ none => pressInWindow close (Stamp.earlier s.now 50) s
        | .firstHeld => s
        | .secondHeld => s)
    s

/-- BUTTON_RELEASE_COUNTS (R111); in STANDBY, where the classifier does not run, it ends a held press. -/
def execButtonReleaseCounts (s : State) : Host.Outcome State Fault Refusal :=
  takeEvent
    (fun s =>
      if s.panel.disregard then { s with panel.disregard := false }
      else
        match s.panel.classifier with
        | .firstHeld => { s with panel.classifier := .window (s.within 600) false none }
        | .secondHeld => { s with panel.classifier := .idle }
        | _ => s)
    s

/-- CANDIDATE_FAILS: the candidate is dropped; after the window's expiry the single press is recognised (R111). -/
def execCandidateFails (s : State) : Host.Outcome State Fault Refusal :=
  takeEvent
    (fun s =>
      match s.panel.classifier with
      | .window close expired (some _) =>
        if expired then singlePress { s with panel.classifier := .idle }
        else { s with panel.classifier := .window close false none }
      | _ => s)
    s

/-- When the window of the classifier ends (R111). -/
def Classifier.deadline : Classifier → Timer
  | .window close false _ => some close
  | _ => none

/-- BUTTON_WINDOW_EXPIRY: the single press is recognised, unless a candidate that began in time is under test (R111). -/
def execButtonWindowExpiry (s : State) : Host.Outcome State Fault Refusal :=
  takeExpiry (·.panel.classifier.deadline)
    (fun s =>
      match s.panel.classifier with
      | .window close _ (some begun) =>
        if beganInWindow close begun then { s with panel.classifier := .window close true (some begun) }
        else singlePress { s with panel.classifier := .idle }
      | _ => singlePress { s with panel.classifier := .idle })
    s

/-- FAILED_PERIOD_EXPIRY: the PANEL bridge is removed, the tone and the lamp go off (R116). -/
def execFailedPeriodExpiry (s : State) : Host.Outcome State Fault Refusal :=
  takeExpiry (·.panel.failed) endFailed s

end Sys2Proof.Machine
end

