-- ==== Sys2Proof/Machine/PowerRows.lean ====
section
/-! DEFINITION. The commands of the rails, the reset line, the configuration memory, the power unit's timers and the
clock. -/

namespace Sys2Proof.Machine

/-- A change of a rail or of the reset line, and what follows from it while the station runs (R177). -/
def takePin (f : Station → Station) (s : State) : Host.Outcome State Fault Refusal :=
  let t := f (freshOut s.station)
  .next { s with station := if t.running then finish t else t }

/-- KEEP_RAIL_APPLIED: a power-on reset, where the rail was absent (R177). -/
def execKeepRailApplied (s : State) : Host.Outcome State Fault Refusal :=
  takePin (fun s => if s.power.keepRail then s else powerOnReset s) s

/-- RESET_LINE_ASSERTED: the volatile blocks held at their warm-reset values (R177). -/
def execResetLineAsserted (s : State) : Host.Outcome State Fault Refusal :=
  takePin
    (fun s =>
      let t := { s with power.resetLine := true }
      if s.running then holdReset t else t)
    s

/-- RESET_LINE_RELEASED: a warm reset, once the main rail is there too (R177). -/
def execResetLineReleased (s : State) : Host.Outcome State Fault Refusal :=
  takePin (fun s => releaseReset { s with power.resetLine := false }) s

/-- MAIN_RAIL_LOST: outside STANDBY the keep-domain writes and the hold; no effect in STANDBY (R177). -/
def execMainRailLost (s : State) : Host.Outcome State Fault Refusal :=
  takePin
    (fun s =>
      let t := { s with power.mainRail := false }
      if s.running && s.power.opState != .standby then holdReset t else t)
    s

/-- MAIN_RAIL_RETURN: the held warm reset, or the held wake (R177). -/
def execMainRailReturn (s : State) : Host.Outcome State Fault Refusal :=
  takePin
    (fun s =>
      let t := { s with power.mainRail := true }
      match s.power.heldWake with
      | some cause => if s.running then takeWake cause t else t
      | none => releaseReset t)
    s

/-- CONFIG_READ_COMPLETE: the record of START is judged (R167, R168). -/
def execConfigReadComplete (bytes : List Byte) (s : State) : Host.Outcome State Fault Refusal :=
  takeEvent (fun s => if s.power.configRead.isSome then judgeRecord bytes s else s) s

/-- CONFIG_READ_LIMIT_EXPIRY: the record counts as invalid, at START or in a reload (R167, R169). -/
def execConfigReadLimitExpiry (s : State) : Host.Outcome State Fault Refusal :=
  takeEvent
    (fun s =>
      match s.power.configRead, s.power.reload with
      | some limit, _ => configInvalid (catchUp limit s)
      | none, some r => endReload none (catchUp r.limit s)
      | none, none => s)
    s

/-- RELOAD_READ_COMPLETE: the reload ends with DONE, REJECTED or BUSY (R169). -/
def execReloadReadComplete (bytes : List Byte) (s : State) : Host.Outcome State Fault Refusal :=
  takeEvent (endReload (readConfiguration bytes)) s

/-- IDLE_TIMER_EXPIRY: standby entry begins; the decision falls in the check at the end of the command (R171, R172). -/
def execIdleTimerExpiry (s : State) : Host.Outcome State Fault Refusal :=
  takeExpiry (·.power.idleTimer)
    (fun s => { s with power.idleTimer := none, power.progress := .waitingCommand }) s

/-- CHECK_IN_TIMER_EXPIRY: the wake cause CHECK_IN (R173). -/
def execCheckInTimerExpiry (s : State) : Host.Outcome State Fault Refusal :=
  takeExpiry (·.power.checkIn) (fun s => post (.wake .checkIn) { s with power.checkIn := none }) s

/-- CLOCK_WRAP: the clock is 0, the epoch one higher (R175). It counts on the keep rail whatever holds the rest. -/
def execClockWrap (s : State) : Host.Outcome State Fault Refusal :=
  let t := freshOut s.station
  .next
    { s with
      station := if t.power.keepRail then { t with keep.clock := ⟨t.keep.clock.epoch + 1, 0⟩ } else t }

/-- KEEP_RAIL_LOST: everything loses its contents, and the station stops (R177). -/
def execKeepRailLost (s : State) : Host.Outcome State Fault Refusal := takePin keepLost s

end Sys2Proof.Machine
end

