-- ==== Sys2Proof/Machine/ReportRows.lean ====
section
/-! DEFINITION. The commands of the sensor line, and the timers of the cabinet monitor and the report unit (R124-R139). -/

namespace Sys2Proof.Machine

/-- SAMPLE (R124-R129). -/
def execSample (x y z : Int) (s : State) : Host.Outcome State Fault Refusal :=
  takeEvent (takeSample { x := x, y := y, z := z }) s

/-- SENSOR_SILENCE (R126). -/
def execSensorSilence (s : State) : Host.Outcome State Fault Refusal :=
  takeExpiry (·.cabinet.silence) sensorFalls s

/-- The quiet limit of an open IMPACT event (R128). -/
def Impact.limit : Impact → Timer
  | .quiet => none
  | .opened _ _ _ limit => some limit

/-- IMPACT_QUIET_LIMIT_EXPIRY: the event closes and is handed on (R128). -/
def execImpactQuietLimitExpiry (s : State) : Host.Outcome State Fault Refusal :=
  takeExpiry (·.cabinet.impact.limit) closeImpact s

/-- STALL_CHECK_EXPIRY: delivery is decided again (R134). -/
def execStallCheckExpiry (s : State) : Host.Outcome State Fault Refusal :=
  takeExpiry (·.reports.stall) (fun s => decideReports { s with reports.stall := none }) s

/-- The lender that the entry in flight asks (R136). -/
def Route.asked : Route → Option Nat
  | .asking l => some l
  | _ => none

/-- The lender that relays the entry in flight (R136). -/
def Route.relayer : Route → Option Nat
  | .relayed l => some l
  | _ => none

/-- The timer of the entry in flight, where its route passes a test. -/
def Station.flightTimer (test : Route → Bool) (s : Station) : Timer :=
  match s.flying with
  | some e => if test e.route then e.timer else none
  | none => none

/-- REPORT_ANSWER_TIMER_EXPIRY: the lender joins the declined list, the next candidate is asked (R136). -/
def execReportAnswerTimerExpiry (s : State) : Host.Outcome State Fault Refusal :=
  takeExpiry (Station.flightTimer fun r => r.asked.isSome)
    (fun s =>
      match s.flying with
      | some e =>
        match e.route.asked with
        | some l => askNext e.record.tag l s
        | none => s
      | none => s)
    s

/-- RESULT_TIMER_EXPIRY: the relayed attempt has failed (R136, R137). -/
def execResultTimerExpiry (s : State) : Host.Outcome State Fault Refusal :=
  takeExpiry (Station.flightTimer fun r => r.relayer.isSome)
    (fun s =>
      match s.flying with
      | some e => attemptFailed e.record.tag s
      | none => s)
    s

/-- REST_TIMER_EXPIRY: the entry becomes WAITING, delivery is decided (R134, R137). -/
def execRestTimerExpiry (tag : Tag) (s : State) : Host.Outcome State Fault Refusal :=
  takeExpiry
    (fun s => (s.report? tag).bind fun e => if e.state = .resting then e.timer else none)
    (fun s => decideReports (updReport tag (fun e => { e with state := .waiting, timer := none }) s)) s

/-- RELAY_REST_TIMER_EXPIRY: the relay entry becomes WAITING (R139). -/
def execRelayRestTimerExpiry (tag : Tag) (s : State) : Host.Outcome State Fault Refusal :=
  takeExpiry (fun s => (s.relay? tag).bind fun e => e.rest)
    (fun s => decideRelay (updRelay tag (fun e => { e with state := .waiting, rest := none }) s)) s

/-- RELAY_LIFETIME_EXPIRY (R139). -/
def execRelayLifetimeExpiry (tag : Tag) (s : State) : Host.Outcome State Fault Refusal :=
  takeExpiry (fun s => (s.relay? tag).bind fun e => e.lifetime) (relayExpired tag) s

end Sys2Proof.Machine
end

