-- ==== Sys2Proof/Machine/ServiceRows.lean ====
section
/-! DEFINITION. The commands that bring QUERY and SERVICE_ORDER frames from the corridor line (R180-R183, R186). -/

namespace Sys2Proof.Machine

/-- QUERY STATION (R182). -/
def execQueryStation (f : RxFrame) (s : State) : Host.Outcome State Fault Refusal :=
  takeService 11 f (fun code index s => answerService f.segment code index .content s.stationContent s) s

/-- QUERY FAULTS (R182). -/
def execQueryFaults (f : RxFrame) (s : State) : Host.Outcome State Fault Refusal :=
  takeService 11 f (fun code index s => answerService f.segment code index .content s.keep.faults.content s) s

/-- QUERY DIRECTORY: the entry at the indexed position, or NO_ENTRY with the number held (R182). -/
def execQueryDirectory (f : RxFrame) (s : State) : Host.Outcome State Fault Refusal :=
  takeService 11 f
    (fun code index s =>
      let count := byte s.directory.entries.length
      match s.directory.entries[index.toNat]? with
      | some e => answerService f.segment code index .content (count :: e.bytes) s
      | none => answerService f.segment code index .noEntry [count] s)
    s

/-- QUERY CIRCUITS (R182). -/
def execQueryCircuits (f : RxFrame) (s : State) : Host.Outcome State Fault Refusal :=
  takeService 11 f (fun code index s => answerService f.segment code index .content s.circuitsContent s) s

/-- QUERY BEARER: index 0 for A, 1 for B (R182). -/
def execQueryBearer (f : RxFrame) (s : State) : Host.Outcome State Fault Refusal :=
  takeService 11 f
    (fun code index s =>
      if index = 0 then answerService f.segment code index .content (s.bearerContent .a) s
      else if index = 1 then answerService f.segment code index .content (s.bearerContent .b) s
      else answerService f.segment code index .noEntry [] s)
    s

/-- QUERY QUEUES: index 0 for the report queue, 1 for the relay queue (R182). -/
def execQueryQueues (f : RxFrame) (s : State) : Host.Outcome State Fault Refusal :=
  takeService 11 f
    (fun code index s =>
      if index = 0 then answerService f.segment code index .content s.reportContent s
      else if index = 1 then answerService f.segment code index .content s.relayContent s
      else answerService f.segment code index .noEntry [] s)
    s

/-- A QUERY with an undefined selector (R186). -/
def execUnknownSelector (f : RxFrame) (s : State) : Host.Outcome State Fault Refusal :=
  takeService 11 f (fun code index s => answerService f.segment code index .unknown [] s) s

/-- CLEAR_FAULTS: the named classes cleared, DONE with the flags as they stand after (R180, R183). -/
def execClearFaults (f : RxFrame) (s : State) : Host.Outcome State Fault Refusal :=
  takeService 13 f
    (fun _ set s =>
      let s := clearClasses (classSetOf set) s
      answerOrder f.segment 1 .done [classSetByte s.keep.faults.flags] s)
    s

/-- RESTART: a warm reset at once, no answer (R183). -/
def execRestart (f : RxFrame) (s : State) : Host.Outcome State Fault Refusal :=
  takeService 13 f (fun _ _ s => warmReset s) s

/-- RELOAD (R169, R183). -/
def execReload (f : RxFrame) (s : State) : Host.Outcome State Fault Refusal :=
  takeService 13 f (fun _ _ s => takeReload f.segment s) s

/-- RECAPTURE: a reference capture begins or restarts, DONE at once (R127, R183). -/
def execRecapture (f : RxFrame) (s : State) : Host.Outcome State Fault Refusal :=
  takeService 13 f (fun _ _ s => answerOrder f.segment 4 .done [] (beginCapture s)) s

/-- A SERVICE_ORDER with an undefined order: the code received echoed, index 0, UNKNOWN (R186). -/
def execUnknownOrder (f : RxFrame) (s : State) : Host.Outcome State Fault Refusal :=
  takeService 13 f (fun code _ s => answerService f.segment code 0 .unknown [] s) s

end Sys2Proof.Machine
end

