-- ==== Sys2Proof/Machine/Dispatch.lean ====
section
/-! DEFINITION. What each command does: one arm per row of the table. -/

namespace Sys2Proof.Machine

def exec (i : Instr) (s : State) : Host.Outcome State Fault Refusal :=
  match i with
  | .keepRailApplied => Sys2Proof.Machine.execKeepRailApplied s
  | .resetLineAsserted => Sys2Proof.Machine.execResetLineAsserted s
  | .resetLineReleased => Sys2Proof.Machine.execResetLineReleased s
  | .mainRailLost => Sys2Proof.Machine.execMainRailLost s
  | .mainRailReturn => Sys2Proof.Machine.execMainRailReturn s
  | .configReadComplete bytes => Sys2Proof.Machine.execConfigReadComplete bytes s
  | .configReadLimitExpiry => Sys2Proof.Machine.execConfigReadLimitExpiry s
  | .reloadReadComplete bytes => Sys2Proof.Machine.execReloadReadComplete bytes s
  | .idleTimerExpiry => Sys2Proof.Machine.execIdleTimerExpiry s
  | .checkInTimerExpiry => Sys2Proof.Machine.execCheckInTimerExpiry s
  | .clockWrap => Sys2Proof.Machine.execClockWrap s
  | .announce f => Sys2Proof.Machine.execAnnounce f s
  | .peerAgeingExpiry address => Sys2Proof.Machine.execPeerAgeingExpiry address s
  | .announcePeriodExpiry => Sys2Proof.Machine.execAnnouncePeriodExpiry s
  | .solicitReplyDelayExpiry => Sys2Proof.Machine.execSolicitReplyDelayExpiry s
  | .claim f => Sys2Proof.Machine.execClaim f s
  | .contestTimerExpiry circuit => Sys2Proof.Machine.execContestTimerExpiry circuit s
  | .orphanLimitExpiry circuit => Sys2Proof.Machine.execOrphanLimitExpiry circuit s
  | .callStatus f => Sys2Proof.Machine.execCallStatus f s
  | .borrowVoice f => Sys2Proof.Machine.execBorrowVoice f s
  | .borrowReport f => Sys2Proof.Machine.execBorrowReport f s
  | .lendCall f => Sys2Proof.Machine.execLendCall f s
  | .lendReport f => Sys2Proof.Machine.execLendReport f s
  | .declineCall f => Sys2Proof.Machine.execDeclineCall f s
  | .declineReport f => Sys2Proof.Machine.execDeclineReport f s
  | .connected f => Sys2Proof.Machine.execConnected f s
  | .clear f => Sys2Proof.Machine.execClear f s
  | .wakeFrame f => Sys2Proof.Machine.execWakeFrame f s
  | .reportResult f => Sys2Proof.Machine.execReportResult f s
  | .status f => Sys2Proof.Machine.execStatus f s
  | .malformedFrame count => Sys2Proof.Machine.execMalformedFrame count s
  | .queryStation f => Sys2Proof.Machine.execQueryStation f s
  | .queryFaults f => Sys2Proof.Machine.execQueryFaults f s
  | .queryDirectory f => Sys2Proof.Machine.execQueryDirectory f s
  | .queryCircuits f => Sys2Proof.Machine.execQueryCircuits f s
  | .queryBearer f => Sys2Proof.Machine.execQueryBearer f s
  | .queryQueues f => Sys2Proof.Machine.execQueryQueues f s
  | .unknownSelector f => Sys2Proof.Machine.execUnknownSelector f s
  | .clearFaults f => Sys2Proof.Machine.execClearFaults f s
  | .restart f => Sys2Proof.Machine.execRestart f s
  | .reload f => Sys2Proof.Machine.execReload f s
  | .recapture f => Sys2Proof.Machine.execRecapture f s
  | .unknownOrder f => Sys2Proof.Machine.execUnknownOrder f s
  | .idleGap => Sys2Proof.Machine.execIdleGap s
  | .lineBusy => Sys2Proof.Machine.execLineBusy s
  | .backoffSlot => Sys2Proof.Machine.execBackoffSlot s
  | .collision => Sys2Proof.Machine.execCollision s
  | .transmissionComplete => Sys2Proof.Machine.execTransmissionComplete s
  | .repetitionFailure => Sys2Proof.Machine.execRepetitionFailure s
  | .proportionWindowJudged bits => Sys2Proof.Machine.execProportionWindowJudged bits s
  | .drawConditioned noise => Sys2Proof.Machine.execDrawConditioned noise s
  | .ready bearer => Sys2Proof.Machine.execReady bearer s
  | .scanResult bearer networks => Sys2Proof.Machine.execScanResult bearer networks s
  | .camped bearer network level => Sys2Proof.Machine.execCamped bearer network level s
  | .level bearer level => Sys2Proof.Machine.execLevel bearer level s
  | .progress bearer => Sys2Proof.Machine.execProgress bearer s
  | .answered bearer => Sys2Proof.Machine.execAnswered bearer s
  | .ended bearer reason => Sys2Proof.Machine.execEnded bearer reason s
  | .reportSent bearer => Sys2Proof.Machine.execReportSent bearer s
  | .reportFailed bearer => Sys2Proof.Machine.execReportFailed bearer s
  | .lost bearer => Sys2Proof.Machine.execLost bearer s
  | .fault bearer => Sys2Proof.Machine.execFault bearer s
  | .undecodableIndication bearer kind params => Sys2Proof.Machine.execUndecodableIndication bearer kind params s
  | .commandTimeout bearer => Sys2Proof.Machine.execCommandTimeout bearer s
  | .dialAnswerLimitExpiry bearer => Sys2Proof.Machine.execDialAnswerLimitExpiry bearer s
  | .rescanTimerExpiry bearer => Sys2Proof.Machine.execRescanTimerExpiry bearer s
  | .barExpiry bearer network => Sys2Proof.Machine.execBarExpiry bearer network s
  | .recheckTimerExpiry bearer => Sys2Proof.Machine.execRecheckTimerExpiry bearer s
  | .failureWaitExpiry bearer => Sys2Proof.Machine.execFailureWaitExpiry bearer s
  | .settlingGuardExpiry bearer => Sys2Proof.Machine.execSettlingGuardExpiry bearer s
  | .offHook => Sys2Proof.Machine.execOffHook s
  | .onHook => Sys2Proof.Machine.execOnHook s
  | .buttonInputPressed => Sys2Proof.Machine.execButtonInputPressed s
  | .buttonPressCounts => Sys2Proof.Machine.execButtonPressCounts s
  | .buttonReleaseCounts => Sys2Proof.Machine.execButtonReleaseCounts s
  | .candidateFails => Sys2Proof.Machine.execCandidateFails s
  | .buttonWindowExpiry => Sys2Proof.Machine.execButtonWindowExpiry s
  | .failedPeriodExpiry => Sys2Proof.Machine.execFailedPeriodExpiry s
  | .answerTimeoutExpiry => Sys2Proof.Machine.execAnswerTimeoutExpiry s
  | .wakeAllowanceExpiry => Sys2Proof.Machine.execWakeAllowanceExpiry s
  | .awaitingConnectExpiry => Sys2Proof.Machine.execAwaitingConnectExpiry s
  | .pauseExpiry => Sys2Proof.Machine.execPauseExpiry s
  | .setupDeadlineExpiry => Sys2Proof.Machine.execSetupDeadlineExpiry s
  | .partnerSilence => Sys2Proof.Machine.execPartnerSilence s
  | .carrierPartnerSilence tag => Sys2Proof.Machine.execCarrierPartnerSilence tag s
  | .callStatusScheduleExpiry context => Sys2Proof.Machine.execCallStatusScheduleExpiry context s
  | .recoveryLimitExpiry => Sys2Proof.Machine.execRecoveryLimitExpiry s
  | .sample x y z => Sys2Proof.Machine.execSample x y z s
  | .sensorSilence => Sys2Proof.Machine.execSensorSilence s
  | .impactQuietLimitExpiry => Sys2Proof.Machine.execImpactQuietLimitExpiry s
  | .stallCheckExpiry => Sys2Proof.Machine.execStallCheckExpiry s
  | .reportAnswerTimerExpiry => Sys2Proof.Machine.execReportAnswerTimerExpiry s
  | .resultTimerExpiry => Sys2Proof.Machine.execResultTimerExpiry s
  | .restTimerExpiry tag => Sys2Proof.Machine.execRestTimerExpiry tag s
  | .relayRestTimerExpiry tag => Sys2Proof.Machine.execRelayRestTimerExpiry tag s
  | .relayLifetimeExpiry tag => Sys2Proof.Machine.execRelayLifetimeExpiry tag s
  | .keepRailLost => Sys2Proof.Machine.execKeepRailLost s
  | .unknownFrameKind kind f => Sys2Proof.Machine.execUnknownFrameKind kind f s

end Sys2Proof.Machine
end

