-- ==== Sys2Proof/Machine/Tick.lean ====
section
/-! DEFINITION. What an idle step does: an expiry that has come due is put into the queue as a command,
else one millisecond of the station clock passes (log entries 1, 3). -/

namespace Sys2Proof.Machine

/-- A timer with the command that is its expiry. -/
abbrev Expiry := Timer × Instr

/-- Timers of the power unit. -/
def Station.powerTimers (s : Station) : List Expiry :=
  [(s.power.configRead, .configReadLimitExpiry), (s.power.reload.map (·.limit), .configReadLimitExpiry)
  , (s.power.idleTimer, .idleTimerExpiry), (s.power.checkIn, .checkInTimerExpiry)]

/-- Timers of the directory, the announcing and the circuit view. -/
def Station.segmentTimers (s : Station) : List Expiry :=
  (s.directory.entries.map fun e => (some e.deadline, Instr.peerAgeingExpiry e.address)) ++
    [(s.announcing.period, .announcePeriodExpiry), (s.announcing.reply.deadline, .solicitReplyDelayExpiry)] ++
    (allCircuits.map fun c => ((s.entry c).contestDeadline, Instr.contestTimerExpiry c)) ++
    (allCircuits.map fun c => ((s.entry c).orphanDeadline, Instr.orphanLimitExpiry c))

/-- Timers of one bearer. -/
def Station.bearerTimers (s : Station) (l : Letter) : List Expiry :=
  let r := s.bearer l
  [(r.inFlight.bind fun f => f.timeout, .commandTimeout l), (r.dialLimit, .dialAnswerLimitExpiry l)
  , (r.rescan, .rescanTimerExpiry l), (r.recheck, .recheckTimerExpiry l), (r.failureWait, .failureWaitExpiry l)
  , (r.settle, .settlingGuardExpiry l)] ++
    r.barred.map fun b => (some b.2, Instr.barExpiry l b.1)

/-- Timers of the caller panel. -/
def Station.panelTimers (s : Station) : List Expiry :=
  [(s.panel.classifier.deadline, .buttonWindowExpiry), (s.panel.failed, .failedPeriodExpiry)]

/-- Timers of the call engine. -/
def Station.callTimers (s : Station) : List Expiry :=
  [(s.phaseTimer .asking, .answerTimeoutExpiry), (s.phaseTimer .waking, .wakeAllowanceExpiry)
  , (s.phaseTimer .awaitingConnect, .awaitingConnectExpiry), (s.phaseTimer .paused, .pauseExpiry)
  , (s.call.origin.bind fun o => o.setupDeadline, .setupDeadlineExpiry)
  , (s.call.origin.bind fun o => o.silenceDeadline, .partnerSilence)
  , (s.scheduleOf .origin, .callStatusScheduleExpiry .origin), (s.recoveryLimit, .recoveryLimitExpiry)] ++
    s.call.carriers.flatMap fun k =>
      [(k.silenceDeadline, Instr.carrierPartnerSilence k.tag)
      , (k.schedule, Instr.callStatusScheduleExpiry (.carrier k.tag))]

/-- Timers of the cabinet monitor and the report unit. -/
def Station.reportTimers (s : Station) : List Expiry :=
  [(s.cabinet.silence, .sensorSilence), (s.cabinet.impact.limit, .impactQuietLimitExpiry)
  , (s.reports.stall, .stallCheckExpiry)
  , (s.flightTimer fun r => r.asked.isSome, .reportAnswerTimerExpiry)
  , (s.flightTimer fun r => r.relayer.isSome, .resultTimerExpiry)] ++
    (s.reports.queue.map fun e =>
      (if e.state = .resting then e.timer else none, Instr.restTimerExpiry e.record.tag)) ++
    s.reports.relay.flatMap fun e =>
      [(e.rest, Instr.relayRestTimerExpiry e.record.tag), (e.lifetime, Instr.relayLifetimeExpiry e.record.tag)]

/-- Every timer of the station with its expiry command, in the order in which expiries of one moment are queued (log entry
3). -/
def Station.timers (s : Station) : List Expiry :=
  s.powerTimers ++ s.segmentTimers ++ s.bearerTimers .a ++ s.bearerTimers .b ++ s.panelTimers ++ s.callTimers ++
    s.reportTimers

/-- Whether a timer's deadline has been reached. -/
def Station.due (s : Station) (e : Expiry) : Bool :=
  match e.1 with
  | some deadline => Stamp.reached s.now deadline
  | none => false

/-- The expiry command of the first timer whose deadline has been reached, while the station runs. -/
def Station.dueExpiry (s : Station) : Option Instr :=
  if s.running then (s.timers.find? s.due).map (·.2) else none

/-- One millisecond of the station clock: it wraps into the epoch (R175). -/
def Stamp.tick (t : Stamp) : Stamp :=
  if t.clock = 4294967295 then ⟨t.epoch + 1, 0⟩ else ⟨t.epoch, t.clock + 1⟩

/-- An idle step: an expiry that has come due joins the queue; where none has, the clock counts one millisecond on the keep
rail (R175; log entry 1). -/
def tick (s : State) : State :=
  let t := freshOut s.station
  match t.dueExpiry with
  | some c => { s with station := t, pending := s.pending ++ [c] }
  | none =>
    if t.power.keepRail then { s with station := { t with keep.clock := Stamp.tick t.keep.clock } }
    else { s with station := t }

end Sys2Proof.Machine
end

