-- ==== Sys2Proof/Safety.lean ====
section
/-! DEFINITION. When a run is safe, when a station is awake and hears a frame, and the two views of a station that the
statements compare: `kept`, what no notice between blocks touches, and `core`, what handing a frame over and announcing
do not touch. -/

namespace Sys2Proof

/-- An outcome that goes on. -/
def Goes (o : Host.Outcome Machine.State Machine.Fault Machine.Refusal) : Prop := ∃ t, o = .next t

/-- A state from which the next step goes on. -/
def Safe (s : Machine.State) : Prop := Goes (Machine.step s)

/-- Every command that waits is well formed. -/
def QueueWellFormed (s : Machine.State) : Prop := ∀ c ∈ s.pending, c.wf = true

end Sys2Proof

namespace Sys2Proof.Machine

/-! ### When a station takes a command -/

/-- The station runs outside STANDBY, and no standby entry waits to be made at the end of the next command (R171, R172,
R177). -/
def Station.Awake (s : Station) : Prop :=
  s.running = true ∧ s.power.opState ≠ .standby ∧ s.power.progress ≠ .waitingEntry

/-- A frame from a peer passes the checks of R143 and reaches its owners in ACTIVE (R142-R144). -/
def Station.Hears (s : Station) (kind : Nat) (f : RxFrame) : Prop :=
  s.Awake ∧ s.power.opState = .active ∧ s.transmitting = false ∧ s.line.assembly ≠ .skipping ∧
    frameCheckOk kind f = true ∧ s.config.segment = some f.segment ∧ s.isPeer f.source.toNat = true ∧
    addressDefined f.dest = true

/-- A frame of the service terminal passes the checks of R143 and is taken by the service responder (R142-R144, R181). -/
def Station.Serves (s : Station) (kind : Nat) (f : RxFrame) : Prop :=
  s.Awake ∧ s.transmitting = false ∧ s.line.assembly ≠ .skipping ∧ frameCheckOk kind f = true ∧
    s.segmentOk kind f = true ∧ s.isOwn 0 = false ∧ addressDefined f.dest = true ∧
    s.servesFrame f.source f.dest = true

/-- The moment at which an expiry is taken: the deadline, or the present where the deadline has passed (log entry 2). -/
def Stamp.moment (now deadline : Stamp) : Stamp := if Stamp.reached now deadline then now else deadline

/-! ### Resets -/

/-- Every volatile block but the power unit and the cabinet monitor is as a reset leaves it (R6, R15, R35, R63, R89, R123,
R140, R157, R164). -/
def Station.Cleared (s : Station) : Prop :=
  s.directory = { entries := [], effective := s.config.circuits } ∧ s.announcing = clearedAnnouncing ∧
    s.circuits = clearedCircuits ∧ s.line = clearedLine ∧ s.draw = startedDraw ∧ s.bearers = clearedBearers ∧
    s.audio = [] ∧ s.panel = clearedPanel ∧ s.call = { origin := none, carriers := [] } ∧ s.reports = clearedReports

/-- Whether a reset interrupts the origin context: it has one that never connected and is not in ENDING (R108). -/
def Station.interruptible (s : Station) : Bool :=
  match s.call.origin with
  | some o => !o.connected && o.phase != .ending
  | none => false

/-- The keep domain as a warm reset of a station leaves it: *interrupted* one higher for a call not yet connected, unless
the tally is frozen, each queued report counted as dropped, and nothing else written (R88, R108, R140, R176). -/
def Station.KeepAfterReset (s : Station) (k : Keep) : Prop :=
  k =
      { s.keep with
        tally :=
          if s.interruptible && !s.keep.tally.frozen then
            { s.keep.tally with interrupted := s.keep.tally.interrupted + 1 }
          else s.keep.tally
        dropped := k.dropped } ∧
    (s.keep.dropped.toNat + s.reports.queue.length < 4294967296 →
      k.dropped.toNat = s.keep.dropped.toNat + s.reports.queue.length)

/-! ### Invariants of the block -/

/-- The configuration copy fits the operating state: ACTIVE and STANDBY stations have a record with an address and a
segment code, an ISOLATED one has a record or the built-in set (R165, R167, R168). -/
def Station.ConfigFits (s : Station) : Prop :=
  (s.power.opState = .active ∨ s.power.opState = .standby →
    ∃ c, s.keep.config = some c ∧ c.address.isSome = true ∧ c.segment.isSome = true) ∧
  (s.power.opState = .isolated → s.keep.config.isSome = true)

/-- An entry of the directory holds values that an ANNOUNCE may file (R1, R3). -/
def PeerEntry.fits (e : PeerEntry) : Bool :=
  1 ≤ e.address && e.address ≤ 32 && 10 ≤ e.period && e.period ≤ 60 && 1 ≤ e.circuits && e.circuits ≤ 6 &&
    e.summaries.length ≤ 2

/-- The directory as R1, R3 and R7 have it: at most 31 entries in address order, each of a peer and with values in their
ranges, and the effective count is the smallest of the counts. -/
def Station.DirectoryFits (s : Station) : Prop :=
  s.directory.entries.length ≤ 31 ∧ List.Pairwise (fun e f => e.address < f.address) s.directory.entries ∧
    (∀ e ∈ s.directory.entries, e.fits = true ∧ s.isOwn e.address = false) ∧ s.directory.effective = s.countOf

/-- These queues and lists within their capacities: eight frames, eight draws, two carrier contexts, four bridges, eight
reports, four relayed reports; six networks and four bars on a bearer (R38, R42, R84, R119, R133, R138, R146, R160). -/
def Station.CapacitiesFit (s : Station) : Prop :=
  s.line.total ≤ 8 ∧ s.draw.pool.length ≤ 8 ∧ s.call.carriers.length ≤ 2 ∧ s.audio.length ≤ 4 ∧
    s.reports.queue.length ≤ 8 ∧ s.reports.relay.length ≤ 4 ∧
    ∀ l, (s.bearer l).networks.length ≤ 6 ∧ (s.bearer l).barred.length ≤ 4

/-! ### What no notice between blocks touches -/

/-- The parts of a bearer record that no claim, order or release touches. -/
structure LastingBearer where
  powered : Bool
  networks : List (Nat × Nat)
  barred : List (Nat × Stamp)
  timeouts : Nat
  powerCycles : Nat
  failures : Nat
  rescan : Timer
  settle : Timer
  failureWait : Timer
deriving DecidableEq, Repr

/-- The lasting parts of a record. -/
def Bearer.lasting (r : Bearer) : LastingBearer :=
  { powered := r.powered, networks := r.networks, barred := r.barred, timeouts := r.timeouts
    powerCycles := r.powerCycles, failures := r.failures, rescan := r.rescan, settle := r.settle
    failureWait := r.failureWait }

/-- A state in which a bearer holds no work and can be given none. -/
def BearerState.parked : BearerState → Bool
  | .off => true
  | .starting => true
  | .searching => true
  | .noService => true
  | .camping => true
  | .settling => true
  | .failed => true
  | .failedHeld => true
  | _ => false

/-- What no notice touches of a record: all of it while the bearer is parked, its lasting parts else. -/
structure KeptBearer where
  lasting : LastingBearer
  parked : Option Bearer
deriving DecidableEq, Repr

/-- The view of one record. -/
def Bearer.kept (r : Bearer) : KeptBearer :=
  { lasting := r.lasting, parked := if r.state.parked then some r else none }

/-- The fault kinds that no notice raises. -/
def lastingKinds : List FaultKind :=
  [.frameCheck, .drawHealth, .bearerTimeout, .bearerFailed, .circuitMismatch, .partnerLost, .callUnplaced
  , .sensorSilent, .configRejected, .configInvalid, .addressClash]

/-- What no notice between blocks touches, outside STANDBY: the clock, the configuration, the power unit but for the
standby progress, the directory, parked bearers, the panel's inputs, the cabinet monitor, the noise tests, the receive
assembly, and the counts and fault counters of events that are commands. -/
structure Kept where
  clock : Stamp
  config : Option Configuration
  reference : Option IVec
  unplaced : BitVec 32
  withdrawn : BitVec 32
  interrupted : BitVec 32
  fatal : Bool
  counters : List Nat
  opState : OpState
  startCause : StartCause
  wakeCause : Option WakeCause
  keepRail : Bool
  mainRail : Bool
  resetLine : Bool
  held : Bool
  configRead : Timer
  reload : Option (Stamp × BitVec 16)
  checkIn : Timer
  clash : Bool
  waitingEntry : Bool
  directory : Directory
  bearerA : KeptBearer
  bearerB : KeptBearer
  hook : Hook
  classifier : Classifier
  disregard : Bool
  request : Option Mode
  cabinet : Cabinet
  drawMode : DrawMode
  lastBit : Bool
  runLength : Nat
  windowBits : Nat
  ones : Nat
  windowFailed : Bool
  group : List Bool
  assembly : Assembly
deriving DecidableEq, Repr

/-- The view of the fault counters that no notice raises. -/
def Faults.lastingCounters (f : Faults) : List Nat := lastingKinds.map f.counter

/-- The view of a station. -/
def Station.kept (s : Station) : Kept :=
  { clock := s.keep.clock, config := s.keep.config, reference := s.keep.reference
    unplaced := s.keep.tally.unplaced, withdrawn := s.keep.tally.withdrawn, interrupted := s.keep.tally.interrupted
    fatal := s.keep.faults.flags.fatal, counters := s.keep.faults.lastingCounters
    opState := s.power.opState, startCause := s.power.startCause, wakeCause := s.power.wakeCause
    keepRail := s.power.keepRail, mainRail := s.power.mainRail, resetLine := s.power.resetLine, held := s.power.held
    configRead := s.power.configRead, reload := s.power.reload.map fun r => (r.limit, r.segment)
    checkIn := s.power.checkIn, clash := s.power.clash, waitingEntry := s.power.progress == .waitingEntry
    directory := s.directory, bearerA := s.bearers.a.kept, bearerB := s.bearers.b.kept
    hook := s.panel.hook, classifier := s.panel.classifier, disregard := s.panel.disregard
    request := s.panel.request, cabinet := s.cabinet, drawMode := s.draw.mode, lastBit := s.draw.lastBit
    runLength := s.draw.runLength, windowBits := s.draw.windowBits, ones := s.draw.ones
    windowFailed := s.draw.windowFailed, group := s.draw.group, assembly := s.line.assembly }

/-- A view with a bearer's record replaced. -/
def Kept.withBearer (k : Kept) (l : Letter) (r : Bearer) : Kept :=
  match l with
  | .a => { k with bearerA := r.kept }
  | .b => { k with bearerB := r.kept }

/-- A view after a fault: its counter one higher up to 255, the FATAL flag where it is of that class (R179). -/
def Kept.raised (k : Kept) (f : FaultKind) : Kept :=
  { k with
    fatal := k.fatal || f.faultClass == .fatal
    counters := List.zipWith (fun kind n => if kind = f then min 255 (n + 1) else n) lastingKinds k.counters }

/-! ### Noise bits (R158, R160) -/

/-- Bits that bring neither a run of 32 nor the end of a window, from the counts given (R158). -/
def DrawSource.uneventful : List Bool → DrawSource → Bool
  | [], _ => true
  | b :: bs, d =>
    let e := d.countBit b
    e.runLength != 32 && e.windowBits != 512 && DrawSource.uneventful bs e

/-- One bit at the counts of a source whose windows pass (R158). -/
def DrawSource.passBit (d : DrawSource) (b : Bool) : DrawSource :=
  let e := d.countBit b
  if e.windowBits = 512 then e.nextWindow else e

/-- Bits that bring neither a run of 32 nor a window that fails, from the counts given (R158). -/
def DrawSource.sound : List Bool → DrawSource → Bool
  | [], _ => true
  | b :: bs, d =>
    let e := d.countBit b
    e.runLength != 32 && (e.windowBits != 512 || e.windowPasses) && DrawSource.sound bs (d.passBit b)

/-- A view with the counts of the noise tests and the group of a draw source. -/
def Kept.counted (k : Kept) (d : DrawSource) : Kept :=
  { k with
    lastBit := d.lastBit, runLength := d.runLength, windowBits := d.windowBits, ones := d.ones
    windowFailed := d.windowFailed, group := d.group }

/-! ### What handing a frame over and announcing do not touch -/

/-- Everything but the transmit side, the announcing, the draws, the timers of the power unit, the standby progress, the
reload mark, the stall check and the faults. -/
structure StationCore where
  clock : Stamp
  config : Option Configuration
  tally : Tally
  lastCall : Nat
  lastReport : Nat
  delivered : BitVec 32
  dropped : BitVec 32
  reference : Option IVec
  opState : OpState
  directory : Directory
  circuits : Circuits
  bearers : Bearers
  audio : List Bridge
  panel : Panel
  call : Call
  queue : List ReportEntry
  relay : List RelayEntry
  cabinet : Cabinet
  free : Nat
deriving DecidableEq, Repr

/-- The view of a station. -/
def Station.core (s : Station) : StationCore :=
  { clock := s.keep.clock, config := s.keep.config, tally := s.keep.tally, lastCall := s.keep.lastCall
    lastReport := s.keep.lastReport, delivered := s.keep.delivered, dropped := s.keep.dropped
    reference := s.keep.reference, opState := s.power.opState, directory := s.directory, circuits := s.circuits
    bearers := s.bearers, audio := s.audio, panel := s.panel, call := s.call, queue := s.reports.queue
    relay := s.reports.relay, cabinet := s.cabinet, free := s.free }

/-- A frame of a body and a destination stands in the transmit queue, in service included (R146). -/
def Station.holdsFrame (s : Station) (body : TxBody) (dest : Nat) : Bool :=
  s.queued fun g => g.body == body && g.dest == dest

end Sys2Proof.Machine
end

