-- ==== Sys2Proof/Certificates/Slice0/Obligations.lean ====
section
/-! DEFINITION. The statements for the provers. -/

open Sys2Proof Sys2Proof.Machine

/-! ### Steps, rails and resets (R165-R177) -/

/-- A step of a state whose queue holds a command at its front is that command's effect with the queue's rest (the row's
convention, log entry 1). -/
def Obligations.StepRunsFrontCommand : Prop :=
  ∀ (c : Instr) (s : State), step { s with pending := c :: s.pending } = exec c s

/-- On an empty queue a step queues the expiry of the first timer that has come due, and where none has, the station clock
counts one millisecond on the keep rail and wraps into the epoch; nothing else of the station changes but that the outputs
of the last command are gone (R175; the idle step is the model's choice, log entries 1 and 3). -/
def Obligations.IdleStepQueuesExpiryOrCounts : Prop :=
  ∀ s : State, s.pending = [] →
    (∀ c, s.station.dueExpiry = some c →
      step s = .next { pending := [c], station := { s.station with out := [], work := [] } }) ∧
    (s.station.dueExpiry = none → s.station.power.keepRail = true →
      step s =
        .next
          { pending := []
            station :=
              { s.station with
                keep.clock :=
                  if s.station.keep.clock.clock = 4294967295 then ⟨s.station.keep.clock.epoch + 1, 0⟩
                  else ⟨s.station.keep.clock.epoch, s.station.keep.clock.clock + 1⟩
                out := [], work := [] } })

/-- No command stops the block, and none touches the queue of the commands that wait behind it: each is a step of the block,
whole and indivisible (95_what_each_step_holds). That the commands from outside wait in a queue, and that one which finds
nothing to act on goes on too, are the model's choices (log entries 1 and 42). -/
def Obligations.EveryCommandGoesOn : Prop :=
  ∀ (c : Instr) (s : State), ∃ t, exec c s = .next t ∧ t.pending = s.pending

/-- The keep rail applied makes a power-on reset: every block, the keep domain included, is at its reset values, and START
begins with cause POWER_ON; with the main rail absent or the reset line asserted it holds the station in reset with the keep
domain and the volatile blocks cleared (log entry 8). The keep rail lost clears the keep domain, every volatile block, the
cabinet monitor and the power unit, all but the levels of the other rail and of the reset line, and the station no longer
runs (R165, R176, R177). The values after a reset that the spec does not give, and that the bearers' modules
count as unpowered from the rail's loss on, are the model's choices (log entries 9, 13 and 54). -/
def Obligations.KeepRailClearsAll : Prop :=
  ∀ s : State,
    (s.station.power.keepRail = false → s.station.power.mainRail = true → s.station.power.resetLine = false →
      exec .keepRailApplied s =
        .next { s with station := { Station.reset with out := [.sensorRate 100], free := s.station.free } }) ∧
    (s.station.power.keepRail = false → s.station.power.mainRail = false ∨ s.station.power.resetLine = true →
      ∃ t, exec .keepRailApplied s = .next t ∧ t.station.running = false ∧ t.station.power.keepRail = true ∧
        t.station.power.held = true ∧ t.station.keep = clearedKeep ∧ t.station.Cleared ∧
        t.station.cabinet = clearedCabinet none none) ∧
    (∃ t, exec .keepRailLost s = .next t ∧ t.station.running = false ∧ t.station.keep = clearedKeep ∧
      t.station.Cleared ∧ t.station.cabinet = clearedCabinet none none ∧
      t.station.power =
        { Station.reset.power with
          keepRail := false, mainRail := s.station.power.mainRail, resetLine := s.station.power.resetLine
          configRead := none })

/-- The reset line asserted, or the main rail lost outside STANDBY, holds a running station in reset with its volatile
blocks at their warm-reset values; the line released with the main rail there, the main rail's return with the line
released, a RESTART order, and a RELOAD order to an idle station on the built-in set make a warm reset, which begins START
with cause WARM, the configuration read with its 500 ms, and the sensor's silence limit. The keep domain stays but for the
counts of what the reset loses (R108, R126, R131, R140, R167, R169, R176, R177, R183). That a held station shows START with
nothing running, and that no idle gap has passed after a reset, are the model's choices (log entries 30 and 9). -/
def Obligations.ResetHoldsOrStartsAgain : Prop :=
  ∀ s : State, s.station.power.keepRail = true →
    let held (p : Power) (t : State) : Prop :=
      t.station.power = { p.cleared with held := true } ∧ t.station.Cleared ∧
        s.station.KeepAfterReset t.station.keep ∧ t.station.cabinet = clearedCabinet s.station.keep.reference none
    let starts (p : Power) (t : State) : Prop :=
      t.station.power =
          { p.cleared with
            startCause := .warm, wakeCause := none, held := false, configRead := some (s.station.within 500) } ∧
        t.station.Cleared ∧ s.station.KeepAfterReset t.station.keep ∧
        t.station.cabinet = clearedCabinet s.station.keep.reference (some (s.station.within 1000))
    let p := s.station.power
    (p.held = false →
      (∃ t, exec .resetLineAsserted s = .next t ∧ held { p with resetLine := true } t) ∧
      (p.opState ≠ .standby → ∃ t, exec .mainRailLost s = .next t ∧ held { p with mainRail := false } t)) ∧
    (p.held = true →
      (p.mainRail = true → ∃ t, exec .resetLineReleased s = .next t ∧ starts { p with resetLine := false } t) ∧
      (p.resetLine = false → p.heldWake = none →
        ∃ t, exec .mainRailReturn s = .next t ∧ starts { p with mainRail := true } t)) ∧
    (∀ f x, s.station.Serves 13 f →
      (readService f.body = some (2, x) → ∃ t, exec (.restart f) s = .next t ∧ starts p t) ∧
      (readService f.body = some (3, x) → p.reload = none → s.station.reloadIdle = true →
        s.station.onBuiltIn = true → ∃ t, exec (.reload f) s = .next t ∧ starts p t))

/-- In STANDBY with the main rail there, each wake cause makes the station ACTIVE with start cause WAKE and that wake cause:
the directory is empty, and each fitted bearer is powered up and in STARTING. The check-in timer, a WAKE for the station or
for 63, a settled off-hook, a counted press, a sample that opens an IMPACT event, one that raises TILT or KNOCKDOWN, and the
main rail's return with a cause held are such causes. An off-hook leaves the hook state OFF_HOOK, and a press is disregarded
until its release. The wake queues an ACTIVE ANNOUNCE with solicit (R6, R12, R36, R39, R110, R111, R128, R129, R155, R173,
R174, R177). The moment of an expiry is the model's choice (log entry 2), and so is the hook level and the held press that a
wake takes over from the watch of STANDBY (log entry 28); that a sample's deviation is compared exactly, on an exact
baseline, and its angle exactly, are the model's choices too (log entries 20 and 19). -/
def Obligations.WakeEntersActive : Prop :=
  ∀ s : State, s.station.running = true → s.station.power.opState = .standby → s.station.power.progress = .none →
    let woken (cause : WakeCause) (held : Bool) (now : Stamp) (t : State) : Prop :=
      t.station.power.opState = .active ∧ t.station.power.startCause = .wake ∧
        t.station.power.wakeCause = some cause ∧ t.station.power.checkIn = none ∧ t.station.keep.clock = now ∧
        t.station.directory = { entries := [], effective := s.station.config.circuits } ∧
        t.station.panel.hook = (if cause = .offHook then .offHook else s.station.panel.hook) ∧
        t.station.panel.disregard = held ∧
        ∀ l, s.station.fitted l = true →
          t.station.bearer l =
            { clearedBearer with
              state := .starting, powered := true
              inFlight := some ⟨.powerUp, some (Stamp.later now 20000)⟩ }
    let held := s.station.panel.disregard
    (s.station.power.mainRail = true →
      (∀ d now, s.station.power.checkIn = some d → now = Stamp.moment s.station.now d →
        ∃ t, exec .checkInTimerExpiry s = .next t ∧ woken .checkIn held now t) ∧
      (∀ f, s.station.transmitting = false → s.station.line.assembly ≠ .skipping → frameCheckOk 2 f = true →
        s.station.config.segment = some f.segment → frameAddressesDefined f = true → f.source ≠ 0 → f.body = [] →
        s.station.isOwn f.dest.toNat = true ∨ f.dest.toNat = 63 →
        ∃ t, exec (.wakeFrame f) s = .next t ∧ woken .wakeFrame held s.station.now t) ∧
      (∃ t, exec .offHook s = .next t ∧ woken .offHook held s.station.now t) ∧
      (∃ t, exec .buttonPressCounts s = .next t ∧ woken .button true s.station.now t) ∧
      (∀ (x y z : Int) (b : QVec), s.station.cabinet.baseline = some b →
        (∀ start n sum low high, s.station.cabinet.capture = .window start n sum low high →
          Stamp.elapsed start s.station.now < 10000) →
        -8000 ≤ x ∧ x ≤ 8000 → -8000 ≤ y ∧ y ≤ 8000 → -8000 ≤ z ∧ z ≤ 8000 →
        let limit : Rat := (s.station.config.impactThreshold * 100 : Nat)
        let d : QVec := ⟨x - b.x, y - b.y, z - b.z⟩
        let opens : Prop := limit * limit < d.x * d.x + d.y * d.y + d.z * d.z ∧ s.station.cabinet.impact = .quiet
        let wakes (cause : WakeCause) : Prop :=
          ∃ t, exec (.sample x y z) s = .next t ∧ woken cause held s.station.now t
        (opens → wakes .impact) ∧
        (∀ r start high eligible, ¬ opens → s.station.keep.reference = some r →
          s.station.cabinet.tilt = .sustaining start high eligible →
          let m : QVec := ⟨b.x + d.x / 100, b.y + d.y / 100, b.z + d.z / 100⟩
          m.testable = true → r.exact.testable = true →
          angleAbove (cosSq s.station.config.tiltThreshold) m r.exact = true →
          (∀ h, eligible = true → high = some h → angleAbove (1 / 4) m r.exact = true →
            5000 ≤ Stamp.elapsed h s.station.now → wakes .knockdown) ∧
          (eligible = false ∨ angleAbove (1 / 4) m r.exact = false →
            5000 ≤ Stamp.elapsed start s.station.now → wakes .tilt)))) ∧
    (∀ cause, s.station.power.heldWake = some cause →
      ∃ t, exec .mainRailReturn s = .next t ∧ woken cause held s.station.now t) ∧
    (s.station.power.mainRail = true →
      ∀ cause, (takeTask (.wake cause) s.station).holdsFrame (.announce false true) 63 = true)

/-- The record read in START decides the service: a valid one is copied and the station becomes ACTIVE; an invalid one, or
none in time, raises CONFIG_INVALID, and the station becomes ISOLATED on the built-in set. Either way the directory is
empty, each bearer fitted by the new configuration is powered up and in STARTING, a call request held in START makes its
origin context, which is to select its route, and each pending cabinet event becomes a waiting report. The entry into ACTIVE
queues an ACTIVE ANNOUNCE with solicit (R6, R12, R39, R64, R113, R130, R132, R133, R165, R167, R168). `u` is the station
before the other blocks take their notices. The moment of the read limit's expiry is the model's choice (log entry 2). -/
def Obligations.ConfigurationReadDecidesService : Prop :=
  ∀ (d : Stamp) (s : State), s.station.Awake → s.station.power.opState = .start →
    s.station.power.configRead = some d → s.station.bearers = clearedBearers → s.station.call.origin = none →
    s.station.reports.queue = [] → (s.station.cabinet.pending.map (·.kind)).Nodup →
    let started (now : Stamp) (fitted : Bool) : KeptBearer :=
      if fitted then
        Bearer.kept
          { clearedBearer with
            state := .starting, powered := true, inFlight := some ⟨.powerUp, some (Stamp.later now 20000)⟩ }
      else clearedBearer.kept
    let entered (k : Kept) (now : Stamp) (op : OpState) (c : Configuration) : Kept :=
      { k with
        clock := now, config := some c, opState := op, configRead := none
        directory := { entries := [], effective := c.circuits }, request := none
        cabinet := { s.station.cabinet with pending := [] }
        bearerA := started now (1 ≤ c.bearersFitted), bearerB := started now (2 ≤ c.bearersFitted) }
    let handsOn (now : Stamp) (c : Configuration) (u : Station) : Prop :=
      (s.station.panel.request = none → u.call = s.station.call) ∧
        (∀ mode, s.station.panel.request = some mode →
          ∃ o, u.call = { s.station.call with origin := some o } ∧ o.mode = mode ∧ o.phase = .selecting ∧
            o.tag = ⟨c.address.getD 0, (s.station.keep.lastCall + 1) % 4096⟩ ∧
            o.setupDeadline = some (Stamp.later now (c.setupLimit * 1000)) ∧ .select o.tag ∈ u.work) ∧
        ∀ e ∈ s.station.cabinet.pending, ∃ g ∈ u.reports.queue,
          g.state = .waiting ∧ g.record.kind = e.kind ∧ g.record.first = e.first ∧ g.record.last = e.last ∧
            g.record.repeats = e.repeats ∧ g.peakSq = e.peakSq
    let decides (i : Instr) (k : Kept) (now : Stamp) (op : OpState) (c : Configuration) : Prop :=
      ∃ u, exec i s = .next { s with station := finish u } ∧ (finish u).kept = entered k now op c ∧ handsOn now c u
    let k := s.station.kept
    (∀ bytes c, readConfiguration bytes = some c →
      decides (.configReadComplete bytes) k s.station.now .active c ∧
        (s.station.line = clearedLine → s.station.power.progress = .none →
          ∃ u, exec (.configReadComplete bytes) s = .next { s with station := finish u } ∧
            u.holdsFrame (.announce false true) 63 = true)) ∧
    (∀ bytes, readConfiguration bytes = none →
      decides (.configReadComplete bytes) (k.raised .configInvalid) s.station.now .isolated builtInSet) ∧
    (∀ now, now = Stamp.moment s.station.now d →
      decides .configReadLimitExpiry (k.raised .configInvalid) now .isolated builtInSet)

/-- A RELOAD order to an idle station with an address begins a read with its limit of 500 ms; while the station is not idle
or a read runs it is answered BUSY. The read ends the reload: an invalid record, or none in time, raises CONFIG_REJECTED
and is answered REJECTED, a valid one after the idle condition has failed is answered BUSY, neither touching anything else;
a valid one while the station has stayed idle replaces the configuration copy and is answered DONE. Then a changed segment
code empties directory and circuit view and queues an ANNOUNCE with solicit; with the segment code as it was, the entry for
a changed own address and the circuits that it holds go, and the effective count is that of the entries; a bearer no longer
fitted is OFF, one newly fitted is powered up and in STARTING; a changed circuit count or announce period queues an ANNOUNCE.
The recomputation raises CIRCUIT_MISMATCH where the station was in mismatch and the effective count is lower than before, or
was not and is now (R6, R7, R12, R35, R63, R169, R183). `u` is the station before the other blocks take their notices. The
moment of the read limit's expiry, and that the old configured count says whether the station was in mismatch, are the
model's choices (log entries 2 and 50). -/
def Obligations.ReloadReadsRecord : Prop :=
  ∀ s : State, s.station.Awake → s.station.line.total < 7 →
    let answers (result : Byte) (now : Stamp) (segment : BitVec 16) (t : State) : Prop :=
      t.station.core = { s.station.core with clock := now } ∧
        t.station.holdsFrame (.status ([131, 0, result] ++ stampBytes now) segment) 0 = true
    (∀ f x, s.station.Serves 13 f → readService f.body = some (3, x) →
      (s.station.power.reload = none → s.station.reloadIdle = true → s.station.onBuiltIn = false →
        ∃ t, exec (.reload f) s = .next t ∧ t.station.core = s.station.core ∧
          t.station.kept =
            { s.station.kept with
              reload := some (s.station.within 500, f.segment), assembly := .skipping }) ∧
      (s.station.power.reload.isSome = true ∨ s.station.reloadIdle = false →
        ∃ t, exec (.reload f) s = .next t ∧ answers 3 s.station.now f.segment t)) ∧
    (∀ r, s.station.power.reload = some r → s.station.inService = true →
      (∀ bytes, readConfiguration bytes = none →
        ∃ t, exec (.reloadReadComplete bytes) s = .next t ∧ answers 4 s.station.now r.segment t ∧
          t.station.kept = { s.station.kept.raised .configRejected with reload := none }) ∧
      (∀ now, now = Stamp.moment s.station.now r.limit → s.station.power.configRead = none →
        ∃ t, exec .configReadLimitExpiry s = .next t ∧ answers 4 now r.segment t ∧
          t.station.kept = { s.station.kept.raised .configRejected with reload := none, clock := now }) ∧
      (∀ bytes c, readConfiguration bytes = some c → r.idleFailed = true ∨ s.station.reloadIdle = false →
        ∃ t, exec (.reloadReadComplete bytes) s = .next t ∧ answers 3 s.station.now r.segment t ∧
          t.station.kept = { s.station.kept with reload := none }) ∧
      (∀ bytes c, readConfiguration bytes = some c → r.idleFailed = false → s.station.reloadIdle = true →
        let old := s.station.config
        let sameSegment : Prop := old.segment = c.segment
        let fits (l : Letter) : Bool := if l = .a then 1 ≤ c.bearersFitted else 2 ≤ c.bearersFitted
        ∃ u, exec (.reloadReadComplete bytes) s = .next { s with station := finish u } ∧
          (finish u).keep.config = some c ∧ (finish u).power.reload = none ∧
          (finish u).power.opState = s.station.power.opState ∧
          (s.station.line.total < 6 →
            u.holdsFrame (.status ([131, 0, 2] ++ stampBytes s.station.now) r.segment) 0 = true) ∧
          (¬ sameSegment →
            u.directory = { entries := [], effective := c.circuits } ∧ u.circuits = clearedCircuits) ∧
          u.keep.faults.counter .circuitMismatch =
            (if
                (if s.station.directory.effective < old.circuits then
                  u.directory.effective < s.station.directory.effective
                else u.directory.effective < c.circuits) then
              min 255 (s.station.keep.faults.counter .circuitMismatch + 1)
            else s.station.keep.faults.counter .circuitMismatch) ∧
          (sameSegment →
            u.directory.entries =
                (if old.address = c.address then s.station.directory.entries
                else s.station.directory.entries.filter fun e => some e.address != c.address) ∧
              u.directory.effective = u.directory.entries.foldl (fun n e => min n e.circuits) c.circuits ∧
              ∀ e, u.entry e =
                match (s.station.entry e).holding with
                | some h =>
                  if old.address ≠ c.address ∧ some h.1 = c.address then .free else s.station.entry e
                | none => s.station.entry e) ∧
          (∀ l, (fits l = false → u.bearer l = clearedBearer) ∧
            (fits l = true → (s.station.bearer l).state ≠ .off → u.bearer l = s.station.bearer l) ∧
            (fits l = true → s.station.bearer l = clearedBearer →
              u.bearer l =
                { clearedBearer with
                  state := .starting, powered := true
                  inFlight := some ⟨.powerUp, some (s.station.within 20000)⟩ })) ∧
          (s.station.power.opState = .active → s.station.line.total < 6 →
            (¬ sameSegment →
              (u.queued fun g =>
                match g.body with
                | .announce _ solicit => solicit
                | _ => false) = true) ∧
            (old.circuits ≠ c.circuits ∨ old.announcePeriod ≠ c.announcePeriod → u.announceQueued = true))))

/-- The idle timer's expiry begins a standby entry: with no command in flight a STANDBY ANNOUNCE is queued, else the entry
waits for the commands. A WAKE for the station or for 63 abandons an entry in progress and restarts the idle timer. An
off-hook ends the quiet condition, and at the end of a command that has ended it an entry in progress is abandoned: a queued
STANDBY ANNOUNCE becomes an ACTIVE one, its re-announce mark set while it is transmitted, and where it has been sent an
ACTIVE one is queued, with solicit if a cause that was held back had it. The drop of the STANDBY ANNOUNCE abandons the entry
too, and an ACTIVE one is queued if causes were held back. Where the entry goes on, the answer to the last command, such as
LEVEL, queues the ANNOUNCE, or, where the ANNOUNCE has been sent, enters STANDBY. When that ANNOUNCE has been sent and no
command is in flight, STANDBY is entered: the volatile blocks are cleared, the draw source is off, the check-in timer runs
where one is configured, and the keep domain and the cabinet monitor are as they were (R6, R13, R15, R35, R63, R123, R155,
R164, R171-R173). The moment of an expiry, the judging of the ANNOUNCE by what was composed, that a solicit flag which the
STANDBY ANNOUNCE carried stays at abandonment, and what the watch of STANDBY has from the panel are the model's choices (log
entries 2, 29, 51 and 28). -/
def Obligations.StandbyIsEntered : Prop :=
  let abandoned (s t : Station) : Prop :=
    let held := s.announcing.heldBack.getD false
    t.power.progress = .none ∧
      (s.power.progress = .announcing →
        t.queued (fun g => g.body.saysStandby) = false ∧
          (∀ old d, s.holdsFrame (.announce true old) d = true → t.holdsFrame (.announce false (old || held)) d = true) ∧
          (s.announcingNow = true → t.announcing.mark = true ∧ t.announcing.markSolicit = held)) ∧
      (s.power.progress = .waitingEntry → s.power.opState = .active → s.announceQueued = false → s.line.total < 8 →
        t.holdsFrame (.announce false held) 63 = true)
  (∀ u : Station, u.quiet = false → abandoned u (upkeep u)) ∧
  ∀ s : State, s.station.running = true → s.station.quiet = true →
    (∃ u, exec .offHook s = .next { s with station := finish u } ∧ u.quiet = false ∧
      u.power.progress = s.station.power.progress) ∧
    (∀ f, s.station.transmitting = false → s.station.line.assembly ≠ .skipping → frameCheckOk 2 f = true →
      s.station.config.segment = some f.segment → s.station.isOwn f.source.toNat = false →
      frameAddressesDefined f = true → f.source ≠ 0 → f.body = [] →
      s.station.isOwn f.dest.toNat = true ∨ f.dest.toNat = 63 →
      ∃ t, exec (.wakeFrame f) s = .next t ∧ abandoned s.station t.station ∧ t.station.power.opState = .active ∧
        t.station.power.idleTimer = some (s.station.within (s.station.config.idleTime * 1000))) ∧
    (∀ f bytes x solicit, s.station.power.progress = .announcing →
      s.station.line.service = some ⟨f, .attempting bytes x⟩ → f.body = .announce true solicit → 8 ≤ f.attempts →
      (∀ g ∈ s.station.line.queue, g.body.isAnnounce = false) → s.station.line.queue.length < 8 →
      ∃ t, exec .collision s = .next t ∧ t.station.power.progress = .none ∧ t.station.power.opState = .active ∧
        (s.station.announcing.heldBack = none → t.station.announceQueued = false) ∧
        ∀ held, s.station.announcing.heldBack = some held →
          t.station.holdsFrame (.announce false held) 63 = true) ∧
    (∀ d now, s.station.power.progress ≠ .waitingEntry → s.station.power.idleTimer = some d →
      now = Stamp.moment s.station.now d → s.station.line.total < 8 →
      (s.station.noCommand = true →
        ∃ t, exec .idleTimerExpiry s = .next t ∧ t.station.core = { s.station.core with clock := now } ∧
          t.station.power.progress = .announcing ∧
          t.station.queued (fun g => g.body.isAnnounce && g.body.saysStandby) = true) ∧
      (s.station.noCommand = false →
        ∃ t, exec .idleTimerExpiry s = .next t ∧ t.station.core = { s.station.core with clock := now } ∧
          t.station.power.progress = .waitingCommand)) ∧
    (∀ l level x, s.station.fitted l = true → (s.station.bearer l).state = .checking →
      (s.station.bearer l).inFlight = some ⟨.status, x⟩ → (∀ m, m ≠ l → s.station.fitted m = true →
        (s.station.bearer m).inFlight = none) →
      s.station.bearers.waiting = [] → level.toNat ≤ 63 → s.station.line.total < 8 →
      (s.station.power.progress = .waitingCommand →
        ∃ t, exec (.level l level) s = .next t ∧ t.station.power.opState = .active ∧
          t.station.power.progress = .announcing ∧
          t.station.queued (fun g => g.body.isAnnounce && g.body.saysStandby) = true) ∧
      (s.station.power.progress = .waitingEntry →
        ∃ t, exec (.level l level) s = .next t ∧ t.station.power.opState = .standby ∧
          t.station.power.progress = .none ∧ t.station.keep = s.station.keep ∧
          t.station.cabinet = s.station.cabinet ∧ t.station.bearers = clearedBearers)) ∧
    (∀ f bytes, s.station.line.service = some ⟨f, .attempting bytes true⟩ → f.body.isAnnounce = true →
      s.station.power.progress = .announcing → s.station.announcing.mark = false → s.station.noCommand = true →
      ∃ t, exec .transmissionComplete s = .next t ∧ t.station.power.opState = .standby ∧
        t.station.power.progress = .none ∧
        t.station.power.checkIn =
          (if s.station.config.checkIn = 0 then none
          else some (s.station.within (s.station.config.checkIn * 3600000))) ∧
        t.station.keep = s.station.keep ∧ t.station.cabinet = s.station.cabinet ∧
        t.station.directory = { entries := [], effective := s.station.config.circuits } ∧
        t.station.announcing = clearedAnnouncing ∧ t.station.circuits = clearedCircuits ∧
        t.station.line.queue = [] ∧ t.station.line.service = none ∧
        t.station.draw = { startedDraw with mode := .off } ∧ t.station.bearers = clearedBearers ∧
        t.station.audio = [] ∧
        t.station.panel = { clearedPanel with hook := .onHook, disregard := s.station.panel.pressHeld } ∧
        t.station.call = { origin := none, carriers := [] } ∧ t.station.reports = clearedReports)

/-- A wrap of the clock sets it to 0 and the epoch one higher, from 65,535 to 0, in every operating state while the keep
rail is there; nothing else changes but that the outputs of the last command are gone (R175). That the wrap is taken
whatever the clock shows, and that outputs are those of the last command, are the model's choices (log entries 43 and
44). -/
def Obligations.ClockWrapsIntoEpoch : Prop :=
  ∀ s : State, s.station.power.keepRail = true →
    exec .clockWrap s =
      .next
        { s with
          station :=
            { s.station with keep.clock := ⟨s.station.keep.clock.epoch + 1, 0⟩, out := [], work := [] } }

/-! ### Invariants -/

/-- Right after reset the queue is empty, the configuration fits the operating state, the directory is in order, and every
queue and list is within its capacity. -/
def Obligations.ResetMeetsInvariants : Prop :=
  State.reset.pending = [] ∧ State.reset.station.ConfigFits ∧ State.reset.station.DirectoryFits ∧
    State.reset.station.CapacitiesFit

/-- Every step keeps the configuration fitting the operating state: a station in ACTIVE or STANDBY has a record with an
address and a segment code, one in ISOLATED has a record or the built-in set (R165, R167-R170). -/
def Obligations.StepsKeepConfigurationFitting : Prop :=
  ∀ s t : State, step s = .next t → s.station.ConfigFits → t.station.ConfigFits

/-- Every step keeps the directory in order: at most 31 entries, each of a peer, in address order with values in their
ranges, and the effective circuit count the smallest of the counts (R1, R3, R6, R7). -/
def Obligations.StepsKeepDirectoryInOrder : Prop :=
  ∀ s t : State, step s = .next t → s.station.DirectoryFits → t.station.DirectoryFits

/-- Every step keeps these queues and lists within their capacities: eight frames in the transmit queue and in service, eight
draws in the pool, two carrier contexts, four bridges, eight reports, four relayed reports, and six networks and four bars
on each bearer (R38, R42, R84, R119, R133, R138, R146, R160). Nothing is said of the tried list, the declined lists, the
pending cabinet events and the draw requests that wait. -/
def Obligations.StepsKeepCapacities : Prop :=
  ∀ s t : State, step s = .next t → s.station.CapacitiesFit → t.station.CapacitiesFit

/-! ### Bearers (R36-R63) -/

/-- READY ends STARTING: the timeout and power-cycle counts are cleared, SCAN is in flight with its 45 s, SEARCHING (R36,
R39). SCAN_RESULT in SEARCHING makes the network list; the first network not barred is chosen and CAMP is in flight with its
15 s, or, where none is eligible, NO_SERVICE with a rescan timer of 10 s (R36, R40, R41). Every other part of the view is
as it was. -/
def Obligations.ReadyScansAndScanChooses : Prop :=
  ∀ (l : Letter) (s : State), s.station.Awake → s.station.fitted l = true →
    ((s.station.bearer l).state = .starting →
      ∃ t, exec (.ready l) s = .next t ∧
        t.station.kept = s.station.kept.withBearer l
          { s.station.bearer l with
            state := .searching, timeouts := 0, powerCycles := 0
            inFlight := some ⟨.scan, some (s.station.within 45000)⟩
            camped := none, recheck := none, owed := 0, alloc := none, rescan := none }) ∧
    ((s.station.bearer l).state = .searching → ∀ items,
      ∃ t, exec (.scanResult l items) s = .next t ∧
        t.station.kept = s.station.kept.withBearer l
          (let r : Bearer :=
            { s.station.bearer l with
              timeouts := 0, networks := networkList items, camped := none, recheck := none, owed := 0, alloc := none }
          match (networkList items).find? fun n => !(s.station.bearer l).barred.any fun b => b.1 == n.1 with
          | some n => { r with state := .camping, inFlight := some ⟨.camp n.1, some (s.station.within 15000)⟩ }
          | none => { r with state := .noService, inFlight := none, rescan := some (s.station.within 10000) }))

/-- The answers that end a bearer's work take it to SETTLING with its guard of 3 s, the claimant given the outcome and
RELEASED, and no allocation is left: ENDED of a dial by the far side, ENDED of a call in IN_CALL, both answers in SENDING,
and ENDED or REPORT_FAILED for the HANGUP in ENDING, where a bearer that a voice claim has preempted is RESERVED for that
claim instead, or dials where the order is kept; a network lost with that answer is lost first. An answer to a command in
flight clears the timeout count. ENDED(REJECTED) with the DIAL in flight bars the camped network for 10 minutes: its bar is
renewed, or joins the list, or replaces in a list of four the bar of the earliest expiry, of equal ones that of the lower
network id. Then, once in an allocation, CAMP goes to the first network not barred and the claimant is given REDIALING; with
the flag set already, or no network eligible, the claimant is given DIAL_FAILED and RELEASED (R42, R44, R50, R52, R56-R62).
`u` is the station before the other blocks take their notices. The places of the bars in the list are the model's choice
(log entry 46). -/
def Obligations.EndOfWorkSettles : Prop :=
  ∀ (l : Letter) (s : State), s.station.Awake → s.station.fitted l = true →
    let r := s.station.bearer l
    let settling : Bearer :=
      { r with
        state := .settling, inFlight := none, alloc := none, dialLimit := none
        settle := some (s.station.within 3000) }
    let answered : Bearer := { r with timeouts := 0 }
    let writes (i : Instr) (q : Bearer) (outcomes : List Notice) : Prop :=
      ∃ u, exec i s = .next { s with station := finish u } ∧ u.bearer l = q ∧
        (finish u).kept = s.station.kept.withBearer l q ∧
        ∀ a, r.alloc = some a → ∀ n ∈ outcomes, .notice a.who l n ∈ u.work
    (r.dialInFlight = true →
      writes (.ended l .remoteHangup) { settling with timeouts := 0 } [.dialFailed, .released] ∧
      ∃ barred : List (Nat × Stamp),
        (r.camped = none → barred = r.barred) ∧
        (∀ n level, r.camped = some (n, level) →
          let bar : Nat × Stamp := (n, Stamp.later s.station.now 600000)
          let listed : Bool := r.barred.any fun b => b.1 == n
          (listed = true → barred = r.barred.map fun b => if b.1 = n then bar else b) ∧
          (listed = false → r.barred.length < 4 → barred = r.barred ++ [bar]) ∧
          (listed = false → 4 ≤ r.barred.length →
            ∃ old ∈ r.barred,
              (∀ b ∈ r.barred, Stamp.before b.2 old.2 = false ∧ (b.2 = old.2 → old.1 ≤ b.1)) ∧
              barred = r.barred.map fun b => if b = old then bar else b)) ∧
        let choice := r.networks.find? fun m => !barred.any fun b => b.1 == m.1
        (∀ a m, r.alloc = some a → a.redialUsed = false → choice = some m →
          writes (.ended l .rejected)
            { answered with
              state := .dialing, barred := barred, dialLimit := none
              inFlight := some ⟨.camp m.1, some (s.station.within 15000)⟩
              alloc := some { a with redialUsed := true } }
            [.redialing]) ∧
        ((∀ a, r.alloc = some a → a.redialUsed = true) ∨ choice = none →
          writes (.ended l .rejected) { settling with timeouts := 0, barred := barred } [.dialFailed, .released])) ∧
    (r.state = .inCall → ∀ reason, reason = .remoteHangup ∨ reason = .rejected →
      writes (.ended l reason) settling [.farEnd, .released]) ∧
    (r.state = .sending →
      writes (.reportSent l) { settling with timeouts := 0 } [.reportSent, .released] ∧
      writes (.reportFailed l) { settling with timeouts := 0 } [.reportFailed, .released]) ∧
    (r.state = .ending →
      (∀ i ∈ [Instr.ended l .remoteHangup, .ended l .rejected, .reportFailed l],
        ((∀ a, r.alloc = some a → a.preempt = false) → writes i { settling with timeouts := 0 } [.released]) ∧
        (∀ a, r.alloc = some a → a.preempt = true →
          let own : Allocation := { a with preempt := false, keptDial := false }
          (a.keptDial = false →
            writes i { answered with state := .reserved, inFlight := none, alloc := some own } []) ∧
          (a.keptDial = true →
            writes i
              { answered with
                state := .dialing, inFlight := some ⟨.dial, none⟩, alloc := some own
                dialLimit := some (s.station.within 60000) }
              []))) ∧
      writes (.ended l .networkLost) { settling with timeouts := 0, camped := none, recheck := none, owed := 0 }
        [.released] ∧
      (∀ a, r.alloc = some a → a.preempt = true →
        writes (.ended l .networkLost) { settling with timeouts := 0, camped := none, recheck := none, owed := 0 }
          [.dialFailed, .released]))

/-- LOST takes a bearer off its network, and the claimant is given the outcome: a bearer that no dial, call or report holds
goes into SEARCHING with SCAN in flight; one with its DIAL in flight, in IN_CALL or in SENDING goes into ENDING with HANGUP
in flight; a re-camp ends in SETTLING; in ENDING a preemption's voice claim is given DIAL_FAILED and its mark goes; in
SETTLING only the camped network goes; where no network is involved LOST is discarded. ENDED(NETWORK_LOST) does likewise
with the DIAL in flight, where it clears the timeout count, and in IN_CALL (R37, R44, R50, R56-R58, R62). `u` is the station
before the other blocks take their notices. -/
def Obligations.LostTakesBearerOffNetwork : Prop :=
  ∀ (l : Letter) (s : State), s.station.Awake → s.station.fitted l = true →
    let r := s.station.bearer l
    let off : Bearer := { r with camped := none, recheck := none, owed := 0 }
    let ending : Bearer :=
      { off with state := .ending, dialLimit := none, inFlight := some ⟨.hangup, some (s.station.within 5000)⟩ }
    let writes (i : Instr) (q : Bearer) (outcomes : List Notice) : Prop :=
      ∃ u, exec i s = .next { s with station := finish u } ∧ u.bearer l = q ∧
        (finish u).kept = s.station.kept.withBearer l q ∧
        ∀ a, r.alloc = some a → ∀ n ∈ outcomes, .notice a.who l n ∈ u.work
    let searching : Bearer :=
      { off with
        state := .searching, inFlight := some ⟨.scan, some (s.station.within 45000)⟩, alloc := none
        rescan := none }
    (r.state = .camping ∨ r.state = .available ∨ r.state = .checking → writes (.lost l) searching []) ∧
    (r.state = .reserved → writes (.lost l) searching [.dialFailed, .released]) ∧
    (r.state = .ringing ∨ r.state = .dialing ∧ (∀ n x, r.inFlight ≠ some ⟨.camp n, x⟩) →
      writes (.lost l) ending [.dialFailed]) ∧
    (r.dialInFlight = true → writes (.ended l .networkLost) { ending with timeouts := 0 } [.dialFailed]) ∧
    (∀ n x, r.state = .dialing → r.inFlight = some ⟨.camp n, x⟩ →
      writes (.lost l)
        { off with
          state := .settling, inFlight := none, alloc := none, dialLimit := none
          settle := some (s.station.within 3000) }
        [.dialFailed, .released]) ∧
    (r.state = .inCall →
      writes (.lost l) ending [.bearerLost] ∧ writes (.ended l .networkLost) ending [.bearerLost]) ∧
    (r.state = .sending → writes (.lost l) ending [.reportFailed]) ∧
    (r.state = .ending →
      (r.alloc = none → writes (.lost l) off []) ∧
      (∀ a, r.alloc = some a →
        writes (.lost l) { off with alloc := some { a with preempt := false, keptDial := false } }
          (if a.preempt = true then [.dialFailed] else []))) ∧
    (r.state = .settling → writes (.lost l) off []) ∧
    (r.state = .off ∨ r.state = .starting ∨ r.state = .searching ∨ r.state = .noService ∨ r.state = .failed ∨
        r.state = .failedHeld →
      ∃ t, exec (.lost l) s = .next t ∧ t.station.core = s.station.core)

/-- FAULT in any state that takes it powers the module down and enters FAILED with a wait of 60 s, the failure total one
higher up to 255; after three power cycles FAILED_HELD is entered instead, raising BEARER_FAILED unless the other bearer
is there already (R45, R46). -/
def Obligations.FaultFailsBearer : Prop :=
  ∀ (l : Letter) (s : State), s.station.Awake → s.station.fitted l = true →
    let r := s.station.bearer l
    let failed : Bearer :=
      { r with
        powered := false, inFlight := none, camped := none, recheck := none, owed := 0, alloc := none
        dialLimit := none, rescan := none, settle := none, failures := min 255 (r.failures + 1) }
    r.state ≠ .off → r.state ≠ .failed → r.state ≠ .failedHeld →
    (r.powerCycles ≠ 3 →
      ∃ t, exec (.fault l) s = .next t ∧
        t.station.kept = s.station.kept.withBearer l
          { failed with state := .failed, failureWait := some (s.station.within 60000) }) ∧
    (r.powerCycles = 3 →
      ∃ t, exec (.fault l) s = .next t ∧
        t.station.kept =
          (let k := s.station.kept.withBearer l { failed with state := .failedHeld, failureWait := none }
          if (s.station.bearer (otherBearer l)).state = .failedHeld then k else k.raised .bearerFailed))

/-- The expiry of a command's timeout raises BEARER_TIMEOUT. A first one sends POWER_UP or SCAN again, or SCAN in place
of CAMP; after STATUS the bearer is AVAILABLE again; a HANGUP counts as answered, and a bearer preempted by a voice claim
is then RESERVED, or dials where the order is kept; SEND_REPORT gives REPORT_FAILED and hangs up; a re-camp has failed,
and the bearer settles without a camped network. A second consecutive one enters FAILED with the count at 0, and after
three power cycles FAILED_HELD, raising BEARER_FAILED unless the other bearer is there already (R44-R46, R52, R57, R60).
`u` is the station before the other blocks take their notices. The moment of an expiry is the model's choice (log entry
2). -/
def Obligations.CommandTimeoutRetriesThenFails : Prop :=
  ∀ (l : Letter) (s : State) (d now : Stamp) (c : Command), s.station.Awake → now = Stamp.moment s.station.now d →
    let r := s.station.bearer l
    let k : Kept := { s.station.kept.raised .bearerTimeout with clock := now }
    let once : Bearer := { r with timeouts := 1 }
    let off : Bearer := { once with camped := none, recheck := none, owed := 0, alloc := none }
    let settling (q : Bearer) : Bearer :=
      { q with
        state := .settling, inFlight := none, alloc := none, dialLimit := none
        settle := some (Stamp.later now 3000) }
    let becomes (q : Bearer) : Prop :=
      ∃ t, exec (.commandTimeout l) s = .next t ∧ t.station.kept = k.withBearer l q
    let writes (q : Bearer) (posts : List Task) : Prop :=
      ∃ u, exec (.commandTimeout l) s = .next { s with station := finish u } ∧ u.bearer l = q ∧
        (finish u).kept = k.withBearer l q ∧ ∀ x ∈ posts, x ∈ u.work
    r.inFlight = some ⟨c, some d⟩ →
    (r.timeouts = 0 →
      (c = .powerUp → becomes { once with inFlight := some ⟨.powerUp, some (Stamp.later now 20000)⟩ }) ∧
      (c = .scan → becomes { once with inFlight := some ⟨.scan, some (Stamp.later now 45000)⟩ }) ∧
      (r.state = .camping → (∃ n, c = .camp n) →
        becomes
          { off with
            state := .searching, rescan := none, inFlight := some ⟨.scan, some (Stamp.later now 45000)⟩ }) ∧
      (r.state = .dialing → (∃ n, c = .camp n) → becomes (settling off)) ∧
      (r.state = .checking → c = .status →
        writes { once with state := .available, inFlight := none, alloc := none } [.bearerAvailable l]) ∧
      (c = .hangup → (∀ a, r.alloc = some a → a.preempt = false) → becomes (settling once)) ∧
      (∀ a, c = .hangup → r.alloc = some a → a.preempt = true →
        let kept : Bearer := { once with alloc := some { a with preempt := false, keptDial := false } }
        (a.keptDial = false → writes { kept with state := .reserved, inFlight := none } []) ∧
        (a.keptDial = true →
          writes
            { kept with
              state := .dialing, inFlight := some ⟨.dial, none⟩, dialLimit := some (Stamp.later now 60000) }
            [])) ∧
      (∀ a, c = .sendReport → r.alloc = some a →
        writes
          { once with
            state := .ending, dialLimit := none, inFlight := some ⟨.hangup, some (Stamp.later now 5000)⟩ }
          [.notice a.who l .reportFailed])) ∧
    (1 ≤ r.timeouts →
      let failed : Bearer :=
        { off with
          timeouts := 0, powered := false, inFlight := none, dialLimit := none, rescan := none, settle := none
          failures := min 255 (r.failures + 1) }
      (r.powerCycles ≠ 3 → becomes { failed with state := .failed, failureWait := some (Stamp.later now 60000) }) ∧
      (r.powerCycles = 3 →
        ∃ t, exec (.commandTimeout l) s = .next t ∧
          t.station.kept =
            (let held := k.withBearer l { failed with state := .failedHeld, failureWait := none }
            if (s.station.bearer (otherBearer l)).state = .failedHeld then held else held.raised .bearerFailed)))

/-- The expiry of a rescan timer sends SCAN and enters SEARCHING; that of a failure wait powers the module up once
more, the power-cycle count one higher; that of a bar takes its network out of the barred list; each at its moment
(R36, R41, R42, R45). The moment of an expiry is the model's choice (log entry 2). -/
def Obligations.BearerWaitsExpire : Prop :=
  ∀ (l : Letter) (s : State) (d now : Stamp), s.station.Awake → now = Stamp.moment s.station.now d →
    let r := s.station.bearer l
    let k : Kept := { s.station.kept with clock := now }
    (r.rescan = some d →
      ∃ t, exec (.rescanTimerExpiry l) s = .next t ∧
        t.station.kept =
          k.withBearer l
            { r with
              state := .searching, camped := none, recheck := none, owed := 0, alloc := none, rescan := none
              inFlight := some ⟨.scan, some (Stamp.later now 45000)⟩ }) ∧
    (r.failureWait = some d →
      ∃ t, exec (.failureWaitExpiry l) s = .next t ∧
        t.station.kept =
          k.withBearer l
            { r with
              state := .starting, powered := true, failureWait := none, powerCycles := r.powerCycles + 1
              inFlight := some ⟨.powerUp, some (Stamp.later now 20000)⟩ }) ∧
    (∀ n, (r.barred.find? fun b => b.1 == n) = some (n, d) →
      ∃ t, exec (.barExpiry l n) s = .next t ∧
        t.station.kept = k.withBearer l { r with barred := r.barred.filter fun b => b.1 != n })

/-- CAMPED naming the network of the CAMP in flight takes CAMPING to AVAILABLE: the network and its level recorded, the
owed count 0, the re-check timer started for the grade of the level, and report claims that wait are to be decided (R41,
R43, R47, R53). During a re-camp it sends DIAL again with a fresh limit of 60 s (R57). LEVEL in CHECKING answers STATUS:
the level is replaced and AVAILABLE entered (R43, R48). `u` is the station before the other blocks take their notices;
`finish u` is the next station. -/
def Obligations.CampedAndLevelMakeAvailable : Prop :=
  ∀ (l : Letter) (level : Byte) (x : Timer) (s : State), s.station.Awake → s.station.fitted l = true →
    level.toNat ≤ 63 →
    let r := s.station.bearer l
    let interval := if level.toNat ≤ 9 then 30000 else if level.toNat ≤ 29 then 60000 else 120000
    (∀ n : BitVec 24, r.inFlight = some ⟨.camp n.toNat, x⟩ →
      (r.state = .camping →
        ∃ u, exec (.camped l n level) s = .next { s with station := finish u } ∧
          u.bearer l =
            { r with
              state := .available, timeouts := 0, inFlight := none, camped := some (n.toNat, level.toNat), owed := 0
              recheck := some (s.station.within interval), alloc := none } ∧
          (finish u).kept = s.station.kept.withBearer l (u.bearer l) ∧ .bearerAvailable l ∈ u.work) ∧
      (r.state = .dialing →
        ∃ u, exec (.camped l n level) s = .next { s with station := finish u } ∧
          u.bearer l =
            { r with
              state := .dialing, timeouts := 0, inFlight := some ⟨.dial, none⟩
              camped := some (n.toNat, level.toNat), dialLimit := some (s.station.within 60000) } ∧
          (finish u).kept = s.station.kept.withBearer l (u.bearer l))) ∧
    (r.state = .checking → r.inFlight = some ⟨.status, x⟩ →
      ∃ u, exec (.level l level) s = .next { s with station := finish u } ∧
        u.bearer l =
          { r with
            state := .available, timeouts := 0, inFlight := none, alloc := none
            camped := r.camped.map fun n => (n.1, level.toNat) } ∧
        (finish u).kept = s.station.kept.withBearer l (u.bearer l) ∧ .bearerAvailable l ∈ u.work)

/-- While DIAL is in flight, PROGRESS in DIALING enters RINGING and gives the claimant RINGING; ANSWERED in DIALING and
RINGING enters IN_CALL, ends the limit and the command in flight, and gives ANSWERED; the expiry of the dial-answer
limit gives NO_ANSWER and enters ENDING with HANGUP in flight. ANSWERED for a carrier context connects the lent call: the
bearer is joined to the far half of the circuit that the origin holds, the context is CONNECTED, CONNECTED is queued to the
origin, and *lent* is counted (R34, R37, R44, R50, R56, R85, R88, R119, R120). That a CAMP in flight during a re-camp is gone
after an ANSWERED, and the moment of an expiry, are the model's choices (log entries 18 and 2). -/
def Obligations.DialGoesThroughOrEnds : Prop :=
  ∀ (l : Letter) (a : Allocation) (s : State), s.station.Awake → (s.station.bearer l).alloc = some a →
    let r := s.station.bearer l
    (s.station.fitted l = true →
      (r.dialInFlight = true → r.state = .dialing →
        ∃ u, exec (.progress l) s = .next { s with station := finish u } ∧
          u.bearer l = { r with state := .ringing, timeouts := 0 } ∧
          (finish u).kept = s.station.kept.withBearer l (u.bearer l) ∧ .notice a.who l .ringing ∈ u.work) ∧
      (r.state = .dialing ∨ r.state = .ringing →
        ∃ u, exec (.answered l) s = .next { s with station := finish u } ∧
        u.bearer l = { r with state := .inCall, timeouts := 0, inFlight := none, dialLimit := none } ∧
        (finish u).kept = s.station.kept.withBearer l (u.bearer l) ∧ .notice a.who l .answered ∈ u.work) ∧
      (∀ k start refreshed, r.state = .dialing ∨ r.state = .ringing → a.who = .carrier k.tag →
        s.station.carrier? k.tag = some k → k.letter = l → k.phase = .dialing ∨ k.phase = .ringing →
        s.station.entry k.circuit = .heldByPeer k.tag.origin k.tag start refreshed →
        (∀ b ∈ s.station.audio, ∀ e ∈ [b.left, b.right], e ≠ .bearer l ∧ e ≠ .farSide k.circuit) →
        s.station.audio.length < 4 → s.station.keep.tally.frozen = false → s.station.keep.tally.lent ≠ 4294967295 →
        s.station.power.opState = .active → s.station.line.total < 7 →
        ∃ t, exec (.answered l) s = .next t ∧
          t.station.core =
            { s.station.core with
              bearers :=
                (setBearer l { r with state := .inCall, timeouts := 0, inFlight := none, dialLimit := none }
                  s.station).bearers
              tally := { s.station.keep.tally with lent := s.station.keep.tally.lent + 1 }
              call :=
                { s.station.call with
                  carriers :=
                    s.station.call.carriers.map fun q => if q.tag = k.tag then { q with phase := .connected } else q }
              audio := s.station.audio ++ [⟨.bearer l, .farSide k.circuit, .carrier k.tag⟩] } ∧
          t.station.holdsFrame (.connected k.tag) k.tag.origin = true)) ∧
    (∀ d now, r.dialLimit = some d → now = Stamp.moment s.station.now d →
      ∃ u, exec (.dialAnswerLimitExpiry l) s = .next { s with station := finish u } ∧
        u.bearer l =
          { r with state := .ending, dialLimit := none, inFlight := some ⟨.hangup, some (Stamp.later now 5000)⟩ } ∧
        (finish u).kept = ({ s.station.kept with clock := now } : Kept).withBearer l (u.bearer l) ∧
        .notice a.who l .noAnswer ∈ u.work)

/-- The re-check timer restarts at once with the interval of the present grade; an AVAILABLE bearer is checked with
STATUS (3 s), the owed count 0; a busy or settling one owes one more re-check, up to 4; in the other states the claim
is dropped (R36, R47, R49). The moment of an expiry is the model's choice (log entry 2). -/
def Obligations.RecheckChecksOrIsOwed : Prop :=
  ∀ (l : Letter) (d now : Stamp) (s : State), s.station.Awake → (s.station.bearer l).recheck = some d →
    now = Stamp.moment s.station.now d →
    let r := s.station.bearer l
    let interval := if r.grade = 3 then 120000 else if r.grade = 2 then 60000 else 30000
    let next : Bearer := { r with recheck := some (Stamp.later now interval) }
    ∃ u, exec (.recheckTimerExpiry l) s = .next { s with station := finish u } ∧
      (finish u).kept = ({ s.station.kept with clock := now } : Kept).withBearer l (u.bearer l) ∧
      u.bearer l =
        match r.state with
        | .available =>
          { next with
            state := .checking, alloc := none, owed := 0, inFlight := some ⟨.status, some (Stamp.later now 3000)⟩ }
        | .reserved | .dialing | .ringing | .inCall | .sending | .ending | .settling =>
          { next with owed := min 4 (r.owed + 1) }
        | _ => next

/-- At the end of the settling guard the bearer goes on by the first case that applies: no camped network, SCAN and
SEARCHING; a barred one, a new choice; an owed re-check, STATUS and CHECKING with the count 0; else AVAILABLE (R61).
The moment of an expiry is the model's choice (log entry 2). -/
def Obligations.SettlingGuardEnds : Prop :=
  ∀ (l : Letter) (d now : Stamp) (s : State), s.station.Awake → (s.station.bearer l).settle = some d →
    now = Stamp.moment s.station.now d →
    let r : Bearer := { s.station.bearer l with settle := none, alloc := none }
    let off : Bearer := { r with camped := none, recheck := none, owed := 0 }
    ∃ u, exec (.settlingGuardExpiry l) s = .next { s with station := finish u } ∧
      (finish u).kept = ({ s.station.kept with clock := now } : Kept).withBearer l (u.bearer l) ∧
      u.bearer l =
        match r.camped with
        | none =>
          { off with state := .searching, rescan := none, inFlight := some ⟨.scan, some (Stamp.later now 45000)⟩ }
        | some n =>
          if r.barred.any fun b => b.1 == n.1 then
            match r.networks.find? fun m => !r.barred.any fun b => b.1 == m.1 with
            | some m => { off with state := .camping, inFlight := some ⟨.camp m.1, some (Stamp.later now 15000)⟩ }
            | none => { off with state := .noService, inFlight := none, rescan := some (Stamp.later now 10000) }
          else if 0 < r.owed then
            { r with state := .checking, owed := 0, inFlight := some ⟨.status, some (Stamp.later now 3000)⟩ }
          else { r with state := .available, inFlight := none }

/-- ANSWERED connects a local call: while the origin context is in DIALING_LOCAL on this bearer, which is in DIALING or
RINGING, the bearer enters IN_CALL, the context enters CONNECTED with its timers stopped, the caller end is joined to
the bearer in place of the tone, the call is counted, and the panel shows it (R56, R69, R88, R90, R115, R119, R120).
Nothing else of the core changes. That a CAMP in flight during a re-camp is then gone is the model's choice (log entry
18). -/
def Obligations.AnsweredConnectsLocalCall : Prop :=
  ∀ (l : Letter) (a : Allocation) (o : Origin) (s : State), s.station.Awake → s.station.fitted l = true →
    (s.station.bearer l).state = .dialing ∨ (s.station.bearer l).state = .ringing →
    (s.station.bearer l).alloc = some a → a.who = .origin o.tag →
    s.station.call.origin = some o → o.phase = .dialingLocal → o.carrier = .own l → o.connected = false →
    s.station.keep.tally.frozen = false →
    s.station.audio = [⟨.tone, o.mode.callerEnd, .origin o.tag⟩] →
    ∃ t, exec (.answered l) s = .next t ∧
      t.station.core =
        { s.station.core with
          bearers :=
            (setBearer l
              { s.station.bearer l with state := .inCall, timeouts := 0, inFlight := none, dialLimit := none }
              s.station).bearers
          tally := { s.station.keep.tally with connected := s.station.keep.tally.connected + 1 }
          call :=
            { s.station.call with
              origin :=
                some
                  { o with
                    phase := .connected, phaseDeadline := none, step := .none, stepDeadline := none
                    setupDeadline := none, connected := true } }
          audio := [⟨o.mode.callerEnd, .bearer l, .origin o.tag⟩]
          panel := { s.station.panel with failed := none, tone := .none, lamp := .steady } }

/-! ### The caller panel (R110-R116) -/

/-- A call request makes the origin context: off-hook in HANDSET mode, the end of the button window without a second
press in HANDS_FREE mode. The call number is one higher, modulo 4096, placed is counted unless the tally is frozen, the
setup deadline runs, the panel shows CONNECTING, and the context is to select its route (R64, R88, R111, R112, R115,
R122). It selects by the first test that holds: the own grade at the local preference or above, the local route with that
minimum; a lender's grade above the own, the borrowed route; the own grade 1 or more or a bearer in SENDING that may be
preempted, the local route with minimum 1; else the borrowed route, or in ISOLATED the end of the round (R67). The local
route dials on the best bearer, preempts a report for it, or turns to borrowing (R51, R52, R55, R68). The borrowed route
asks the first lender of the ranking, wakes the first station of the wake list where the ranking is empty, and asks for a
circuit before either where none is held; with no one to ask, or four asked, it falls back to the own bearer, the circuit
released with CLEAR(NO_ANSWER), or the round ends in PAUSED (R26, R30, R70-R73, R75, R77). `u` is the station before the
other blocks take their notices. The moment of an expiry is the model's choice (log entry 2), and so are a single press that
acts while the hook has no settled level yet, that a bearer in CHECKING counts as AVAILABLE for the fallback, and that the
lender asked stands in the carrier field (log entries 28, 33 and 34). -/
def Obligations.CallRequestMakesContext : Prop :=
  (∀ s : State, s.station.Awake → s.station.inService = true → s.station.call.origin = none →
      let tag : Tag := ⟨s.station.tagOrigin, (s.station.keep.lastCall + 1) % 4096⟩
      let context (mode : Mode) (now : Stamp) : Origin :=
        { tag := tag, mode := mode, phase := .selecting, carrier := .absent, tried := [], localTried := false
          recoveries := 0, step := .none, stepDeadline := none, releasing := none
          setupDeadline := some (Stamp.later now (s.station.config.setupLimit * 1000)), phaseDeadline := none
          lastPartner := none, connected := false, woken := 0, schedule := none }
      let made (mode : Mode) (now : Stamp) (u : Station) : Prop :=
        u.call = { s.station.call with origin := some (context mode now) } ∧ .select tag ∈ u.work ∧
          u.keep.lastCall = tag.number ∧
          u.keep.tally =
            (if s.station.keep.tally.frozen then s.station.keep.tally
            else { s.station.keep.tally with placed := s.station.keep.tally.placed + 1 }) ∧
          u.panel.tone = .connecting ∧ u.panel.lamp = .slowFlash ∧ u.panel.failed = none ∧
          u.bearers = s.station.bearers
      (s.station.panel.hook = .onHook →
        ∃ u, exec .offHook s = .next { s with station := finish u } ∧ made .handset s.station.now u ∧
          (finish u).kept = { s.station.kept with hook := .offHook }) ∧
      (∀ close now, s.station.panel.classifier = .window close false none → s.station.panel.hook ≠ .offHook →
        now = Stamp.moment s.station.now close →
        ∃ u, exec .buttonWindowExpiry s = .next { s with station := finish u } ∧ made .handsFree now u ∧
          (finish u).kept = { s.station.kept with clock := now, classifier := .idle })) ∧
  ∀ (o : Origin) (s : Station), s.call.origin = some o →
    let active : Prop := s.power.opState = .active
    let fits (minimum : Nat) (state : BearerState) (l : Letter) : Prop :=
      s.fitted l = true ∧ (s.bearer l).state = state ∧ minimum ≤ (s.bearer l).grade
    let ready (minimum : Nat) (l : Letter) : Prop := fits minimum .available l ∨ fits minimum .checking l
    let best (p : Letter → Prop) (l : Letter) : Prop :=
      p l ∧ ∀ m, p m →
        (s.bearer m).grade < (s.bearer l).grade ∨ ((s.bearer m).grade = (s.bearer l).grade ∧ (l = .a ∨ m = .b))
    let grade (l : Letter) : Nat :=
      if s.fitted l = true ∧ (s.bearer l).cls = .available then (s.bearer l).grade else 0
    let own : Nat := max (grade .a) (grade .b)
    let lender : Nat :=
      match s.rankedEntries o.tried with
      | e :: _ => offeredGrade s.config.lendMinimum e
      | [] => 0
    let paused (o : Origin) (u : Station) : Prop :=
      o.phase ≠ .recovering →
        u.call.origin =
          some
            { o with
              phase := .paused, phaseDeadline := some (s.within 5000), carrier := .absent, schedule := none }
    let dials (minimum : Nat) (o : Origin) (u : Station) : Prop :=
      let on (l : Letter) (preempts : Bool) : Prop :=
        u.call.origin = some (Origin.enter .dialingLocal none { o with localTried := true, carrier := .own l }) ∧
          (u.bearer l).alloc =
            some { who := .origin o.tag, redialUsed := false, preempt := preempts, keptDial := preempts }
      (∀ l, best (ready minimum) l →
        on l false ∧ (u.bearer l).state = .dialing ∧ (u.bearer l).inFlight = some ⟨.dial, none⟩ ∧
          (u.bearer l).dialLimit = some (s.within 60000)) ∧
      ((∀ l, ¬ ready minimum l) →
        (∀ l, best (fits minimum .sending) l →
          on l true ∧ (u.bearer l).state = .ending ∧
            (u.bearer l).inFlight = some ⟨.hangup, some (s.within 5000)⟩) ∧
        ((∀ l, ¬ fits minimum .sending l) →
          (active → u.call.origin = some { o with localTried := true } ∧ .borrow o.tag ∈ u.work) ∧
          (¬ active → paused { o with localTried := true } u)))
    let ended (o : Origin) (u : Station) : Prop :=
      let fallback : Prop := o.localTried = false ∧ ∃ l, ready 1 l ∨ fits 1 .sending l
      let releases : Prop := o.phase ≠ .recovering ∧ s.ownCircuit.isSome = true
      (fallback → releases → dials 1 { o with schedule := none } u) ∧
      (fallback → ¬ releases → dials 1 o u) ∧ (¬ fallback → paused o u) ∧
      ∀ c h start, s.ownCircuit = some c → s.entry c = .heldOwn h o.tag start → s.line.total < 8 →
        o.phase ≠ .recovering → u.entry c = .free ∧ u.holdsFrame (.clear o.tag (some c) .noAnswer) 63 = true
    let chooses (c : Circuit) (o : Origin) (u : Station) : Prop :=
      (4 ≤ o.tried.length → ended o u) ∧
      (o.tried.length < 4 →
        (∀ l rest, s.ranking o.tried = l :: rest →
          u.call.origin = some (Origin.enter .asking (some (s.within s.answerMs)) { o with carrier := .asked l }) ∧
            (s.line.total < 8 → u.holdsFrame (.borrowVoice o.tag c) l = true)) ∧
        (s.ranking o.tried = [] →
          (∀ w rest, s.wakeList o.tried = w :: rest →
            u.call.origin =
                some
                  (Origin.enter .waking (some (s.within (s.config.wakeAllowance * 1000)))
                    { o with carrier := .absent, woken := w }) ∧
              (s.line.total < 8 → u.holdsFrame .wake w = true)) ∧
          (s.wakeList o.tried = [] → ended o u)))
    let borrows (u : Station) : Prop :=
      let noOne : Prop := 4 ≤ o.tried.length ∨ (s.ranking o.tried = [] ∧ s.wakeList o.tried = [])
      let free (c : Circuit) : Prop := circuitNumber c ≤ s.directory.effective ∧ s.entry c = .free
      (noOne → ended o u) ∧ (∀ c, ¬ noOne → s.ownCircuit = some c → chooses c o u) ∧
      (¬ noOne → s.ownCircuit = none →
        u.call.origin = some (Origin.enter .claiming none o) ∧
          (s.circuits.round.isSome = true → u.circuits.request = some o.tag) ∧
          (s.circuits.round = none →
            (∀ c, free c → (∀ d, d < c → ¬ free d) →
              ∃ r, u.circuits.round = some r ∧ r.tag = o.tag ∧ r.circuit = c ∧ r.attempted = [c] ∧
                r.attempts = 0 ∧ r.abandoned = none) ∧
            ((∀ c, ¬ free c) → .roundFailed o.tag .noFreeCircuit ∈ u.work)))
    (o.activity = .selecting → s.inService = true →
      let u := takeTask (.select o.tag) s
      let preferred : Prop := o.localTried = false ∧ s.config.localPreference ≤ own
      let lent : Prop := o.localTried = false ∧ active ∧ 0 < lender ∧ own < lender
      let any : Prop := o.localTried = false ∧ (1 ≤ own ∨ ∃ l, fits 1 .sending l)
      (preferred → dials s.config.localPreference o u) ∧ (¬ preferred → lent → borrows u) ∧
      (¬ preferred → ¬ lent → any → dials 1 o u) ∧ (¬ preferred → ¬ lent → ¬ any → active → borrows u) ∧
      (¬ preferred → ¬ lent → ¬ any → ¬ active → paused o u)) ∧
    (o.activity ≠ .ending → active → borrows (takeTask (.borrow o.tag) s)) ∧
    (o.activity = .claiming →
      (∀ c, s.ownCircuit = some c → active →
        chooses c { o with schedule := some (s.within 5000) } (takeTask (.roundWon o.tag) s)) ∧
      ∀ reason, s.ownCircuit = none → paused o (takeTask (.roundFailed o.tag reason) s))

/-- The button classifier: a press counts in IDLE, its release opens the window of 600 ms, a press that appears in the
window is noted with its begin time, one that fails to count is dropped, a second press that began in the window counts
as the second, and its release ends the series; a press disregarded since a wake ends with its release (R111). That a
press that began at the very end of the window began within it, and that a press in the window whose begin was not noted
began 50 ms before, are the model's choices (log entry 24). -/
def Obligations.ButtonClassifierMoves : Prop :=
  ∀ s : State, s.station.Awake →
    (s.station.panel.disregard = false → s.station.panel.classifier = .idle →
      ∃ t, exec .buttonPressCounts s = .next t ∧
        t.station.kept = { s.station.kept with classifier := .firstHeld }) ∧
    (s.station.panel.disregard = false → s.station.panel.classifier = .firstHeld →
      ∃ t, exec .buttonReleaseCounts s = .next t ∧
        t.station.kept = { s.station.kept with classifier := .window (s.station.within 600) false none }) ∧
    (s.station.panel.disregard = false → s.station.panel.classifier = .secondHeld →
      ∃ t, exec .buttonReleaseCounts s = .next t ∧
        t.station.kept = { s.station.kept with classifier := .idle }) ∧
    (s.station.panel.disregard = true →
      ∃ t, exec .buttonReleaseCounts s = .next t ∧
        t.station.kept = { s.station.kept with disregard := false }) ∧
    (∀ close expired, s.station.panel.classifier = .window close expired none →
      ∃ t, exec .buttonInputPressed s = .next t ∧
        t.station.kept = { s.station.kept with classifier := .window close expired (some s.station.now) }) ∧
    (∀ close begun, s.station.panel.classifier = .window close false (some begun) →
      ∃ t, exec .candidateFails s = .next t ∧
        t.station.kept = { s.station.kept with classifier := .window close false none }) ∧
    (∀ close expired noted, s.station.panel.disregard = false → s.station.power.opState ≠ .start →
      s.station.panel.classifier = .window close expired noted →
      Stamp.before close (noted.getD (Stamp.earlier s.station.now 50)) = false → s.station.call.origin = none →
      ∃ t, exec .buttonPressCounts s = .next t ∧
        t.station.kept = { s.station.kept with classifier := .secondHeld })

/-- On-hook ends a handset call, a double press a hands-free one: before connect it counts as withdrawn unless the
tally is frozen, the context is in ENDING or gone, and the panel shows neither tone nor lamp (R80, R88, R105, R111,
R112). `u` is the station before the other blocks take their notices. That a press that began at the very end of the
window began within it, and that a double press acts while the hook has no settled level yet, are the model's choices
(log entries 24 and 28). -/
def Obligations.CallerEndsCall : Prop :=
  ∀ (o : Origin) (s : State), s.station.Awake → s.station.power.opState ≠ .start → s.station.call.origin = some o →
    o.phase ≠ .ending →
    let counted (k : Kept) : Kept :=
      if o.connected || s.station.keep.tally.frozen then k else { k with withdrawn := k.withdrawn + 1 }
    let ended (u : Station) : Prop :=
      (u.call.origin = none ∨ ∃ p, u.call.origin = some p ∧ p.tag = o.tag ∧ p.phase = .ending) ∧
        u.panel.tone = .none ∧ u.panel.lamp = .off
    (s.station.panel.hook = .offHook → o.mode = .handset →
      ∃ u, exec .onHook s = .next { s with station := finish u } ∧ ended u ∧
        (finish u).kept = { counted s.station.kept with hook := .onHook }) ∧
    (∀ close expired begun, s.station.panel.disregard = false → o.mode = .handsFree →
      s.station.panel.classifier = .window close expired (some begun) → Stamp.before close begun = false →
      ∃ u, exec .buttonPressCounts s = .next { s with station := finish u } ∧ ended u ∧
        (finish u).kept = { counted s.station.kept with classifier := .secondHeld })

/-- Off-hook during a hands-free call moves it to the handset: the mode becomes HANDSET, every SPEAKER end of a bridge
becomes HANDSET, and nothing else changes: no bridge comes or goes, tone and lamp stay. (R114). -/
def Obligations.OffHookMovesCallToHandset : Prop :=
  ∀ (o : Origin) (s : State), s.station.Awake → s.station.power.opState ≠ .start → s.station.panel.hook = .onHook →
    s.station.call.origin = some o → o.mode = .handsFree →
    let moved (e : End) : End := if e = .speaker then .handset else e
    ∃ t, exec .offHook s = .next t ∧
      t.station.core =
        { s.station.core with
          panel := { s.station.panel with hook := .offHook }
          call := { s.station.call with origin := some { o with mode := .handset } }
          audio := s.station.audio.map fun b => { b with left := moved b.left, right := moved b.right } }

/-- The FAILED period ends with its timer, and with an on-hook whatever context there is: the PANEL bridges are removed, the
tone and the call lamp go off; the on-hook does no more while there is no context in HANDSET mode (R112, R116). The moment of
an expiry, and that an on-hook does no more with a context in HANDS_FREE mode, are the model's choices (log entries 2 and
47). -/
def Obligations.FailedPeriodEnds : Prop :=
  ∀ (d now : Stamp) (s : State), s.station.Awake → s.station.panel.failed = some d →
    now = Stamp.moment s.station.now d →
    let ended (i : Instr) (clock : Stamp) (hook : Hook) : Prop :=
      ∃ t, exec i s = .next t ∧
        t.station.core =
          { s.station.core with
            clock := clock
            audio := s.station.audio.filter fun b => b.owner != .panel
            panel := { s.station.panel with hook := hook, failed := none, tone := .none, lamp := .off } }
    ended .failedPeriodExpiry now s.station.panel.hook ∧
      (s.station.power.opState ≠ .start → s.station.panel.hook = .offHook →
        (∀ o, s.station.call.origin = some o → o.mode = .handsFree) → ended .onHook s.station.now .onHook)

/-- The first settled hook level after a reset is adopted and nothing else follows from it (R110). In START the panel
only holds a call request: off-hook holds one in HANDSET mode, on-hook drops it, and the end of the button window holds
one in HANDS_FREE mode where none is held (R113). That the hook is neither on nor off until then, and the moment of an
expiry, are the model's choices (log entries 28 and 2). -/
def Obligations.HookIsAdoptedAndStartHolds : Prop :=
  ∀ s : State, s.station.Awake →
    let shows (c : Instr) (p : Panel) : Prop :=
      ∃ t, exec c s = .next t ∧ t.station.core = { s.station.core with panel := p }
    let p := s.station.panel
    (p.hook = .unadopted →
      shows .offHook { p with hook := .offHook } ∧ shows .onHook { p with hook := .onHook }) ∧
    (s.station.power.opState = .start →
      (p.hook = .onHook → shows .offHook { p with hook := .offHook, request := some .handset }) ∧
      (p.hook = .offHook → p.request = some .handset → shows .onHook { p with hook := .onHook, request := none }) ∧
      (∀ close now, p.classifier = .window close false none → p.hook ≠ .offHook →
        now = Stamp.moment s.station.now close → p.request = none →
        ∃ t, exec .buttonWindowExpiry s = .next t ∧
          t.station.core =
            { s.station.core with
              clock := now, panel := { p with classifier := .idle, request := some .handsFree } }))

/-! ### The call engine (R64-R109) -/

/-- A lender that declines, does not answer in time, does not connect in time (after CLEAR(NO_ANSWER) to it), or did
not come up in its wake allowance joins the tried list, and the first of the ranking is asked: BORROW is queued, and
ASKING is entered with the answer timeout; the panel shows CONNECTING, but within a recovery, where panel and bridges
stay (R9, R66, R72, R73, R75, R76, R100). `l` is the lender passed over, `m` the next one. That the lender asked stands
in the carrier field, and the moment of an expiry, are the model's choices (log entries 34 and 2). -/
def Obligations.NextLenderIsAsked : Prop :=
  ∀ (o : Origin) (l m : Nat) (rest : List Nat) (c : Circuit) (s : State), s.station.Awake →
    s.station.power.opState = .active → s.station.call.origin = some o → s.station.ownCircuit = some c →
    s.station.line.total < 7 →
    let tried := if o.tried.contains l then o.tried else o.tried ++ [l]
    tried.length < 4 → s.station.ranking tried = m :: rest →
    let shown := o.phase ≠ .recovering
    let asks (now : Stamp) (directory : Directory) (t : State) : Prop :=
      t.station.core =
        { s.station.core with
          clock := now, directory := directory
          panel :=
            if shown then { s.station.panel with failed := none, tone := .connecting, lamp := .slowFlash }
            else s.station.panel
          audio :=
            if shown ∧ s.station.panel.failed.isSome = true then s.station.audio.filter fun b => b.owner != .panel
            else s.station.audio
          call :=
            { s.station.call with
              origin :=
                some
                  (Origin.enter .asking (some (Stamp.later now s.station.answerMs))
                    { o with tried := tried, carrier := .asked m }) } } ∧
        t.station.holdsFrame (.borrowVoice o.tag c) m = true
    (∀ f, s.station.Hears 7 f → s.station.isOwn f.dest.toNat = true → s.station.isOwn o.tag.origin = true →
      readDecline 1 f.body = some o.tag → f.source.toNat = l → o.activity = .asking → o.carrier = .asked l →
      ∃ t, exec (.declineCall f) s = .next t ∧ asks s.station.now (refreshPeer l s.station).directory t) ∧
    (∀ d now, o.activity = .asking → o.carrier.lender = some l → o.activityDeadline = some d →
      now = Stamp.moment s.station.now d →
      ∃ t, exec .answerTimeoutExpiry s = .next t ∧ asks now s.station.directory t) ∧
    (∀ d now, o.activity = .awaitingConnect → o.carrier.lender = some l → o.activityDeadline = some d →
      now = Stamp.moment s.station.now d →
      ∃ t, exec .awaitingConnectExpiry s = .next t ∧ asks now s.station.directory t ∧
        t.station.holdsFrame (.clear o.tag none .noAnswer) l = true) ∧
    (∀ d now, o.activity = .waking → o.woken = l → o.activityDeadline = some d →
      now = Stamp.moment s.station.now d →
      ∃ t, exec .wakeAllowanceExpiry s = .next t ∧ asks now s.station.directory t)

/-- A LEND from the lender asked, with the call tag of the context, starts AWAITING_CONNECT with its 65 s, and the
carrier is that lender with the letter it named (R4, R66, R73, R94, R115, R116). Besides the context, the sender's
last-heard stamp changes in the core, and the panel shows CONNECTING, a FAILED period's tone and bridge gone; within a
recovery panel and bridges stay. That the lender asked stands in the carrier field is the model's choice (log entry
34). -/
def Obligations.LendStartsAwaitingConnect : Prop :=
  ∀ (f : RxFrame) (b : LendBody) (o : Origin) (s : State), s.station.Hears 6 f →
    s.station.isOwn f.dest.toNat = true → s.station.isOwn o.tag.origin = true → readLendCall f.body = some b →
    s.station.call.origin = some o → b.tag = o.tag → o.activity = .asking → o.carrier = .asked f.source.toNat →
    ∃ t, exec (.lendCall f) s = .next t ∧
      t.station.core =
        { s.station.core with
          directory := (refreshPeer f.source.toNat s.station).directory
          panel :=
            if o.phase = .recovering then s.station.panel
            else { s.station.panel with failed := none, tone := .connecting, lamp := .slowFlash }
          audio :=
            if o.phase ≠ .recovering ∧ s.station.panel.failed.isSome = true then
              s.station.audio.filter fun b => b.owner != .panel
            else s.station.audio
          call :=
            { s.station.call with
              origin :=
                some
                  (Origin.enter .awaitingConnect (some (s.station.within 65000))
                    { o with
                      carrier := .lent f.source.toNat b.letter, lastPartner := some s.station.now }) } }

/-- CONNECTED from the carrier connects a borrowed call: CONNECTED is entered with the timers stopped, the call counted,
the caller end joined to the caller side of the held circuit in place of the tone, and the panel shows it (R76, R88, R90,
R115, R119, R120). -/
def Obligations.ConnectedJoinsCircuit : Prop :=
  ∀ (f : RxFrame) (o : Origin) (c : Circuit) (h : Nat) (start : Stamp) (s : State), s.station.Hears 8 f →
    s.station.isOwn f.dest.toNat = true → s.station.isOwn o.tag.origin = true → readConnected f.body = some o.tag →
    s.station.call.origin = some o → o.phase = .awaitingConnect → o.carrier.lender = some f.source.toNat →
    o.connected = false → s.station.ownCircuit = some c → s.station.entry c = .heldOwn h o.tag start →
    s.station.keep.tally.frozen = false →
    s.station.audio = [⟨.tone, o.mode.callerEnd, .origin o.tag⟩] →
    ∃ t, exec (.connected f) s = .next t ∧
      t.station.core =
        { s.station.core with
          directory := (refreshPeer f.source.toNat s.station).directory
          tally := { s.station.keep.tally with connected := s.station.keep.tally.connected + 1 }
          call :=
            { s.station.call with
              origin :=
                some
                  { o with
                    phase := .connected, phaseDeadline := none, step := .none, stepDeadline := none
                    setupDeadline := none, connected := true, lastPartner := some s.station.now } }
          audio := [⟨o.mode.callerEnd, .callerSide c, .origin o.tag⟩]
          panel := { s.station.panel with failed := none, tone := .none, lamp := .steady } }

/-- A BORROW of kind VOICE addressed to this station, by its origin. With no carrier context of its tag the first test that
fails is answered DECLINE: BAD_CIRCUIT for a circuit above the effective count, CIRCUIT_CONFLICT for one held by another or
for another tag, BUSY with two carrier contexts, NO_BEARER with no bearer that can take the call. Else it is accepted: the
context starts in DIALING with its status schedule, the circuit is recorded as the origin's and refreshed, a holding that
stood already keeping its start, LEND with the bearer's letter and network is queued, and the bearer of the highest grade, A
between equal ones, is allocated to it: one in AVAILABLE or CHECKING, which then has DIAL in flight with its limit of 60 s,
or, where there is none, one in SENDING, whose report is given PREEMPTED and which has HANGUP in flight, the order to dial
kept. With a context of its tag, LEND is repeated for the same circuit, with the partner heard now; DECLINE(BUSY) answers
another circuit, which ends the context as its origin's CLEAR does, and a context in ENDING (R22, R33, R51, R52, R55,
R82-R84, R87, R91). `u` is the station before the other blocks take their notices. -/
def Obligations.BorrowIsAccepted : Prop :=
  ∀ (f : RxFrame) (tag : Tag) (n : Nat) (s : State), s.station.Hears 5 f →
    s.station.isOwn f.dest.toNat = true → readBorrowVoice f.body = some ⟨tag, n⟩ → tag.origin = f.source.toNat →
    s.station.line.total < 7 →
    let core : StationCore :=
      { s.station.core with directory := (refreshPeer f.source.toNat s.station).directory }
    let declines (reason : DeclineReason) : Prop :=
      ∃ t, exec (.borrowVoice f) s = .next t ∧ t.station.core = core ∧
        t.station.holdsFrame (.declineCall tag reason) tag.origin = true
    let fits (state : BearerState) (l : Letter) : Prop :=
      s.station.fitted l = true ∧ (s.station.bearer l).state = state ∧
        s.station.config.lendMinimum ≤ (s.station.bearer l).grade
    let ready (l : Letter) : Prop := fits .available l ∨ fits .checking l
    let best (p : Letter → Prop) (l : Letter) : Prop :=
      p l ∧ ∀ m, p m →
        (s.station.bearer m).grade < (s.station.bearer l).grade ∨
          ((s.station.bearer m).grade = (s.station.bearer l).grade ∧ (l = .a ∨ m = .b))
    let accepted (c : Circuit) (l : Letter) (preempts : Bool) (u : Station) : Prop :=
      exec (.borrowVoice f) s = .next { s with station := finish u } ∧
        u.call.carriers =
          s.station.call.carriers ++
            [{ tag := tag, circuit := c, letter := l, phase := .dialing, lastPartner := s.station.now
               schedule := some (s.station.within 5000) }] ∧
        u.entry c =
          .heldByPeer tag.origin tag
            (match s.station.entry c with
            | .heldByPeer _ _ start _ => start
            | _ => s.station.now)
            s.station.now ∧
        (u.bearer l).alloc =
          some { who := .carrier tag, redialUsed := false, preempt := preempts, keptDial := preempts } ∧
        u.holdsFrame (.lendCall tag l (s.station.bearer l).networkId) tag.origin = true ∧
        u.call.origin = s.station.call.origin
    (s.station.carrier? tag = none →
      ((∀ c, n = circuitNumber c → s.station.directory.effective < n) → declines .badCircuit) ∧
      (∀ c, n = circuitNumber c → n ≤ s.station.directory.effective →
        (∀ h, (s.station.entry c).holding = some h → h ≠ (tag.origin, tag) → declines .circuitConflict) ∧
        ((∀ h, (s.station.entry c).holding = some h → h = (tag.origin, tag)) →
          (2 ≤ s.station.call.carriers.length → declines .busy) ∧
          (s.station.call.carriers.length < 2 →
            ((∀ l, ¬ ready l ∧ ¬ fits .sending l) → declines .noBearer) ∧
            ((s.station.entry c).own = false → (s.station.contesting c = true → s.station.line.total < 6) →
              (∀ m, ready m →
                ∃ u l, best ready l ∧ accepted c l false u ∧ (u.bearer l).state = .dialing ∧
                  (u.bearer l).inFlight = some ⟨.dial, none⟩ ∧
                  (u.bearer l).dialLimit = some (s.station.within 60000)) ∧
              ((∀ l, ¬ ready l) → ∀ m, fits .sending m →
                ∃ u l, best (fits .sending) l ∧ accepted c l true u ∧ (u.bearer l).state = .ending ∧
                  (u.bearer l).inFlight = some ⟨.hangup, some (s.station.within 5000)⟩ ∧
                  ∀ a, (s.station.bearer l).alloc = some a → .notice a.who l .preempted ∈ u.work)))))) ∧
    (∀ k, s.station.carrier? tag = some k →
      (k.phase = .ending → declines .busy) ∧
      (k.phase ≠ .ending → n = circuitNumber k.circuit →
        ∃ t, exec (.borrowVoice f) s = .next t ∧
          t.station.core =
            { core with
              call :=
                { s.station.call with
                  carriers :=
                    s.station.call.carriers.map fun q =>
                      if q.tag = tag then { q with lastPartner := s.station.now } else q } } ∧
          t.station.holdsFrame (.lendCall tag k.letter (s.station.bearer k.letter).networkId) tag.origin = true) ∧
      (k.phase ≠ .ending → n ≠ circuitNumber k.circuit →
        ∃ u, exec (.borrowVoice f) s = .next { s with station := finish u } ∧
          (∀ q ∈ u.call.carriers, q.tag = tag → q.phase = .ending ∧ q.schedule = none) ∧
          (∀ b ∈ u.audio, b.owner ≠ .carrier tag) ∧
          u.holdsFrame (.declineCall tag .busy) tag.origin = true))

/-- The CALL_STATUS schedule of a context restarts with 5 s at each expiry, and a CALL_STATUS stands in the transmit
queue; where none that has not begun stood there, it is one of the origin to its partner, one of a carrier context to
its origin (R91). The moment of an expiry is the model's choice (log entry 2). -/
def Obligations.CallStatusIsSentOnSchedule : Prop :=
  ∀ (d now : Stamp) (s : State), s.station.Awake → s.station.power.opState = .active → s.station.line.total < 8 →
    now = Stamp.moment s.station.now d →
    (∀ o, s.station.call.origin = some o → o.schedule = some d →
      ∃ t, exec (.callStatusScheduleExpiry .origin) s = .next t ∧
        t.station.core =
          { s.station.core with
            clock := now
            call :=
              { s.station.call with origin := some { o with schedule := some (Stamp.later now 5000) } } } ∧
        t.station.queued (fun g => g.body == .callStatusOrigin o.tag) = true ∧
        ((s.station.queued fun g => g.body == .callStatusOrigin o.tag && !g.begun) = false →
          t.station.holdsFrame (.callStatusOrigin o.tag) o.partner = true)) ∧
    (∀ k, s.station.carrier? k.tag = some k → k.schedule = some d →
      ∃ t, exec (.callStatusScheduleExpiry (.carrier k.tag)) s = .next t ∧
        t.station.core =
          { s.station.core with
            clock := now
            call :=
              { s.station.call with
                carriers :=
                  s.station.call.carriers.map fun q =>
                    if q.tag = k.tag then { q with schedule := some (Stamp.later now 5000) } else q } } ∧
        t.station.queued (fun g => g.body == .callStatusCarrier k.tag k.circuit) = true ∧
        ((s.station.queued fun g => g.body == .callStatusCarrier k.tag k.circuit && !g.begun) = false →
          t.station.holdsFrame (.callStatusCarrier k.tag k.circuit) k.tag.origin = true))

/-- At its setup deadline a call is unplaced: counted unless the tally is frozen, CALL_UNPLACED raised, the context in
ENDING or gone, a report of kind CALL_UNPLACED in the report queue unless every place there is in flight, and the panel
shows FAILED for 60 s (R79, R88, R116, R130, R133). `u` is the station before the other blocks take their notices. The
moment of an expiry is the model's choice (log entry 2). -/
def Obligations.SetupDeadlineUnplacesCall : Prop :=
  ∀ (o : Origin) (d now : Stamp) (s : State), s.station.Awake → s.station.call.origin = some o →
    o.setupDeadline = some d → now = Stamp.moment s.station.now d →
    s.station.reports.queue.length < 8 ∨ (s.station.reports.queue.any fun e => e.waits) = true →
    ∃ u, exec .setupDeadlineExpiry s = .next { s with station := finish u } ∧
      (u.call.origin = none ∨ ∃ p, u.call.origin = some p ∧ p.tag = o.tag ∧ p.phase = .ending) ∧
      (u.reports.queue.any fun e => e.record.kind == .callUnplaced) = true ∧
      u.panel.tone = .failed ∧ u.panel.lamp = .fastFlash ∧ u.panel.failed = some (Stamp.later now 60000) ∧
      (finish u).kept =
        (let k : Kept := { s.station.kept.raised .callUnplaced with clock := now }
        if s.station.keep.tally.frozen then k else { k with unplaced := k.unplaced + 1 })

/-- Silence of the partner raises PARTNER_LOST. A connected borrowed call with a recovery left goes into RECOVERING
with its limit of 60 s, the silent lender alone in the tried list; with none left the call is dropped: ENDING or gone, a
CALL_DROPPED report in the queue, the panel showing FAILED. Before connect the silent lender joins the tried list, and
the first of the ranking is asked. Each time CLEAR(PARTNER_SILENT) goes to the silent lender. A carrier context goes into
ENDING and CLEAR(PARTNER_SILENT) with its circuit goes to its origin (R76, R94, R96, R99, R103). `u` is the station
before the other blocks take their notices. The moment of an expiry is the model's choice (log entry 2). -/
def Obligations.PartnerSilenceIsLoss : Prop :=
  ∀ (d now : Stamp) (s : State), s.station.Awake → now = Stamp.moment s.station.now d →
    (∀ o l x p, s.station.call.origin = some o → o.phase = .connected → o.carrier = .lent l x →
      o.lastPartner = some p → Stamp.later p 15000 = d →
      (o.recoveries < 2 →
        ∃ u q, exec .partnerSilence s = .next { s with station := finish u } ∧ u.call.origin = some q ∧
          q.tag = o.tag ∧ q.phase = .recovering ∧ q.recoveries = o.recoveries + 1 ∧ q.tried = [l] ∧
          q.phaseDeadline = some (Stamp.later now 60000) ∧ q.carrier = .absent ∧ .select o.tag ∈ u.work ∧
          (s.station.power.opState = .active → s.station.line.total < 7 →
            u.holdsFrame (.clear o.tag none .partnerSilent) l = true) ∧
          (finish u).kept = { s.station.kept.raised .partnerLost with clock := now }) ∧
      (2 ≤ o.recoveries →
        s.station.reports.queue.length < 8 ∨ (s.station.reports.queue.any fun e => e.waits) = true →
        ∃ u, exec .partnerSilence s = .next { s with station := finish u } ∧
          (u.call.origin = none ∨ ∃ q, u.call.origin = some q ∧ q.tag = o.tag ∧ q.phase = .ending) ∧
          (u.reports.queue.any fun e => e.record.kind == .callDropped) = true ∧
          u.panel.tone = .failed ∧ u.panel.lamp = .fastFlash ∧
          (s.station.power.opState = .active → s.station.line.total < 6 →
            (s.station.ownCircuit = none → u.holdsFrame (.clear o.tag none .partnerSilent) l = true) ∧
              ∀ c h start, s.station.ownCircuit = some c → s.station.entry c = .heldOwn h o.tag start →
                u.holdsFrame (.clear o.tag (some c) .partnerSilent) l = true) ∧
          (finish u).kept = { s.station.kept.raised .partnerLost with clock := now })) ∧
    (∀ o l x p m rest c, s.station.call.origin = some o → o.activity = .awaitingConnect → o.carrier = .lent l x →
      o.lastPartner = some p → Stamp.later p 15000 = d → s.station.power.opState = .active →
      s.station.ownCircuit = some c → s.station.line.total < 7 →
      let tried := if o.tried.contains l then o.tried else o.tried ++ [l]
      tried.length < 4 → s.station.ranking tried = m :: rest →
      ∃ t, exec .partnerSilence s = .next t ∧
        t.station.call =
          { s.station.call with
            origin :=
              some
                (Origin.enter .asking (some (Stamp.later now s.station.answerMs))
                  { o with tried := tried, carrier := .asked m }) } ∧
        t.station.holdsFrame (.clear o.tag none .partnerSilent) l = true ∧
        t.station.holdsFrame (.borrowVoice o.tag c) m = true ∧
        t.station.kept = { s.station.kept.raised .partnerLost with clock := now }) ∧
    (∀ k, s.station.carrier? k.tag = some k → k.phase ≠ .ending → Stamp.later k.lastPartner 15000 = d →
      s.station.power.opState = .active → s.station.line.total < 7 →
      ∃ u, exec (.carrierPartnerSilence k.tag) s = .next { s with station := finish u } ∧
        (∀ q ∈ u.call.carriers, q.tag = k.tag → q.phase = .ending ∧ q.schedule = none) ∧
        u.holdsFrame (.clear k.tag (some k.circuit) .partnerSilent) k.tag.origin = true ∧
        (finish u).kept = { s.station.kept.raised .partnerLost with clock := now })

/-- The end of a pause starts a new round: the tried list and the local-tried flag are cleared, SELECTING is entered,
and the route is to be selected (R77). At the recovery limit a recovery with another left starts again likewise, the
count one higher, with a new limit of 60 s; with none left the call is dropped: ENDING or gone, a CALL_DROPPED report
in the queue, the panel showing FAILED (R99, R102, R103). `u` is the station before the other blocks take their
notices. The moment of an expiry is the model's choice (log entry 2). -/
def Obligations.PausesAndRecoveriesStartAgain : Prop :=
  ∀ (o : Origin) (d now : Stamp) (s : State), s.station.Awake → s.station.call.origin = some o →
    o.phaseDeadline = some d → now = Stamp.moment s.station.now d →
    (o.phase = .paused →
      ∃ u, exec .pauseExpiry s = .next { s with station := finish u } ∧
        u.call =
          { s.station.call with
            origin := some { o with tried := [], localTried := false, phase := .selecting, phaseDeadline := none } } ∧
        .select o.tag ∈ u.work ∧ (finish u).kept = { s.station.kept with clock := now }) ∧
    (o.phase = .recovering → o.recoveries < 2 →
      ∃ u q, exec .recoveryLimitExpiry s = .next { s with station := finish u } ∧ u.call.origin = some q ∧
        q.tag = o.tag ∧ q.phase = .recovering ∧ q.recoveries = o.recoveries + 1 ∧ q.tried = [] ∧
        q.localTried = false ∧ q.phaseDeadline = some (Stamp.later now 60000) ∧
        (finish u).kept = { s.station.kept with clock := now }) ∧
    (o.phase = .recovering → 2 ≤ o.recoveries →
      s.station.reports.queue.length < 8 ∨ (s.station.reports.queue.any fun e => e.waits) = true →
      ∃ u, exec .recoveryLimitExpiry s = .next { s with station := finish u } ∧
        (u.call.origin = none ∨ ∃ p, u.call.origin = some p ∧ p.tag = o.tag ∧ p.phase = .ending) ∧
        (u.reports.queue.any fun e => e.record.kind == .callDropped) = true ∧
        u.panel.tone = .failed ∧ u.panel.lamp = .fastFlash ∧
        (finish u).kept = { s.station.kept with clock := now })

/-! ### Frames from the corridor line (R1-R34, R141-R145) -/

/-- A frame with a wrong check value raises FRAME_CHECK and reaches nobody; one of another segment, or taken in START,
is discarded silently; one that passes these checks in ACTIVE with the station's own address as source raises
ADDRESS_CLASH, and the station becomes ISOLATED with an empty directory. In STANDBY a frame with a wrong check value does
likewise, and any other frame than a WAKE is discarded silently (R6, R142-R145, R155, R170, R178, R179). Any frame row
is meant. That FRAME_CHECK is raised in START too, and that a frame is taken only where the assembly could
have gathered it, are the model's reading (log entries 23 and 10). -/
def Obligations.FrameChecksDecideFirst : Prop :=
  ∀ (f : RxFrame) (row : Nat × Instr) (s : State),
    row ∈
      [(1, Instr.announce f), (2, .wakeFrame f), (3, .claim f), (4, .callStatus f), (5, .borrowVoice f)
      , (5, .borrowReport f), (6, .lendCall f), (6, .lendReport f), (7, .declineCall f), (7, .declineReport f)
      , (8, .connected f), (9, .clear f), (10, .reportResult f), (11, .queryStation f), (11, .queryFaults f)
      , (11, .queryDirectory f), (11, .queryCircuits f), (11, .queryBearer f), (11, .queryQueues f)
      , (11, .unknownSelector f), (12, .status f), (13, .clearFaults f), (13, .restart f), (13, .reload f)
      , (13, .recapture f), (13, .unknownOrder f)] →
    s.station.transmitting = false → s.station.line.assembly ≠ .skipping →
    (s.station.Awake →
      (frameCheckOk row.1 f = false →
        ∃ t, exec row.2 s = .next t ∧ t.station.core = s.station.core ∧
          t.station.kept = { s.station.kept.raised .frameCheck with assembly := .skipping }) ∧
      (frameCheckOk row.1 f = true → s.station.power.opState = .start ∨ s.station.segmentOk row.1 f = false →
        ∃ t, exec row.2 s = .next t ∧ t.station.core = s.station.core ∧
          t.station.kept = { s.station.kept with assembly := .skipping }) ∧
      (frameCheckOk row.1 f = true → s.station.power.opState = .active → s.station.segmentOk row.1 f = true →
        s.station.isOwn f.source.toNat = true →
        ∃ t, exec row.2 s = .next t ∧
          t.station.kept =
            { s.station.kept.raised .addressClash with
              opState := .isolated, clash := true, assembly := .skipping
              directory := { entries := [], effective := s.station.config.circuits } })) ∧
    (s.station.running = true → s.station.power.opState = .standby → s.station.power.progress = .none →
      (frameCheckOk row.1 f = false ∨ row.1 ≠ 2 →
        ∃ t, exec row.2 s = .next t ∧ t.station.core = s.station.core ∧ t.station.line.assembly = .skipping ∧
          t.station.keep.faults.counter .frameCheck =
            (if frameCheckOk row.1 f then s.station.keep.faults.counter .frameCheck
            else min 255 (s.station.keep.faults.counter .frameCheck + 1))))

/-- A valid frame other than an ANNOUNCE from a peer sets the last-heard stamp of its entry to the present, where there is
one, and changes nothing else of the directory; a query, which comes from source 0, touches no entry (R4, R144, R181). -/
def Obligations.FrameRefreshesItsSender : Prop :=
  ∀ (f : RxFrame) (s : State),
    let refreshes (kind : Nat) (c : Instr) (readable : Bool) : Prop :=
      s.station.Hears kind f → readable = true →
        ∃ t, exec c s = .next t ∧
          t.station.directory =
            { s.station.directory with
              entries :=
                s.station.directory.entries.map fun e =>
                  if e.address = f.source.toNat then { e with lastHeard := s.station.now } else e }
    refreshes 2 (.wakeFrame f) (readWake f.body).isSome ∧ refreshes 3 (.claim f) (readClaim f.body).isSome ∧
      refreshes 4 (.callStatus f) (readCallStatus f.body).isSome ∧
      refreshes 5 (.borrowVoice f) (readBorrowVoice f.body).isSome ∧
      refreshes 5 (.borrowReport f) (readBorrowReport f.body).isSome ∧
      refreshes 6 (.lendCall f) (readLendCall f.body).isSome ∧
      refreshes 6 (.lendReport f) (readLendReport f.body).isSome ∧
      refreshes 7 (.declineCall f) (readDecline 1 f.body).isSome ∧
      refreshes 7 (.declineReport f) (readDecline 2 f.body).isSome ∧
      refreshes 8 (.connected f) (readConnected f.body).isSome ∧ refreshes 9 (.clear f) (readClear f.body).isSome ∧
      refreshes 10 (.reportResult f) (readResult f.body).isSome ∧ refreshes 12 (.status f) (readStatus f.body).isSome ∧
      ∀ c ∈
        [Instr.queryStation f, .queryFaults f, .queryDirectory f, .queryCircuits f, .queryBearer f, .queryQueues f],
        s.station.Serves 11 f → ∃ t, exec c s = .next t ∧ t.station.directory = s.station.directory

/-- STATUS from a peer refreshes its entry and does no more; a frame of an unknown kind, a malformed one and an undecodable
indication change nothing of the core; the receive assembly skips after a frame (R4, R36, R142-R144, R186, R188). -/
def Obligations.SilentlyDiscardedInputs : Prop :=
  (∀ f s, s.station.Hears 12 f → (readStatus f.body).isSome = true →
    ∃ t, exec (.status f) s = .next t ∧
      t.station.core = { s.station.core with directory := (refreshPeer f.source.toNat s.station).directory } ∧
      t.station.kept =
        { s.station.kept with
          assembly := .skipping, directory := (refreshPeer f.source.toNat s.station).directory }) ∧
  (∀ (kind : Byte) f s, s.station.Hears kind.toNat f →
    ∃ t, exec (.unknownFrameKind kind f) s = .next t ∧ t.station.core = s.station.core ∧
      t.station.kept = { s.station.kept with assembly := .skipping }) ∧
  (∀ count s, s.station.Awake → s.station.transmitting = false →
    ∃ t, exec (.malformedFrame count) s = .next t ∧ t.station.core = s.station.core ∧
      t.station.kept = { s.station.kept with assembly := .skipping }) ∧
  (∀ l kind params s, s.station.Awake →
    ∃ t, exec (.undecodableIndication l kind params) s = .next t ∧ t.station.core = s.station.core ∧
      t.station.kept = s.station.kept)

/-- An ANNOUNCE whose values an entry may hold is filed from its peer, in place of the peer's old entry, the others
staying while there is room; where 31 entries stand, a new peer displaces the one heard longest ago, of several the one
with the lowest address. Another ANNOUNCE only refreshes the entry. An entry is removed at its ageing limit. The
effective count is recomputed as the smallest of the counts, and CIRCUIT_MISMATCH is raised where a mismatch begins or
deepens (R1, R3, R5, R7). The moment of an expiry is the model's choice (log entry 2). -/
def Obligations.DirectoryFilesAndAges : Prop :=
  let counted (s : Station) (entries : List PeerEntry) (k : Kept) : Kept :=
    let n := entries.foldl (fun n e => min n e.circuits) s.config.circuits
    let k := { k with directory := { entries := entries, effective := n } }
    if n < s.config.circuits ∧ (s.config.circuits ≤ s.directory.effective ∨ n < s.directory.effective) then
      k.raised .circuitMismatch
    else k
  (∀ f b s, s.station.Hears 1 f → readAnnounce f.body = some b →
    let k : Kept := { s.station.kept with assembly := .skipping }
    let mine := b.entry f.source.toNat s.station.now
    (b.fileable = true →
      ∃ t, exec (.announce f) s = .next t ∧
        t.station.kept = counted s.station (fileEntry mine s.station.directory.entries) k ∧
        mine ∈ t.station.directory.entries ∧
        (s.station.directory.entries.length < 31 → ∀ e, e.address ≠ mine.address →
          (e ∈ t.station.directory.entries ↔ e ∈ s.station.directory.entries)) ∧
        (31 ≤ s.station.directory.entries.length →
          List.Pairwise (fun e f => e.address < f.address) s.station.directory.entries →
          (∀ e ∈ s.station.directory.entries, e.address ≠ mine.address) →
          ∃ old ∈ s.station.directory.entries,
            (∀ e ∈ s.station.directory.entries, Stamp.before e.lastHeard old.lastHeard = false ∧
              (e.lastHeard = old.lastHeard → old.address ≤ e.address)) ∧
            ∀ e, e.address ≠ mine.address →
              (e ∈ t.station.directory.entries ↔ e ∈ s.station.directory.entries ∧ e ≠ old))) ∧
    (b.fileable = false →
      ∃ t, exec (.announce f) s = .next t ∧
        t.station.kept = { k with directory := (refreshPeer f.source.toNat s.station).directory })) ∧
  (∀ a e d now s, s.station.Awake → (s.station.directory.entries.find? fun e => e.address == a) = some e →
    d = Stamp.later e.lastHeard (if e.power = .active then 3 * e.period * 1000 else 3600000) →
    now = Stamp.moment s.station.now d →
    ∃ t, exec (.peerAgeingExpiry a) s = .next t ∧
      t.station.kept =
        counted s.station (s.station.directory.entries.filter fun e => e.address != a)
          { s.station.kept with clock := now })

/-- The expiry of the announce period, and that of a solicit reply's delay, which ends the reply, leave an ANNOUNCE in
the transmit queue or in service. An ANNOUNCE with the solicit flag from a peer makes a reply pending where none is and no
standby decision has been taken: a draw is requested, and its delay of the draw modulo 500 ms begins when the draw is
delivered, at once from the pool or the fallback sequence, else by the source; a further solicit changes nothing of it
(R12-R14, R160-R162). `u` is the station before the other blocks take their notices. The moment of an expiry, and that
DRAW_CONDITIONED carries its noise bits and its draw, are the model's choices (log entries 2 and 11). -/
def Obligations.AnnounceTimersQueueAnnounce : Prop :=
  (∀ f b s, s.station.Hears 1 f → readAnnounce f.body = some b → b.solicit = true →
    s.station.circuits.round = none →
    let source := s.station.draw
    let leaves (reply : Reply) (pool : List Nat) (asked : List Consumer) : Prop :=
      ∃ u, exec (.announce f) s = .next { s with station := finish u } ∧ u.announcing.reply = reply ∧
        u.draw.pool = pool ∧ ∀ c ∈ asked, c ∈ u.draw.waiting
    let delay (x : Nat) : Reply := .delay (s.station.within (x % 500))
    (s.station.announcing.reply = .none → s.station.power.progress ≠ .announcing →
      (∀ x rest, source.mode = .healthy → source.pool = x :: rest → leaves (delay x) rest []) ∧
      (∀ g, source.mode = .latched → source.fallback = some g →
        leaves (delay ((g.state * 1597334677 + 2 * g.address + 1) % 4294967296 / 65536)) source.pool []) ∧
      (source.mode = .qualifying ∨ source.mode = .healthy ∧ source.pool = [] →
        leaves .waitingDraw source.pool [.reply])) ∧
    (s.station.announcing.reply ≠ .none ∨ s.station.power.progress = .announcing →
      leaves s.station.announcing.reply source.pool [])) ∧
  (∀ bits (x : BitVec 16) rest s, s.station.Awake → s.station.draw.mode = .healthy →
    s.station.draw.sound bits = true → (bits.foldl DrawSource.passBit s.station.draw).group.length = 64 →
    s.station.draw.waiting = .reply :: rest → s.station.announcing.reply = .waitingDraw →
    ∃ u, exec (.drawConditioned ⟨bits, x⟩) s = .next { s with station := finish u } ∧
      u.announcing.reply = .delay (s.station.within (x.toNat % 500)) ∧ u.draw.waiting = rest) ∧
  ∀ (d now : Stamp) (s : State), s.station.Awake → s.station.power.opState = .active →
    s.station.power.progress = .none ∨ s.station.power.progress = .waitingCommand → s.station.line.total < 8 →
    now = Stamp.moment s.station.now d →
    (s.station.announcing.period = some d →
      ∃ t, exec .announcePeriodExpiry s = .next t ∧ t.station.core = { s.station.core with clock := now } ∧
        t.station.announceQueued = true) ∧
    (s.station.announcing.reply = .delay d →
      ∃ t, exec .solicitReplyDelayExpiry s = .next t ∧ t.station.core = { s.station.core with clock := now } ∧
        t.station.announceQueued = true ∧ t.station.announcing.reply = .none)

/-- A CLAIM for a free circuit opens its contest; in an open contest the higher draw, then the higher address is the
best claim, and the start stays; a held circuit stays held, and its own holder states its holding at once. When the
contest closes after 250 ms the circuit is held by the best claimant, with the own flag where that is this station, and the
attempt whose claim is the best of its own contest wins its round, while one that stands in the contest and is not the best
is lost: at its third loss the round ends with ATTEMPTS_LOST. An abandoned round reports neither outcome: where its claim is
the best, the circuit is released at once and is free, with CLEAR of the reason and to the destination of the abandonment,
and where it is not, the round ends. A round that does not stand in the contest stays as it is. A circuit held by a peer
becomes free at its orphan limit, 20 s after its last refresh. `u` is the station before the other blocks take their notices
(R16-R20, R25, R27, R29, R30, R32). The moment of an expiry, and that the address at the close decides whose a claim is, are
the model's choices (log entries 2 and 49). -/
def Obligations.CircuitsAreContestedAndFreed : Prop :=
  (∀ f c tag draw s, s.station.Hears 3 f → readClaim f.body = some ⟨circuitNumber c, tag, draw⟩ →
    tag.origin = f.source.toNat →
    let core := { s.station.core with directory := (refreshPeer f.source.toNat s.station).directory }
    let mine : Claim := ⟨f.source.toNat, tag, draw⟩
    (s.station.entry c = .free →
      ∃ t, exec (.claim f) s = .next t ∧
        t.station.core =
          { core with circuits := (setView c (.contested mine s.station.now) s.station).circuits }) ∧
    (∀ best start, s.station.entry c = .contested best start →
      let wins : Bool := best.draw < draw || (draw == best.draw && best.claimant < f.source.toNat)
      ∃ t, exec (.claim f) s = .next t ∧
        t.station.core =
          if wins then { core with circuits := (setView c (.contested mine start) s.station).circuits } else core) ∧
    ((s.station.entry c).holding.isSome = true →
      ∃ t, exec (.claim f) s = .next t ∧ t.station.core = core ∧
        ∀ o, (s.station.entry c).own = true → s.station.call.origin = some o → s.station.line.total < 8 →
          t.station.queued (fun g => g.body == .callStatusOrigin o.tag) = true)) ∧
  (∀ c best start now s, s.station.Awake → s.station.entry c = .contested best start →
    now = Stamp.moment s.station.now (Stamp.later start 250) →
    let closes (u : Station) : Prop :=
      exec (.contestTimerExpiry c) s = .next { s with station := finish u } ∧
        u.entry c =
          (if s.station.isOwn best.claimant then .heldOwn best.claimant best.tag now
          else .heldByPeer best.claimant best.tag now now) ∧
        (∀ e, e ≠ c → u.entry e = s.station.entry e) ∧ (finish u).kept = { s.station.kept with clock := now }
    let stands (r : Round) (draw : Nat) : Prop :=
      s.station.circuits.round = some r ∧ r.circuit = c ∧ r.stage = .contesting draw
    let mine (r : Round) (draw : Nat) : Claim := ⟨s.station.tagOrigin, r.tag, draw⟩
    ((∀ r draw, stands r draw → best = mine r draw → r.abandoned = none) → ∃ u, closes u) ∧
    (∀ r draw, stands r draw → r.abandoned = none → s.station.circuits.request = none →
      (best = mine r draw → s.station.isOwn best.claimant = true →
        ∃ u, closes u ∧ u.circuits.round = none ∧ .roundWon r.tag ∈ u.work) ∧
      (best ≠ mine r draw → r.attempts = 2 →
        ∃ u, closes u ∧ u.circuits.round = none ∧ .roundFailed r.tag .attemptsLost ∈ u.work) ∧
      (best ≠ mine r draw → r.attempts < 2 →
        ∃ u, closes u ∧
          ((u.circuits.round = none ∧ .roundFailed r.tag .noFreeCircuit ∈ u.work) ∨
            ∃ q, u.circuits.round = some q ∧ q.tag = r.tag ∧ q.attempts = r.attempts + 1 ∧
              q.circuit ∉ r.attempted ∧ circuitNumber q.circuit ≤ s.station.directory.effective ∧
              u.entry q.circuit = .free))) ∧
    (∀ r draw a, stands r draw → r.abandoned = some a →
      (best = mine r draw → s.station.isOwn best.claimant = true →
        ∃ u, exec (.contestTimerExpiry c) s = .next { s with station := finish u } ∧ u.entry c = .free ∧
          (∀ e, e ≠ c → u.entry e = s.station.entry e) ∧ (finish u).kept = { s.station.kept with clock := now } ∧
          (∀ t, .roundWon t ∉ u.work) ∧
          (s.station.circuits.request = none →
            u.circuits.round = none ∧
              (s.station.power.opState = .active → s.station.line.total < 7 →
                u.holdsFrame (.clear r.tag (some c) a.reason) a.dest = true))) ∧
      (best ≠ mine r draw → s.station.circuits.request = none →
        ∃ u, closes u ∧ u.circuits.round = none ∧ ∀ t reason, .roundFailed t reason ∉ u.work)) ∧
    ((∀ r draw, ¬ stands r draw) → ∃ u, closes u ∧ u.circuits.round = s.station.circuits.round)) ∧
  (∀ c h tag start refreshed now s, s.station.Awake → s.station.entry c = .heldByPeer h tag start refreshed →
    now = Stamp.moment s.station.now (Stamp.later refreshed 20000) →
    ∃ u, exec (.orphanLimitExpiry c) s = .next { s with station := finish u } ∧ u.entry c = .free ∧
      (∀ e, e ≠ c → u.entry e = s.station.entry e) ∧ .circuitChanged c .free ∈ u.work ∧
      (finish u).kept = { s.station.kept with clock := now })

/-- A CALL_STATUS of an origin, and an ANNOUNCE that an entry may hold and that states a held circuit, are holding
statements: a circuit that is free or contested is held as stated, the hold start reckoned back by the stated age; its
holder's statement replaces the estimate; against another holding the greater age ranks higher, between equal ages the higher
address; an own holding that ranks lower is yielded. No other circuit changes (R3, R17, R21-R23). `u` is the station before
the other blocks take their notices. -/
def Obligations.HoldingStatementSetsView : Prop :=
  ∀ f c tag phase age s (i : Instr),
    let heldThere : HeldCircuit := { circuit := circuitNumber c, tag := tag, age := age }
    (i = .callStatus f ∧ s.station.Hears 4 f ∧
        readCallStatus f.body = some ⟨tag, circuitNumber c, .origin, phase, age⟩) ∨
      (i = .announce f ∧ s.station.Hears 1 f ∧
        ∃ b, readAnnounce f.body = some b ∧ b.fileable = true ∧ b.held = some heldThere) →
    tag.origin = f.source.toNat →
    let stated : CircuitEntry :=
      .heldByPeer f.source.toNat tag (Stamp.earlier s.station.now (age * 1000)) s.station.now
    let ranksAbove (start : Stamp) (holder : Nat) : Bool :=
      age < holdAge s.station.now start || (holdAge s.station.now start == age && f.source.toNat < holder)
    let sets (e : CircuitEntry) (yields : List Tag) : Prop :=
      ∃ u, exec i s = .next { s with station := finish u } ∧ u.entry c = e ∧
        (∀ d, d ≠ c → u.entry d = s.station.entry d) ∧ (∀ y ∈ yields, .yielded y ∈ u.work) ∧
        (finish u).kept =
          { s.station.kept with
            assembly := .skipping, directory := (finish u).directory, counters := (finish u).kept.counters } ∧
        (i = .callStatus f →
          (finish u).directory = (refreshPeer f.source.toNat s.station).directory ∧
            (finish u).kept.counters = s.station.kept.counters)
    (s.station.entry c = .free → sets stated []) ∧
    (∀ best start, s.station.entry c = .contested best start → sets stated []) ∧
    (∀ h t start refreshed, s.station.entry c = .heldByPeer h t start refreshed →
      (h = f.source.toNat ∨ ranksAbove start h = false → sets stated []) ∧
      (h ≠ f.source.toNat → ranksAbove start h = true → sets (s.station.entry c) [])) ∧
    (∀ h t start, s.station.entry c = .heldOwn h t start →
      (ranksAbove start h = false → sets stated [t]) ∧ (ranksAbove start h = true → sets (s.station.entry c) []))

/-- A CLEAR from the holder with its tag frees the circuit. Addressed to this station it ends the carrier context of
its sender's call without an answer, no CLEAR for its tag handed over, the schedule and the bridge going; and with
reason FAR_END from the carrier it ends the own connected call, the panel showing neither tone nor lamp (R24, R87, R92,
R95, R106, R121). `u` is the station before the other blocks take their notices. -/
def Obligations.ClearFreesAndEnds : Prop :=
  ∀ f tag n reason s, s.station.Hears 9 f → readClear f.body = some ⟨tag, n, reason⟩ →
    let kept : Kept :=
      { s.station.kept with
        assembly := .skipping, directory := (refreshPeer f.source.toNat s.station).directory }
    (∀ c, n = circuitNumber c → (s.station.entry c).holding = some (f.source.toNat, tag) →
      s.station.isOwn f.dest.toNat = false ∨ tag.origin = f.source.toNat →
      ∃ u, exec (.clear f) s = .next { s with station := finish u } ∧ u.entry c = .free ∧
        (∀ d, d ≠ c → u.entry d = s.station.entry d) ∧ (finish u).kept = kept) ∧
    (∀ k, s.station.isOwn f.dest.toNat = true → tag.origin = f.source.toNat → s.station.carrier? tag = some k →
      k.phase ≠ .ending →
      ∃ u, exec (.clear f) s = .next { s with station := finish u } ∧
        (∀ q ∈ u.call.carriers, q.tag = tag → q.phase = .ending ∧ q.schedule = none) ∧
        (∀ b ∈ u.audio, b.owner ≠ .carrier tag) ∧
        (∀ c why dest, u.holdsFrame (.clear tag c why) dest = true →
          s.station.holdsFrame (.clear tag c why) dest = true) ∧
        (finish u).kept = kept) ∧
    (∀ o, s.station.isOwn f.dest.toNat = true → s.station.isOwn tag.origin = true → s.station.call.origin = some o →
      o.tag = tag → o.phase = .connected → o.carrier.lender = some f.source.toNat → o.releasing = none →
      reason = .farEnd →
      ∃ u, exec (.clear f) s = .next { s with station := finish u } ∧ u.call.origin = none ∧
        .originEnded ∈ u.work ∧ u.panel.tone = .none ∧ u.panel.lamp = .off ∧ (finish u).kept = kept)

/-! ### Reports (R132-R139) -/

/-- A BORROW of kind REPORT is answered DECLINE(NO_BEARER) without a bearer of grade 1, DECLINE(QUEUE_FULL) with four
entries held, and else LEND, the record joining the relay queue with a lifetime of 110 s. A relay entry's rest ends
with the entry waiting again; its lifetime ends it with REPORT_RESULT(FAILED) to the origin, unless a bearer has been
granted it, whose outcome is then final (R138, R139). `u` is the station before the other blocks take their notices.
The moment of an expiry is the model's choice (log entry 2). -/
def Obligations.PeersReportsAreRelayed : Prop :=
  (∀ f r s, s.station.Hears 5 f → s.station.isOwn f.dest.toNat = true → readBorrowReport f.body = some r →
    r.tag.origin = f.source.toNat → s.station.relay? r.tag = none → s.station.line.total < 7 →
    let dir := (refreshPeer f.source.toNat s.station).directory
    let declines (reason : DeclineReason) : Prop :=
      ∃ t, exec (.borrowReport f) s = .next t ∧ t.station.core = { s.station.core with directory := dir } ∧
        t.station.holdsFrame (.declineReport r.tag reason) f.source.toNat = true
    (s.station.anyGrade = false → declines .noBearer) ∧
    (s.station.anyGrade = true → 4 ≤ s.station.reports.relay.length → declines .queueFull) ∧
    (s.station.anyGrade = true → s.station.reports.relay.length < 4 →
      ∃ u, exec (.borrowReport f) s = .next { s with station := finish u } ∧
        u.reports.relay =
          s.station.reports.relay ++
            [{ record := r, state := .waiting, attempts := 0, rest := none
               lifetime := some (s.station.within 110000), expired := false }] ∧
        u.holdsFrame (.lendReport r.tag) f.source.toNat = true ∧ .decideRelay ∈ u.work ∧
        (finish u).kept = { s.station.kept with assembly := .skipping, directory := dir })) ∧
  (∀ tag e d now s, s.station.Awake → s.station.relay? tag = some e → now = Stamp.moment s.station.now d →
    let changed (g : RelayEntry → RelayEntry) : StationCore :=
      { s.station.core with
        clock := now
        relay := s.station.reports.relay.map fun e => if e.record.tag = tag then g e else e }
    (e.rest = some d →
      (s.station.reports.relay.any fun g => g.state == .inFlight && g.record.tag != tag) = true →
      ∃ t, exec (.relayRestTimerExpiry tag) s = .next t ∧
        t.station.core = changed fun e => { e with state := .waiting, rest := none }) ∧
    (e.lifetime = some d → e.state = .inFlight → s.station.claimWaits (.relay tag) = false →
      ∃ t, exec (.relayLifetimeExpiry tag) s = .next t ∧
        t.station.core = changed fun e => { e with lifetime := none, expired := true }) ∧
    (e.lifetime = some d → e.state ≠ .inFlight ∨ s.station.claimWaits (.relay tag) = true →
      s.station.power.opState = .active → s.station.line.total < 7 →
      ∃ u, exec (.relayLifetimeExpiry tag) s = .next { s with station := finish u } ∧
        u.reports.relay = (s.station.reports.relay.filter fun e => e.record.tag != tag) ∧
        u.bearers.waiting = (s.station.bearers.waiting.filter fun w => w.who != .relay tag) ∧
        u.holdsFrame (.reportResult tag false) tag.origin = true ∧ .decideRelay ∈ u.work ∧
        (finish u).kept = { s.station.kept with clock := now }))

/-- Delivery as the stall check decides it. While an own bearer has a grade the first waiting entry goes in flight on the
LOCAL route: SEND_REPORT goes out at once on the AVAILABLE bearer of the highest grade, A between equal ones, or REPORT_FAILED
is given where no destination is configured; while none is AVAILABLE the claim waits. A report that no own bearer can send
goes to a lender, the first of the ranking; a lender that declines or does not answer in time joins the declined list, and
the next is asked, by BORROW with the record and the answer timeout; a LEND makes the entry relayed, with 120 s for its result
(R9, R53, R55, R134-R136). `u` is the station before the other blocks take their notices. The moment of an expiry is the
model's choice (log entry 2). -/
def Obligations.ReportLendersAreAsked : Prop :=
  (∀ f tag e s, s.station.Hears 6 f → s.station.isOwn f.dest.toNat = true → readLendReport f.body = some tag →
    s.station.report? tag = some e → e.route = .asking f.source.toNat →
    ∃ t, exec (.lendReport f) s = .next t ∧
      t.station.core =
        { s.station.core with
          directory := (refreshPeer f.source.toNat s.station).directory
          queue :=
            s.station.reports.queue.map fun e =>
              if e.record.tag = tag then
                { e with route := .relayed f.source.toNat, timer := some (s.station.within 120000) }
              else e }) ∧
  (∀ (e : ReportEntry) m rest s, s.station.Awake → s.station.power.opState = .active → s.station.line.total < 7 →
    s.station.report? e.record.tag = some e →
    let asks (declined : List Nat → List Nat) (now : Stamp) (dir : Directory) (t : State) : Prop :=
      t.station.core =
          { s.station.core with
            clock := now, directory := dir
            queue :=
              s.station.reports.queue.map fun g =>
                if g.record.tag = e.record.tag then
                  { g with
                    declined := declined g.declined, state := .inFlight, route := .asking m
                    timer := some (Stamp.later now s.station.answerMs) }
                else g } ∧
        t.station.holdsFrame (.borrowReport e.record) m = true
    (∀ l,
      let add (x : List Nat) : List Nat := if x.contains l then x else x ++ [l]
      e.route = .asking l → (add e.declined).length < 4 → s.station.ranking (add e.declined) = m :: rest →
      (∀ f, s.station.Hears 7 f → s.station.isOwn f.dest.toNat = true → readDecline 2 f.body = some e.record.tag →
        f.source.toNat = l →
        ∃ t, exec (.declineReport f) s = .next t ∧
          asks add s.station.now (refreshPeer l s.station).directory t) ∧
      (∀ d now, s.station.flying = some e → e.timer = some d → now = Stamp.moment s.station.now d →
        ∃ t, exec .reportAnswerTimerExpiry s = .next t ∧ asks add now s.station.directory t)) ∧
    (∀ d now, s.station.reports.stall = some d → now = Stamp.moment s.station.now d → s.station.flying = none →
      (s.station.reports.queue.find? fun g => g.state == .waiting) = some e → s.station.anyGrade = false →
      s.station.ranking e.declined = m :: rest →
      ∃ t, exec .stallCheckExpiry s = .next t ∧ asks id now s.station.directory t)) ∧
  (∀ (e : ReportEntry) d now s, s.station.Awake → s.station.inService = true → s.station.reports.stall = some d →
    now = Stamp.moment s.station.now d → s.station.flying = none →
    (s.station.reports.queue.find? fun g => g.state == .waiting) = some e → s.station.anyGrade = true →
    let who : Claimant := .report e.record.tag
    let free (l : Letter) : Prop := s.station.fitted l = true ∧ (s.station.bearer l).state = .available
    let offers (also : Station → Prop) : Prop :=
      ∃ u, exec .stallCheckExpiry s = .next { s with station := finish u } ∧
        u.reports.queue =
          (s.station.reports.queue.map fun g =>
            if g.record.tag = e.record.tag then { g with state := .inFlight, route := .ownBearer, timer := none }
            else g) ∧
        also u
    (∀ l, free l →
      (∀ m, free m →
        (s.station.bearer m).grade < (s.station.bearer l).grade ∨
          ((s.station.bearer m).grade = (s.station.bearer l).grade ∧ (l = .a ∨ m = .b))) →
      (s.station.config.destination ≠ [] →
        offers fun u =>
          (u.bearer l).state = .sending ∧
            (u.bearer l).inFlight = some ⟨.sendReport, some (Stamp.later now 30000)⟩ ∧
            (u.bearer l).alloc = some { who := who, redialUsed := false, preempt := false, keptDial := false } ∧
            .port l (sendReportMessage e.record s.station.config.destination) ∈ u.out) ∧
      (s.station.config.destination = [] → offers fun u => .notice who l .reportFailed ∈ u.work)) ∧
    ((∀ l, ¬ free l) →
      offers fun u =>
        u.bearers = { s.station.bearers with waiting := s.station.bearers.waiting ++ [⟨who, e.record⟩] }))

/-- A REPORT_RESULT(DELIVERED), and REPORT_SENT from the own bearer, removes the entry and counts it. A REPORT_RESULT(FAILED)
from the lender that relays it, no result in time, and REPORT_FAILED from the own bearer are a failed attempt: the entry rests
for 30 s with nothing declined, and after the fifth it is dropped, raising REPORT_UNDELIVERED. PREEMPTED makes the entry
waiting at the head of the queue, its attempts as they were. A rest's end leaves the entry waiting (R135-R137). `u` is the
station before the other blocks take their notices; the bearer's notices to the entry are stated as each is taken. The moment
of an expiry is the model's choice (log entry 2). -/
def Obligations.ReportAttemptsEnd : Prop :=
  ∀ (tag : Tag) (e : ReportEntry) (s : State), s.station.Awake → s.station.report? tag = some e →
    e.record.tag = tag →
    let without := s.station.reports.queue.filter fun g => g.record.tag != tag
    let alone : Prop :=
      (s.station.reports.queue.find? fun g =>
        g.waits && g.record.tag != tag && g.record.kind == e.record.kind) = none
    let rests (now : Stamp) (u : Station) : Prop :=
      u.reports.queue =
          (s.station.reports.queue.map fun g =>
            if g.record.tag = tag then
              { g with
                attempts := g.attempts + 1, declined := [], route := .absent, state := .resting
                timer := some (Stamp.later now 30000) }
            else g) ∧
        .decideReports ∈ u.work
    let drops (u : Station) : Prop :=
      u.reports.queue = without ∧
        u.keep.faults.counter .reportUndelivered = min 255 (s.station.keep.faults.counter .reportUndelivered + 1) ∧
        (s.station.keep.dropped ≠ 4294967295 → u.keep.dropped = s.station.keep.dropped + 1) ∧ .decideReports ∈ u.work
    let delivers (u : Station) : Prop :=
      u.reports.queue = without ∧
        (s.station.keep.delivered ≠ 4294967295 → u.keep.delivered = s.station.keep.delivered + 1) ∧
        .decideReports ∈ u.work
    let shows (c : Instr) (k : Kept) (p : Station → Prop) : Prop :=
      ∃ u, exec c s = .next { s with station := finish u } ∧ p u ∧ (finish u).kept = k
    let fails (c : Instr) (now : Stamp) (k : Kept) : Prop :=
      (e.attempts + 1 < 5 → alone → shows c k (rests now)) ∧ (5 ≤ e.attempts + 1 → shows c k drops)
    (∀ f, s.station.Hears 10 f → s.station.isOwn f.dest.toNat = true →
      let kept : Kept :=
        { s.station.kept with
          assembly := .skipping, directory := (refreshPeer f.source.toNat s.station).directory }
      (readResult f.body = some ⟨tag, true⟩ → shows (.reportResult f) kept delivers) ∧
      (readResult f.body = some ⟨tag, false⟩ → e.route = .relayed f.source.toNat →
        fails (.reportResult f) s.station.now kept)) ∧
    (∀ l d now, s.station.flying = some e → e.route = .relayed l → e.timer = some d →
      now = Stamp.moment s.station.now d → fails .resultTimerExpiry now { s.station.kept with clock := now }) ∧
    (e.state = .inFlight → e.route = .ownBearer → ∀ l,
      let taken (n : Notice) : Station := takeTask (.notice (.report tag) l n) s.station
      delivers (taken .reportSent) ∧
        (e.attempts + 1 < 5 → alone → rests s.station.now (taken .reportFailed)) ∧
        (5 ≤ e.attempts + 1 → drops (taken .reportFailed)) ∧
        (alone →
          (taken .preempted).reports.queue = { e with state := .waiting, route := .absent, timer := none } :: without ∧
            .decideReports ∈ (taken .preempted).work)) ∧
    (∀ g d now, e.state = .resting → e.timer = some d → now = Stamp.moment s.station.now d →
      s.station.flying = some g → g.record.tag ≠ tag → g.route ≠ .ownBearer →
      ∃ t, exec (.restTimerExpiry tag) s = .next t ∧
        t.station.core =
          { s.station.core with
            clock := now
            queue :=
              s.station.reports.queue.map fun g =>
                if g.record.tag = tag then { g with state := .waiting, timer := none } else g })

/-! ### Service frames (R180-R183, R186) -/

/-- Each QUERY that the responder takes is answered by a STATUS to the service terminal with the selector, the index, the
result, the stamp of the decision and the content: the station's, the faults', an entry of the directory with the number
held, the circuits', a bearer's, a queue's; NO_ENTRY for an index that names nothing, UNKNOWN for an unknown selector.
Nothing of the core changes (R181, R182, R186). How the contents code what the lists of section 12.2 leave open, with the
fraction of a bar's remaining second dropped, and the order in which a bearer's content gives its bars, are the model's
choices (log entries 22 and 46). -/
def Obligations.QueriesAreAnswered : Prop :=
  ∀ (f : RxFrame) (index : Byte) (s : State), s.station.Serves 11 f → s.station.line.total < 7 →
    let answered (c : Instr) (selector result : Byte) (content : List Byte) : Prop :=
      ∃ t, exec c s = .next t ∧ t.station.core = s.station.core ∧
        t.station.holdsFrame
          (.status ([selector, index, result] ++ stampBytes s.station.now ++ content) f.segment) 0 = true
    let asked (selector : Byte) : Prop := readService f.body = some (selector, index)
    let held := s.station.directory.entries
    (asked 1 → answered (.queryStation f) 1 0 s.station.stationContent) ∧
    (asked 2 → answered (.queryFaults f) 2 0 s.station.keep.faults.content) ∧
    (asked 3 →
      (∀ e, held[index.toNat]? = some e → answered (.queryDirectory f) 3 0 (byte held.length :: e.bytes)) ∧
      (held[index.toNat]? = none → answered (.queryDirectory f) 3 1 [byte held.length])) ∧
    (asked 4 → answered (.queryCircuits f) 4 0 s.station.circuitsContent) ∧
    (asked 5 →
      (index = 0 → answered (.queryBearer f) 5 0 (s.station.bearerContent .a)) ∧
      (index = 1 → answered (.queryBearer f) 5 0 (s.station.bearerContent .b)) ∧
      (index ≠ 0 → index ≠ 1 → answered (.queryBearer f) 5 1 [])) ∧
    (asked 6 →
      (index = 0 → answered (.queryQueues f) 6 0 s.station.reportContent) ∧
      (index = 1 → answered (.queryQueues f) 6 0 s.station.relayContent) ∧
      (index ≠ 0 → index ≠ 1 → answered (.queryQueues f) 6 1 [])) ∧
    (∀ selector, asked selector → answered (.unknownSelector f) selector 5 [])

/-- CLEAR_FAULTS sets the counters of the named classes to 0, leaves a named class's flag set only while a condition of
that class stands, leaves the other classes and the last-fault record, and is answered DONE with the flags. RECAPTURE
arms the reference capture and is answered DONE. An unknown order is answered UNKNOWN with the code received (R127, R180,
R183, R186). `u` is the station before the standing conditions are kept. -/
def Obligations.OrdersAreAnswered : Prop :=
  ∀ (f : RxFrame) (x : Byte) (s : State), s.station.Serves 13 f → s.station.line.total < 7 →
    let answer (code result : Byte) (content : List Byte) : TxBody :=
      .status ([code, 0, result] ++ stampBytes s.station.now ++ content) f.segment
    (readService f.body = some (1, x) →
      let set := classSetOf x
      ∃ u, exec (.clearFaults f) s = .next { s with station := finish u } ∧
        (∀ k, u.keep.faults.counter k = if set.has k.faultClass then 0 else s.station.keep.faults.counter k) ∧
        (∀ c : FaultClass,
          u.keep.faults.flags.has c =
            if set.has c then allFaultKinds.any fun k => k.faultClass == c && s.station.conditionStands k
            else s.station.keep.faults.flags.has c) ∧
        u.keep.faults.last = s.station.keep.faults.last ∧ (finish u).core = s.station.core ∧
        u.holdsFrame (answer 129 2 [classSetByte u.keep.faults.flags]) 0 = true) ∧
    (readService f.body = some (4, x) →
      ∃ t, exec (.recapture f) s = .next t ∧
        t.station.core = { s.station.core with cabinet := { s.station.cabinet with capture := .armed } } ∧
        t.station.holdsFrame (answer 132 2 []) 0 = true) ∧
    (∀ order, readService f.body = some (order, x) →
      ∃ t, exec (.unknownOrder f) s = .next t ∧ t.station.core = s.station.core ∧
        t.station.holdsFrame (answer order 5 []) 0 = true)

/-! ### Transmit side and draws (R142, R148-R163) -/

/-- While the station does not transmit, an idle gap makes the receive assembly seek and lets backoff run; a busy line ends
the gap, and a seeking assembly takes up a frame. A slot of an idle line counts the backoff down; at 0 the frame in service
is composed and driven, its attempt counted (R142, R149-R151, R185). `u` is the station before the standing conditions are
kept and the transmit side is served. -/
def Obligations.LineEdgesRunBackoff : Prop :=
  ∀ s : State, s.station.Awake →
    (s.station.transmitting = false →
      (∃ u, exec .idleGap s = .next { s with station := finish u } ∧
        u.line = { s.station.line with assembly := .seeking, gap := true } ∧
        (finish u).core = s.station.core ∧ (finish u).kept = { s.station.kept with assembly := .seeking }) ∧
      (∃ u, exec .lineBusy s = .next { s with station := finish u } ∧
        u.line =
          { s.station.line with
            gap := false
            assembly :=
              if s.station.line.assembly = .seeking then .assembling else s.station.line.assembly } ∧
        (finish u).core = s.station.core ∧ (finish u).kept = { s.station.kept with assembly := u.line.assembly })) ∧
    (∀ f n, s.station.line.service = some ⟨f, .slots (n + 1)⟩ → s.station.line.gap = true →
      ∃ u, exec .backoffSlot s = .next { s with station := finish u } ∧
        u.line = { s.station.line with service := some ⟨f, .slots n⟩ } ∧ (finish u).core = s.station.core ∧
        (finish u).kept = s.station.kept ∧
        (n = 0 → f.body.isAnnounce = false →
          let sent : TxFrame := { f with attempts := f.attempts + 1, begun := true }
          (finish u).line.service = some ⟨sent, .attempting (s.station.composeFrame sent) false⟩ ∧
            .frame (s.station.composeFrame sent) ∈ (finish u).out))

/-- A collision of the attempt in progress draws a new backoff, in a range of 8 slots for an URGENT frame and 32 for a
ROUTINE one, doubled for each collision up to 256; at the eighth the frame is dropped and LINE_CONGESTION raised, the
circuit unit being told of a dropped CLAIM: with the CLAIM of its own attempt the attempt is lost, another changes nothing. A
completed frame leaves the queue. The completed CLAIM of the station's own attempt, with its circuit, tag and draw, opens the
circuit's contest, or joins one that is open, where it is the best claim if it ranks higher; where the entry is held the
attempt is lost: the third loss ends the round with ATTEMPTS_LOST. No other completed frame enters the view. A completed
ANNOUNCE starts the period and ends a pending reply (R12, R14, R19, R27, R28, R148-R154). `u` is the station before the
other blocks take their notices. A CLAIM that is not of the attempt is one left by a round that a reload ended, which is the
model's choice (log entry 49). -/
def Obligations.AttemptsEnd : Prop :=
  ∀ f bytes standby s, s.station.Awake → s.station.line.service = some ⟨f, .attempting bytes standby⟩ →
    let line : Line := { s.station.line with assembly := .skipping, gap := false }
    let ownClaim (body : TxBody) (r : Round) (draw : Nat) : Prop :=
      s.station.circuits.round = some r ∧ r.stage = .claimSent draw ∧ body = .claim r.circuit r.tag draw
    let lost (r : Round) (u : Station) : Prop :=
      u.circuits.round = none ∧ .roundFailed r.tag .attemptsLost ∈ u.work
    let thirdLoss (r : Round) : Prop := r.attempts = 2 ∧ r.abandoned = none ∧ s.station.circuits.request = none
    (∀ x rest, f.attempts < 8 → f.body.urgent = true ∨ (s.station.line.queue.any fun g => g.body.urgent) = false →
      s.station.draw.mode = .healthy → s.station.draw.pool = x :: rest →
      ∃ u, exec .collision s = .next { s with station := finish u } ∧ u.core = s.station.core ∧
        u.line =
          { line with
            service := some ⟨f, .slots (x % min 256 ((if f.body.urgent then 8 else 32) * 2 ^ f.attempts))⟩ } ∧
        u.draw.pool = rest) ∧
    (8 ≤ f.attempts →
      ∃ u, exec .collision s = .next { s with station := finish u } ∧ u.core = s.station.core ∧
        u.line = { line with service := none } ∧
        u.keep.faults.counter .lineCongestion = min 255 (s.station.keep.faults.counter .lineCongestion + 1) ∧
        (f.body.isClaim = true → .claimDropped f.body ∈ u.work)) ∧
    (∀ body,
      (∀ r draw, ownClaim body r draw → thirdLoss r → lost r (takeTask (.claimDropped body) s.station)) ∧
      ((∀ r draw, ¬ ownClaim body r draw) → takeTask (.claimDropped body) s.station = s.station)) ∧
    ((∀ r draw, ¬ ownClaim f.body r draw) → f.body.isAnnounce = false →
      ∃ u, exec .transmissionComplete s = .next { s with station := finish u } ∧ u.core = s.station.core ∧
        u.line = { line with service := none }) ∧
    (∀ r draw, ownClaim f.body r draw →
      let mine : Claim := ⟨s.station.tagOrigin, r.tag, draw⟩
      let joins (e : CircuitEntry) : Prop :=
        ∃ u, exec .transmissionComplete s = .next { s with station := finish u } ∧ u.entry r.circuit = e ∧
          (∀ c, c ≠ r.circuit → u.entry c = s.station.entry c) ∧
          u.circuits.round = some { r with stage := .contesting draw } ∧ u.line = { line with service := none }
      (s.station.entry r.circuit = .free → joins (.contested mine s.station.now)) ∧
      (∀ best start, s.station.entry r.circuit = .contested best start →
        let wins : Prop := best.draw < draw ∨ (best.draw = draw ∧ best.claimant < mine.claimant)
        (wins → joins (.contested mine start)) ∧ (¬ wins → joins (.contested best start))) ∧
      ((s.station.entry r.circuit).holding.isSome = true → thirdLoss r →
        ∃ u, exec .transmissionComplete s = .next { s with station := finish u } ∧ lost r u ∧
          (∀ c, u.entry c = s.station.entry c) ∧ u.line = { line with service := none })) ∧
    (f.body.isAnnounce = true → s.station.power.opState = .active → s.station.announcing.mark = false →
      ∃ u, exec .transmissionComplete s = .next { s with station := finish u } ∧ u.core = s.station.core ∧
        u.announcing.reply = .none ∧
        u.announcing.period = some (s.station.within (s.station.config.announcePeriod * 1000)) ∧
        u.line = { line with service := none })

/-- Every noise bit extends the run of identical bits or starts a new one, is counted in the window of 512 with the ones,
and in HEALTHY, with fewer than eight draws in the pool, is gathered into the group of 64. The bit that completes a run of
32 fails the repetition test; the 512th of a window ends it, and it passes with 180 to 332 ones and no repetition failure.
A failure latches a source that qualifies or is healthy, raising DRAW_HEALTH, with the pool and the group emptied and the
fallback seeded from clock and address; a window that passes makes the source healthy. A group of 64 becomes a draw, which
joins the pool, or is the slot count of the frame whose request has waited longest. A latched source gives each request
the next draw of the fallback sequence (R149, R158-R163). That the noise commands carry their bits and the draw, which bits
REPETITION_FAILURE stands for, and that a bit's tests come before its group are the model's choices (log entry 11). -/
def Obligations.NoiseTestsSwitchSource : Prop :=
  ∀ s : State, s.station.Awake →
    let source := s.station.draw
    let mode := source.mode
    let k := s.station.kept
    let n := if source.runLength < 32 then 32 - source.runLength else 32
    let seeded (u : Station) : Prop :=
      u.draw.pool = [] ∧
        (source.waiting = [] →
          u.draw.fallback =
            some
              ⟨s.station.tagOrigin
              , (s.station.now.clock.toNat + 16777216 * s.station.tagOrigin) % 4294967296⟩)
    (∀ bits b, mode ≠ .off → source.uneventful bits = true →
      let d := bits.foldl (fun d b => d.countBit b) source
      let run := if 1 ≤ d.runLength ∧ d.runLength < 32 ∧ b = d.lastBit then d.runLength + 1 else 1
      let ones := if b then d.ones + 1 else d.ones
      let ends : Bool := d.windowBits + 1 == 512
      let failed : Bool := d.windowFailed || run == 32
      let passes : Bool := 180 ≤ ones && ones ≤ 332 && !failed
      let latches : Bool := mode != .latched && (run == 32 || (ends && !passes))
      let settles : Bool := mode != .healthy && ends && passes
      let gathered :=
        if mode = .healthy ∧ source.pool.length < 8 ∧ d.group.length < 64 then d.group ++ [b] else d.group
      ∃ u, exec (.proportionWindowJudged (bits ++ [b])) s = .next { s with station := finish u } ∧
        (finish u).kept =
          { (if latches then k.raised .drawHealth else k) with
            drawMode := if latches then .latched else if settles then .healthy else mode
            lastBit := b, runLength := run
            windowBits := if ends then 0 else d.windowBits + 1
            ones := if ends then 0 else ones
            windowFailed := if ends then false else failed
            group := if latches || settles then [] else gathered } ∧
        (latches = true → seeded u) ∧ (settles = true → u.draw.fallback = none)) ∧
    exec .repetitionFailure s = exec (.proportionWindowJudged (List.replicate n source.lastBit)) s ∧
    (source.windowBits + n < 512 →
      let counts : DrawSource :=
        { source with
          runLength := 32, windowBits := source.windowBits + n
          ones := if source.lastBit then source.ones + n else source.ones
          windowFailed := true }
      (mode = .qualifying ∨ mode = .healthy →
        ∃ u, exec .repetitionFailure s = .next { s with station := finish u } ∧ seeded u ∧
          (finish u).kept = { (k.raised .drawHealth).counted counts with drawMode := .latched, group := [] }) ∧
      (mode = .latched →
        ∃ t, exec .repetitionFailure s = .next t ∧ t.station.kept = k.counted counts)) ∧
    (∀ bits (draw : BitVec 16), mode = .healthy → source.sound bits = true →
      let d := bits.foldl DrawSource.passBit source
      ∃ u, exec (.drawConditioned ⟨bits, draw⟩) s = .next { s with station := finish u } ∧
        (d.group.length ≠ 64 → u.draw = d ∧ (finish u).kept = k.counted d) ∧
        (d.group.length = 64 → source.waiting ≠ [] ∨ source.pool.length < 8 →
          (finish u).kept = { k.counted d with group := [] }) ∧
        (d.group.length = 64 → source.waiting = [] →
          u.draw =
            if source.pool.length < 8 then { d with group := [], pool := source.pool ++ [draw.toNat] } else d) ∧
        (∀ f rest, d.group.length = 64 → source.waiting = .line :: rest →
          s.station.line.service = some ⟨f, .waitingDraw⟩ →
          u.draw = { d with group := [], waiting := rest } ∧
            u.line.service =
              some
                ⟨f
                , .slots (draw.toNat % min 256 ((if f.body.urgent then 8 else 32) * 2 ^ f.attempts))⟩)) ∧
    (∀ f c, mode = .latched → s.station.draw.fallback = some f →
      let next := (f.state * 1597334677 + 2 * f.address + 1) % 4294967296
      requestDraw c s.station =
        (some (next / 65536), { s.station with draw.fallback := some { f with state := next } }))

/-! ### Cabinet monitor (R124-R131) -/

/-- A sample within the range restarts the silence limit of 1 s and moves each axis of the baseline by 1/400 of the
difference, or is the first baseline; a sample outside the range changes nothing. A quiet IMPACT detector opens an
event when the deviation from the baseline before the sample exceeds the threshold. A still window of 10 s sets the
reference to its mean, rounded toward zero (R124-R128). That baseline, deviation and peak are exact is the model's
choice (log entry 20). -/
def Obligations.SampleMovesBaseline : Prop :=
  ∀ (x y z : Int) (s : State), s.station.Awake →
    let c := s.station.cabinet
    let far (v : Int) : Prop := v < -8000 ∨ 8000 < v
    (far x ∨ far y ∨ far z →
      ∃ t, exec (.sample x y z) s = .next t ∧ t.station.core = s.station.core ∧ t.station.kept = s.station.kept) ∧
    (¬ far x → ¬ far y → ¬ far z →
      ∃ t, exec (.sample x y z) s = .next t ∧
        t.station.kept =
          { s.station.kept with cabinet := t.station.cabinet, reference := t.station.keep.reference } ∧
        t.station.cabinet.silent = false ∧ t.station.cabinet.silence = some (s.station.within 1000) ∧
        t.station.cabinet.baseline =
          some
            (match c.baseline with
            | none => ⟨x, y, z⟩
            | some b => ⟨b.x + (x - b.x) / 400, b.y + (y - b.y) / 400, b.z + (z - b.z) / 400⟩) ∧
        (∀ b, c.baseline = some b → c.impact = .quiet →
          let d : QVec := ⟨x - b.x, y - b.y, z - b.z⟩
          let size := d.x * d.x + d.y * d.y + d.z * d.z
          let limit : Rat := (s.station.config.impactThreshold * 100 : Nat)
          (limit * limit < size →
            t.station.cabinet.impact =
                .opened s.station.now size (axisOfLargest d) (s.station.within 2000) ∧
              t.station.cabinet.lastImpact = some s.station.now) ∧
          (¬ limit * limit < size → t.station.cabinet.impact = .quiet)) ∧
        (∀ start n sum low high, c.capture = .window start n sum low high →
          10000 ≤ Stamp.elapsed start s.station.now →
          max high.x x - min low.x x < 50 → max high.y y - min low.y y < 50 → max high.z z - min low.z z < 50 →
          t.station.cabinet.capture = .off ∧
            t.station.keep.reference =
              some
                ⟨Int.tdiv (sum.x + x) (n + 1), Int.tdiv (sum.y + y) (n + 1), Int.tdiv (sum.z + z) (n + 1)⟩))

/-- The silence limit raises SENSOR_SILENT, drops a tilt test in progress, restarts a capture's window, and closes an open
IMPACT event; so does the quiet limit of the event. An event that closes has its first stamp: in ACTIVE and ISOLATED it is
merged into the first report of its kind not in flight, else it becomes a report with the next report number and the level
of its peak, where eight are held in place of the oldest not in flight, which is counted as dropped with REPORT_DROPPED; in
START it is merged into the pending entry of its kind or waits in the pending list. A greater peak replaces the old one
with its axis (R126, R128, R130-R133). `u` is the station before the other blocks take their notices. The moment of an
expiry, that the peak is kept exactly, and that the oldest entry is the first in queue order, are the model's choices (log
entries 2, 20 and 59). -/
def Obligations.SilenceAndQuietLimits : Prop :=
  ∀ (d now : Stamp) (s : State), s.station.Awake → now = Stamp.moment s.station.now d →
    let c := s.station.cabinet
    let queue := s.station.reports.queue
    let silent : Cabinet :=
      { c with
        silent := true, silence := none
        tilt :=
          match c.tilt with
          | .sustaining _ _ _ => .armed
          | .rearming _ => .raised
          | t => t
        capture :=
          match c.capture with
          | .window _ _ _ _ _ => .armed
          | w => w }
    let quiet (k : Kept) (v : Cabinet) : Kept := { k with clock := now, cabinet := v }
    let merges (e : ReportEntry) : Bool := e.waits && e.record.kind == .impact
    let closes (i : Instr) (k : Kept) (v : Cabinet) (first : Stamp) (peak : Rat) (axis : Axis) : Prop :=
      let number := (s.station.keep.lastReport + 1) % 4096
      let record : Record :=
        { tag := ⟨s.station.tagOrigin, number⟩, kind := .impact, first := first, last := first, repeats := 1
          peak := peakLevel peak, axis := some axis, label := s.station.config.label }
      let entry : ReportEntry :=
        { record := record, peakSq := peak, state := .waiting, route := .absent, attempts := 0, declined := []
          timer := none }
      let hands (l : List ReportEntry) (last : Nat) (u : Station) : Prop :=
        exec i s = .next { s with station := finish u } ∧ u.reports.queue = l ∧ u.keep.lastReport = last ∧
          .decideReports ∈ u.work ∧ (finish u).kept = quiet k { v with impact := .quiet }
      let waits (l : List CabinetEvent) : Prop :=
        ∃ t, exec i s = .next t ∧
          t.station.core = { s.station.core with clock := now, cabinet := { v with impact := .quiet, pending := l } }
      (s.station.inService = true →
        (queue.any merges = false → queue.length < 8 → ∃ u, hands (queue ++ [entry]) number u) ∧
        (∀ pre e post, queue = pre ++ e :: post → pre.any merges = false → merges e = true →
          let one : ReportEntry :=
            { e with record.repeats := min 255 (e.record.repeats + 1), record.last := first }
          ∃ u,
            hands
              (pre ++
                (if e.peakSq < peak then
                  { one with peakSq := peak, record.peak := peakLevel peak, record.axis := some axis }
                else one) :: post)
              s.station.keep.lastReport u) ∧
        (∀ pre e post, queue = pre ++ e :: post → queue.any merges = false → 8 ≤ queue.length →
          (pre.any fun g => g.waits) = false → e.waits = true →
          ∃ u, hands (pre ++ post ++ [entry]) number u ∧
            u.keep.faults.counter .reportDropped = min 255 (s.station.keep.faults.counter .reportDropped + 1) ∧
            (s.station.keep.dropped ≠ 4294967295 → u.keep.dropped = s.station.keep.dropped + 1))) ∧
      (s.station.power.opState = .start →
        ((c.pending.any fun e => e.kind == .impact) = false →
          waits
            (c.pending ++
              [{ kind := .impact, first := first, last := first, repeats := 1, peakSq := peak, axis := some axis }])) ∧
        (∀ pre e post, c.pending = pre ++ e :: post → (pre.any fun g => g.kind == .impact) = false →
          e.kind = .impact →
          let one : CabinetEvent := { e with repeats := min 255 (e.repeats + 1), last := first }
          waits (pre ++ (if e.peakSq < peak then { one with peakSq := peak, axis := some axis } else one) :: post)))
    let k := s.station.kept
    (c.silence = some d →
      (c.impact = .quiet →
        ∃ t, exec .sensorSilence s = .next t ∧ t.station.kept = quiet (k.raised .sensorSilent) silent) ∧
      (∀ first peak axis limit, c.impact = .opened first peak axis limit →
        closes .sensorSilence (k.raised .sensorSilent) silent first peak axis)) ∧
    (∀ first peak axis, c.impact = .opened first peak axis d →
      closes .impactQuietLimitExpiry k c first peak axis)

/-! ### Rankings and the fault lamp -/

/-- Claims are ranked by their draws, and between equal draws by their addresses: whatever the order in which claims join
the contest of a free circuit, the best claim is one of them, and no other has a higher draw, or its draw and a higher
address. A draw's origin plays no part (R19). -/
def Obligations.ContestBestClaimRanksHighest : Prop :=
  ∀ (c : Circuit) (first : Claim) (more : List Claim) (s : Station), s.entry c = .free →
    ∃ best ∈ first :: more,
      ((first :: more).foldl (fun t k => joinContest c k t) s).entry c = .contested best s.now ∧
        ∀ k ∈ first :: more,
          k.draw < best.draw ∨ (k.draw = best.draw ∧ k.claimant ≤ best.claimant)

/-- The fault lamp is lit while the NON_FATAL or the FATAL flag is set and dark else, CORRECTABLE having no effect; it
follows each raise and each clearing; it is dark after a power-on reset and in STANDBY, takes the flags' value after a warm
reset and on wake, and is lit on a station made ISOLATED by CONFIG_INVALID or ADDRESS_CLASH (R118). -/
def Obligations.FaultLampFollowsFlags : Prop :=
  State.reset.station.faultLamp = false ∧
    ∀ s : Station, (s.power.opState = .standby → s.faultLamp = false) ∧
      (s.power.keepRail = true → s.power.held = false → s.power.opState ≠ .standby →
        s.faultLamp = (s.keep.faults.flags.nonFatal || s.keep.faults.flags.fatal) ∧
        (∀ k, (raise k s).faultLamp = (s.faultLamp || k.faultClass == .nonFatal || k.faultClass == .fatal)) ∧
        (∀ set, (clearClasses set s).faultLamp =
          ((clearClasses set s).keep.faults.flags.nonFatal || (clearClasses set s).keep.faults.flags.fatal)) ∧
        (configInvalid s).faultLamp = true ∧ (addressClash s).faultLamp = true) ∧
      (s.power.keepRail = true →
        (warmReset s).faultLamp = (s.keep.faults.flags.nonFatal || s.keep.faults.flags.fatal)) ∧
      (∀ cause, s.power.keepRail = true → s.power.held = false → s.power.opState = .standby →
        s.power.mainRail = true →
        (takeWake cause s).power.opState = .active ∧
          (takeWake cause s).faultLamp =
            ((takeWake cause s).keep.faults.flags.nonFatal || (takeWake cause s).keep.faults.flags.fatal))

/-- A sample within the range moves the tilt detector by R129's table, on the angle between the moved baseline and the
reference, both 200 mg or longer: ARMED goes to SUSTAINING above the threshold, SUSTAINING back to ARMED at or below it; a
detector that an impact in the 10 s before made eligible raises KNOCKDOWN after 5 s above 60 degrees, and TILT is raised
after 5 s above the threshold where it is not both eligible and above 60 degrees; RAISED re-arms after 5 s at or below the
threshold. A vector below 200 mg changes nothing of the detector. Meant are samples at which no reference capture ends. What
is raised carries the sample's stamp: in ACTIVE and ISOLATED it becomes a waiting report of its kind, in START it joins the
pending list (R129, R130, R132, R133). `u` is the station before the other blocks take their notices. That the angle is
compared exactly, on an exact baseline, is the model's choice (log entries 19 and 20). -/
def Obligations.TiltDetectorMoves : Prop :=
  ∀ (x y z : Int) (b : QVec) (r : IVec) (s : State), s.station.Awake → s.station.cabinet.baseline = some b →
    s.station.keep.reference = some r →
    (∀ start n sum low high, s.station.cabinet.capture = .window start n sum low high →
      Stamp.elapsed start s.station.now < 10000) →
    -8000 ≤ x ∧ x ≤ 8000 → -8000 ≤ y ∧ y ≤ 8000 → -8000 ≤ z ∧ z ≤ 8000 →
    let c := s.station.cabinet
    let now := s.station.now
    let m : QVec := ⟨b.x + (x - b.x) / 400, b.y + (y - b.y) / 400, b.z + (z - b.z) / 400⟩
    let dot (v w : QVec) : Rat := v.x * w.x + v.y * w.y + v.z * w.z
    let wider (cosSquare : Rat) : Prop :=
      dot m r.exact < 0 ∨ dot m r.exact * dot m r.exact < cosSquare * (dot m m * dot r.exact r.exact)
    let above : Prop := wider (cosSq s.station.config.tiltThreshold)
    let high : Prop := wider (1 / 4)
    let becomes (tilt : Tilt) : Prop :=
      ∃ t, exec (.sample x y z) s = .next t ∧ t.station.cabinet.tilt = tilt ∧ t.station.cabinet.pending = c.pending ∧
        t.station.core = { s.station.core with cabinet := t.station.cabinet }
    let raises (kind : ReportKind) : Prop :=
      (s.station.inService = true →
        (s.station.reports.queue.any fun e => e.waits && e.record.kind == kind) = false →
        s.station.reports.queue.length < 8 →
        ∃ u, exec (.sample x y z) s = .next { s with station := finish u } ∧
          (finish u).cabinet.tilt = .raised ∧ (finish u).cabinet.pending = c.pending ∧ .decideReports ∈ u.work ∧
          u.reports.queue =
            s.station.reports.queue ++
              [{ record :=
                   { tag := ⟨s.station.tagOrigin, (s.station.keep.lastReport + 1) % 4096⟩, kind := kind
                     first := now, last := now, repeats := 1, peak := 0, axis := none
                     label := s.station.config.label }
                 peakSq := 0, state := .waiting, route := .absent, attempts := 0, declined := []
                 timer := none }]) ∧
      (s.station.power.opState = .start → (c.pending.any fun e => e.kind == kind) = false →
        ∃ t, exec (.sample x y z) s = .next t ∧ t.station.cabinet.tilt = .raised ∧
          t.station.cabinet.pending =
            c.pending ++ [{ kind := kind, first := now, last := now, repeats := 1, peakSq := 0, axis := none }])
    (dot m m < 40000 ∨ dot r.exact r.exact < 40000 → becomes c.tilt) ∧
    (40000 ≤ dot m m → 40000 ≤ dot r.exact r.exact →
      (c.tilt = .armed → ¬ above → becomes .armed) ∧
      (c.tilt = .armed → above →
        ∃ t eligible, exec (.sample x y z) s = .next t ∧
          (eligible = true ↔ ∃ i, t.station.cabinet.lastImpact = some i ∧ Stamp.elapsed i now ≤ 10000) ∧
          (high → t.station.cabinet.tilt = .sustaining now (some now) eligible) ∧
          (¬ high → t.station.cabinet.tilt = .sustaining now none eligible)) ∧
      (∀ start was eligible, c.tilt = .sustaining start was eligible →
        let since : Stamp := was.getD now
        (¬ above → becomes .armed) ∧
        (above → high → eligible = true →
          (5000 ≤ Stamp.elapsed since now → raises .knockdown) ∧
          (Stamp.elapsed since now < 5000 → becomes (.sustaining start (some since) eligible))) ∧
        (above → high → eligible = false → Stamp.elapsed start now < 5000 →
          becomes (.sustaining start (some since) eligible)) ∧
        (above → ¬ high → Stamp.elapsed start now < 5000 → becomes (.sustaining start none eligible)) ∧
        (above → ¬ high ∨ eligible = false → 5000 ≤ Stamp.elapsed start now → raises .tilt)) ∧
      (c.tilt = .raised → (above → becomes .raised) ∧ (¬ above → becomes (.rearming now))) ∧
      (∀ start, c.tilt = .rearming start →
        (above → becomes .raised) ∧
        (¬ above → 5000 ≤ Stamp.elapsed start now → becomes .armed) ∧
        (¬ above → Stamp.elapsed start now < 5000 → becomes (.rearming start))))
end

