-- ==== Sys2Proof/Laws/State.lean ====
section
/-! SUPPORT. The named updates of the station, field by field: what each leaves as it was, and what it writes. -/

namespace Sys2Proof.Machine

/-! ### `freshOut` -/

@[simp] theorem freshOut_keep (s : Station) : (freshOut s).keep = s.keep := rfl
@[simp] theorem freshOut_power (s : Station) : (freshOut s).power = s.power := rfl
@[simp] theorem freshOut_directory (s : Station) : (freshOut s).directory = s.directory := rfl
@[simp] theorem freshOut_announcing (s : Station) : (freshOut s).announcing = s.announcing := rfl
@[simp] theorem freshOut_circuits (s : Station) : (freshOut s).circuits = s.circuits := rfl
@[simp] theorem freshOut_line (s : Station) : (freshOut s).line = s.line := rfl
@[simp] theorem freshOut_draw (s : Station) : (freshOut s).draw = s.draw := rfl
@[simp] theorem freshOut_bearers (s : Station) : (freshOut s).bearers = s.bearers := rfl
@[simp] theorem freshOut_audio (s : Station) : (freshOut s).audio = s.audio := rfl
@[simp] theorem freshOut_panel (s : Station) : (freshOut s).panel = s.panel := rfl
@[simp] theorem freshOut_call (s : Station) : (freshOut s).call = s.call := rfl
@[simp] theorem freshOut_reports (s : Station) : (freshOut s).reports = s.reports := rfl
@[simp] theorem freshOut_cabinet (s : Station) : (freshOut s).cabinet = s.cabinet := rfl
@[simp] theorem freshOut_free (s : Station) : (freshOut s).free = s.free := rfl

/-! ### `emit` -/

@[simp] theorem emit_keep (o : Output) (s : Station) : (emit o s).keep = s.keep := rfl
@[simp] theorem emit_power (o : Output) (s : Station) : (emit o s).power = s.power := rfl
@[simp] theorem emit_directory (o : Output) (s : Station) : (emit o s).directory = s.directory := rfl
@[simp] theorem emit_announcing (o : Output) (s : Station) : (emit o s).announcing = s.announcing := rfl
@[simp] theorem emit_circuits (o : Output) (s : Station) : (emit o s).circuits = s.circuits := rfl
@[simp] theorem emit_line (o : Output) (s : Station) : (emit o s).line = s.line := rfl
@[simp] theorem emit_draw (o : Output) (s : Station) : (emit o s).draw = s.draw := rfl
@[simp] theorem emit_bearers (o : Output) (s : Station) : (emit o s).bearers = s.bearers := rfl
@[simp] theorem emit_audio (o : Output) (s : Station) : (emit o s).audio = s.audio := rfl
@[simp] theorem emit_panel (o : Output) (s : Station) : (emit o s).panel = s.panel := rfl
@[simp] theorem emit_call (o : Output) (s : Station) : (emit o s).call = s.call := rfl
@[simp] theorem emit_reports (o : Output) (s : Station) : (emit o s).reports = s.reports := rfl
@[simp] theorem emit_cabinet (o : Output) (s : Station) : (emit o s).cabinet = s.cabinet := rfl
@[simp] theorem emit_free (o : Output) (s : Station) : (emit o s).free = s.free := rfl
@[simp] theorem emit_work (o : Output) (s : Station) : (emit o s).work = s.work := rfl

/-! ### `post` -/

@[simp] theorem post_keep (t : Task) (s : Station) : (post t s).keep = s.keep := rfl
@[simp] theorem post_power (t : Task) (s : Station) : (post t s).power = s.power := rfl
@[simp] theorem post_directory (t : Task) (s : Station) : (post t s).directory = s.directory := rfl
@[simp] theorem post_announcing (t : Task) (s : Station) : (post t s).announcing = s.announcing := rfl
@[simp] theorem post_circuits (t : Task) (s : Station) : (post t s).circuits = s.circuits := rfl
@[simp] theorem post_line (t : Task) (s : Station) : (post t s).line = s.line := rfl
@[simp] theorem post_draw (t : Task) (s : Station) : (post t s).draw = s.draw := rfl
@[simp] theorem post_bearers (t : Task) (s : Station) : (post t s).bearers = s.bearers := rfl
@[simp] theorem post_audio (t : Task) (s : Station) : (post t s).audio = s.audio := rfl
@[simp] theorem post_panel (t : Task) (s : Station) : (post t s).panel = s.panel := rfl
@[simp] theorem post_call (t : Task) (s : Station) : (post t s).call = s.call := rfl
@[simp] theorem post_reports (t : Task) (s : Station) : (post t s).reports = s.reports := rfl
@[simp] theorem post_cabinet (t : Task) (s : Station) : (post t s).cabinet = s.cabinet := rfl
@[simp] theorem post_free (t : Task) (s : Station) : (post t s).free = s.free := rfl
@[simp] theorem post_out (t : Task) (s : Station) : (post t s).out = s.out := rfl
@[simp] theorem postFirst_keep (t : Task) (s : Station) : (postFirst t s).keep = s.keep := rfl
@[simp] theorem postFirst_power (t : Task) (s : Station) : (postFirst t s).power = s.power := rfl
@[simp] theorem postFirst_directory (t : Task) (s : Station) : (postFirst t s).directory = s.directory := rfl
@[simp] theorem postFirst_announcing (t : Task) (s : Station) : (postFirst t s).announcing = s.announcing := rfl
@[simp] theorem postFirst_circuits (t : Task) (s : Station) : (postFirst t s).circuits = s.circuits := rfl
@[simp] theorem postFirst_line (t : Task) (s : Station) : (postFirst t s).line = s.line := rfl
@[simp] theorem postFirst_draw (t : Task) (s : Station) : (postFirst t s).draw = s.draw := rfl
@[simp] theorem postFirst_bearers (t : Task) (s : Station) : (postFirst t s).bearers = s.bearers := rfl
@[simp] theorem postFirst_audio (t : Task) (s : Station) : (postFirst t s).audio = s.audio := rfl
@[simp] theorem postFirst_panel (t : Task) (s : Station) : (postFirst t s).panel = s.panel := rfl
@[simp] theorem postFirst_call (t : Task) (s : Station) : (postFirst t s).call = s.call := rfl
@[simp] theorem postFirst_reports (t : Task) (s : Station) : (postFirst t s).reports = s.reports := rfl
@[simp] theorem postFirst_cabinet (t : Task) (s : Station) : (postFirst t s).cabinet = s.cabinet := rfl
@[simp] theorem postFirst_free (t : Task) (s : Station) : (postFirst t s).free = s.free := rfl
@[simp] theorem postFirst_out (t : Task) (s : Station) : (postFirst t s).out = s.out := rfl

/-! ### `raise` -/

@[simp] theorem raise_power (k : FaultKind) (s : Station) : (raise k s).power = s.power := rfl
@[simp] theorem raise_directory (k : FaultKind) (s : Station) : (raise k s).directory = s.directory := rfl
@[simp] theorem raise_announcing (k : FaultKind) (s : Station) : (raise k s).announcing = s.announcing := rfl
@[simp] theorem raise_circuits (k : FaultKind) (s : Station) : (raise k s).circuits = s.circuits := rfl
@[simp] theorem raise_line (k : FaultKind) (s : Station) : (raise k s).line = s.line := rfl
@[simp] theorem raise_draw (k : FaultKind) (s : Station) : (raise k s).draw = s.draw := rfl
@[simp] theorem raise_bearers (k : FaultKind) (s : Station) : (raise k s).bearers = s.bearers := rfl
@[simp] theorem raise_audio (k : FaultKind) (s : Station) : (raise k s).audio = s.audio := rfl
@[simp] theorem raise_panel (k : FaultKind) (s : Station) : (raise k s).panel = s.panel := rfl
@[simp] theorem raise_call (k : FaultKind) (s : Station) : (raise k s).call = s.call := rfl
@[simp] theorem raise_reports (k : FaultKind) (s : Station) : (raise k s).reports = s.reports := rfl
@[simp] theorem raise_cabinet (k : FaultKind) (s : Station) : (raise k s).cabinet = s.cabinet := rfl
@[simp] theorem raise_free (k : FaultKind) (s : Station) : (raise k s).free = s.free := rfl
@[simp] theorem raise_out (k : FaultKind) (s : Station) : (raise k s).out = s.out := rfl
@[simp] theorem raise_work (k : FaultKind) (s : Station) : (raise k s).work = s.work := rfl
@[simp] theorem raise_keep_clock (k : FaultKind) (s : Station) : (raise k s).keep.clock = s.keep.clock := rfl
@[simp] theorem raise_keep_config (k : FaultKind) (s : Station) : (raise k s).keep.config = s.keep.config := rfl
@[simp] theorem raise_keep_tally (k : FaultKind) (s : Station) : (raise k s).keep.tally = s.keep.tally := rfl
@[simp] theorem raise_keep_lastCall (k : FaultKind) (s : Station) : (raise k s).keep.lastCall = s.keep.lastCall := rfl
@[simp] theorem raise_keep_lastReport (k : FaultKind) (s : Station) :
    (raise k s).keep.lastReport = s.keep.lastReport :=
  rfl
@[simp] theorem raise_keep_delivered (k : FaultKind) (s : Station) : (raise k s).keep.delivered = s.keep.delivered :=
  rfl
@[simp] theorem raise_keep_dropped (k : FaultKind) (s : Station) : (raise k s).keep.dropped = s.keep.dropped := rfl
@[simp] theorem raise_keep_reference (k : FaultKind) (s : Station) : (raise k s).keep.reference = s.keep.reference :=
  rfl

/-! ### `catchUp` -/

@[simp] theorem catchUp_power (d : Stamp) (s : Station) : (catchUp d s).power = s.power :=
  by unfold catchUp; split <;> rfl
@[simp] theorem catchUp_directory (d : Stamp) (s : Station) : (catchUp d s).directory = s.directory :=
  by unfold catchUp; split <;> rfl
@[simp] theorem catchUp_announcing (d : Stamp) (s : Station) : (catchUp d s).announcing = s.announcing :=
  by unfold catchUp; split <;> rfl
@[simp] theorem catchUp_circuits (d : Stamp) (s : Station) : (catchUp d s).circuits = s.circuits :=
  by unfold catchUp; split <;> rfl
@[simp] theorem catchUp_line (d : Stamp) (s : Station) : (catchUp d s).line = s.line :=
  by unfold catchUp; split <;> rfl
@[simp] theorem catchUp_draw (d : Stamp) (s : Station) : (catchUp d s).draw = s.draw :=
  by unfold catchUp; split <;> rfl
@[simp] theorem catchUp_bearers (d : Stamp) (s : Station) : (catchUp d s).bearers = s.bearers :=
  by unfold catchUp; split <;> rfl
@[simp] theorem catchUp_audio (d : Stamp) (s : Station) : (catchUp d s).audio = s.audio :=
  by unfold catchUp; split <;> rfl
@[simp] theorem catchUp_panel (d : Stamp) (s : Station) : (catchUp d s).panel = s.panel :=
  by unfold catchUp; split <;> rfl
@[simp] theorem catchUp_call (d : Stamp) (s : Station) : (catchUp d s).call = s.call :=
  by unfold catchUp; split <;> rfl
@[simp] theorem catchUp_reports (d : Stamp) (s : Station) : (catchUp d s).reports = s.reports :=
  by unfold catchUp; split <;> rfl
@[simp] theorem catchUp_cabinet (d : Stamp) (s : Station) : (catchUp d s).cabinet = s.cabinet :=
  by unfold catchUp; split <;> rfl
@[simp] theorem catchUp_free (d : Stamp) (s : Station) : (catchUp d s).free = s.free :=
  by unfold catchUp; split <;> rfl
@[simp] theorem catchUp_out (d : Stamp) (s : Station) : (catchUp d s).out = s.out := by unfold catchUp; split <;> rfl
@[simp] theorem catchUp_work (d : Stamp) (s : Station) : (catchUp d s).work = s.work :=
  by unfold catchUp; split <;> rfl
@[simp] theorem catchUp_keep_config (d : Stamp) (s : Station) : (catchUp d s).keep.config = s.keep.config :=
  by unfold catchUp; split <;> rfl
@[simp] theorem catchUp_keep_tally (d : Stamp) (s : Station) : (catchUp d s).keep.tally = s.keep.tally :=
  by unfold catchUp; split <;> rfl
@[simp] theorem catchUp_keep_lastCall (d : Stamp) (s : Station) : (catchUp d s).keep.lastCall = s.keep.lastCall :=
  by unfold catchUp; split <;> rfl
@[simp] theorem catchUp_keep_lastReport (d : Stamp) (s : Station) :
    (catchUp d s).keep.lastReport = s.keep.lastReport :=
  by unfold catchUp; split <;> rfl
@[simp] theorem catchUp_keep_delivered (d : Stamp) (s : Station) : (catchUp d s).keep.delivered = s.keep.delivered :=
  by unfold catchUp; split <;> rfl
@[simp] theorem catchUp_keep_dropped (d : Stamp) (s : Station) : (catchUp d s).keep.dropped = s.keep.dropped :=
  by unfold catchUp; split <;> rfl
@[simp] theorem catchUp_keep_reference (d : Stamp) (s : Station) : (catchUp d s).keep.reference = s.keep.reference :=
  by unfold catchUp; split <;> rfl
@[simp] theorem catchUp_keep_faults (d : Stamp) (s : Station) : (catchUp d s).keep.faults = s.keep.faults :=
  by unfold catchUp; split <;> rfl

/-! ### `setBearer` -/

@[simp] theorem setBearer_keep (l : Letter) (r : Bearer) (s : Station) : (setBearer l r s).keep = s.keep :=
  by cases l <;> rfl
@[simp] theorem setBearer_power (l : Letter) (r : Bearer) (s : Station) : (setBearer l r s).power = s.power :=
  by cases l <;> rfl
@[simp] theorem setBearer_directory (l : Letter) (r : Bearer) (s : Station) :
    (setBearer l r s).directory = s.directory :=
  by cases l <;> rfl
@[simp] theorem setBearer_announcing (l : Letter) (r : Bearer) (s : Station) :
    (setBearer l r s).announcing = s.announcing :=
  by cases l <;> rfl
@[simp] theorem setBearer_circuits (l : Letter) (r : Bearer) (s : Station) :
    (setBearer l r s).circuits = s.circuits :=
  by cases l <;> rfl
@[simp] theorem setBearer_line (l : Letter) (r : Bearer) (s : Station) : (setBearer l r s).line = s.line :=
  by cases l <;> rfl
@[simp] theorem setBearer_draw (l : Letter) (r : Bearer) (s : Station) : (setBearer l r s).draw = s.draw :=
  by cases l <;> rfl
@[simp] theorem setBearer_audio (l : Letter) (r : Bearer) (s : Station) : (setBearer l r s).audio = s.audio :=
  by cases l <;> rfl
@[simp] theorem setBearer_panel (l : Letter) (r : Bearer) (s : Station) : (setBearer l r s).panel = s.panel :=
  by cases l <;> rfl
@[simp] theorem setBearer_call (l : Letter) (r : Bearer) (s : Station) : (setBearer l r s).call = s.call :=
  by cases l <;> rfl
@[simp] theorem setBearer_reports (l : Letter) (r : Bearer) (s : Station) : (setBearer l r s).reports = s.reports :=
  by cases l <;> rfl
@[simp] theorem setBearer_cabinet (l : Letter) (r : Bearer) (s : Station) : (setBearer l r s).cabinet = s.cabinet :=
  by cases l <;> rfl
@[simp] theorem setBearer_free (l : Letter) (r : Bearer) (s : Station) : (setBearer l r s).free = s.free :=
  by cases l <;> rfl
@[simp] theorem setBearer_out (l : Letter) (r : Bearer) (s : Station) : (setBearer l r s).out = s.out :=
  by cases l <;> rfl
@[simp] theorem setBearer_work (l : Letter) (r : Bearer) (s : Station) : (setBearer l r s).work = s.work :=
  by cases l <;> rfl
@[simp] theorem setBearer_bearers_waiting (l : Letter) (r : Bearer) (s : Station) :
    (setBearer l r s).bearers.waiting = s.bearers.waiting :=
  by cases l <;> rfl

/-! ### `setView` -/

@[simp] theorem setView_keep (c : Circuit) (e : CircuitEntry) (s : Station) : (setView c e s).keep = s.keep := rfl
@[simp] theorem setView_power (c : Circuit) (e : CircuitEntry) (s : Station) : (setView c e s).power = s.power := rfl
@[simp] theorem setView_directory (c : Circuit) (e : CircuitEntry) (s : Station) :
    (setView c e s).directory = s.directory :=
  rfl
@[simp] theorem setView_announcing (c : Circuit) (e : CircuitEntry) (s : Station) :
    (setView c e s).announcing = s.announcing :=
  rfl
@[simp] theorem setView_line (c : Circuit) (e : CircuitEntry) (s : Station) : (setView c e s).line = s.line := rfl
@[simp] theorem setView_draw (c : Circuit) (e : CircuitEntry) (s : Station) : (setView c e s).draw = s.draw := rfl
@[simp] theorem setView_bearers (c : Circuit) (e : CircuitEntry) (s : Station) :
    (setView c e s).bearers = s.bearers :=
  rfl
@[simp] theorem setView_audio (c : Circuit) (e : CircuitEntry) (s : Station) : (setView c e s).audio = s.audio := rfl
@[simp] theorem setView_panel (c : Circuit) (e : CircuitEntry) (s : Station) : (setView c e s).panel = s.panel := rfl
@[simp] theorem setView_call (c : Circuit) (e : CircuitEntry) (s : Station) : (setView c e s).call = s.call := rfl
@[simp] theorem setView_reports (c : Circuit) (e : CircuitEntry) (s : Station) :
    (setView c e s).reports = s.reports :=
  rfl
@[simp] theorem setView_cabinet (c : Circuit) (e : CircuitEntry) (s : Station) :
    (setView c e s).cabinet = s.cabinet :=
  rfl
@[simp] theorem setView_free (c : Circuit) (e : CircuitEntry) (s : Station) : (setView c e s).free = s.free := rfl
@[simp] theorem setView_out (c : Circuit) (e : CircuitEntry) (s : Station) : (setView c e s).out = s.out := rfl
@[simp] theorem setView_work (c : Circuit) (e : CircuitEntry) (s : Station) : (setView c e s).work = s.work := rfl
@[simp] theorem setView_circuits_round (c : Circuit) (e : CircuitEntry) (s : Station) :
    (setView c e s).circuits.round = s.circuits.round :=
  rfl
@[simp] theorem setView_circuits_request (c : Circuit) (e : CircuitEntry) (s : Station) :
    (setView c e s).circuits.request = s.circuits.request :=
  rfl

/-! ### `updOrigin` -/

@[simp] theorem updOrigin_keep (f : Origin → Origin) (s : Station) : (updOrigin f s).keep = s.keep := rfl
@[simp] theorem updOrigin_power (f : Origin → Origin) (s : Station) : (updOrigin f s).power = s.power := rfl
@[simp] theorem updOrigin_directory (f : Origin → Origin) (s : Station) : (updOrigin f s).directory = s.directory :=
  rfl
@[simp] theorem updOrigin_announcing (f : Origin → Origin) (s : Station) :
    (updOrigin f s).announcing = s.announcing :=
  rfl
@[simp] theorem updOrigin_circuits (f : Origin → Origin) (s : Station) : (updOrigin f s).circuits = s.circuits := rfl
@[simp] theorem updOrigin_line (f : Origin → Origin) (s : Station) : (updOrigin f s).line = s.line := rfl
@[simp] theorem updOrigin_draw (f : Origin → Origin) (s : Station) : (updOrigin f s).draw = s.draw := rfl
@[simp] theorem updOrigin_bearers (f : Origin → Origin) (s : Station) : (updOrigin f s).bearers = s.bearers := rfl
@[simp] theorem updOrigin_audio (f : Origin → Origin) (s : Station) : (updOrigin f s).audio = s.audio := rfl
@[simp] theorem updOrigin_panel (f : Origin → Origin) (s : Station) : (updOrigin f s).panel = s.panel := rfl
@[simp] theorem updOrigin_reports (f : Origin → Origin) (s : Station) : (updOrigin f s).reports = s.reports := rfl
@[simp] theorem updOrigin_cabinet (f : Origin → Origin) (s : Station) : (updOrigin f s).cabinet = s.cabinet := rfl
@[simp] theorem updOrigin_free (f : Origin → Origin) (s : Station) : (updOrigin f s).free = s.free := rfl
@[simp] theorem updOrigin_out (f : Origin → Origin) (s : Station) : (updOrigin f s).out = s.out := rfl
@[simp] theorem updOrigin_work (f : Origin → Origin) (s : Station) : (updOrigin f s).work = s.work := rfl
@[simp] theorem updOrigin_call_carriers (f : Origin → Origin) (s : Station) :
    (updOrigin f s).call.carriers = s.call.carriers :=
  rfl

/-! ### `updCarrier` -/

@[simp] theorem updCarrier_keep (t : Tag) (f : Carrier → Carrier) (s : Station) : (updCarrier t f s).keep = s.keep :=
  rfl
@[simp] theorem updCarrier_power (t : Tag) (f : Carrier → Carrier) (s : Station) :
    (updCarrier t f s).power = s.power :=
  rfl
@[simp] theorem updCarrier_directory (t : Tag) (f : Carrier → Carrier) (s : Station) :
    (updCarrier t f s).directory = s.directory :=
  rfl
@[simp] theorem updCarrier_announcing (t : Tag) (f : Carrier → Carrier) (s : Station) :
    (updCarrier t f s).announcing = s.announcing :=
  rfl
@[simp] theorem updCarrier_circuits (t : Tag) (f : Carrier → Carrier) (s : Station) :
    (updCarrier t f s).circuits = s.circuits :=
  rfl
@[simp] theorem updCarrier_line (t : Tag) (f : Carrier → Carrier) (s : Station) : (updCarrier t f s).line = s.line :=
  rfl
@[simp] theorem updCarrier_draw (t : Tag) (f : Carrier → Carrier) (s : Station) : (updCarrier t f s).draw = s.draw :=
  rfl
@[simp] theorem updCarrier_bearers (t : Tag) (f : Carrier → Carrier) (s : Station) :
    (updCarrier t f s).bearers = s.bearers :=
  rfl
@[simp] theorem updCarrier_audio (t : Tag) (f : Carrier → Carrier) (s : Station) :
    (updCarrier t f s).audio = s.audio :=
  rfl
@[simp] theorem updCarrier_panel (t : Tag) (f : Carrier → Carrier) (s : Station) :
    (updCarrier t f s).panel = s.panel :=
  rfl
@[simp] theorem updCarrier_reports (t : Tag) (f : Carrier → Carrier) (s : Station) :
    (updCarrier t f s).reports = s.reports :=
  rfl
@[simp] theorem updCarrier_cabinet (t : Tag) (f : Carrier → Carrier) (s : Station) :
    (updCarrier t f s).cabinet = s.cabinet :=
  rfl
@[simp] theorem updCarrier_free (t : Tag) (f : Carrier → Carrier) (s : Station) : (updCarrier t f s).free = s.free :=
  rfl
@[simp] theorem updCarrier_out (t : Tag) (f : Carrier → Carrier) (s : Station) : (updCarrier t f s).out = s.out := rfl
@[simp] theorem updCarrier_work (t : Tag) (f : Carrier → Carrier) (s : Station) : (updCarrier t f s).work = s.work :=
  rfl
@[simp] theorem updCarrier_call_origin (t : Tag) (f : Carrier → Carrier) (s : Station) :
    (updCarrier t f s).call.origin = s.call.origin :=
  rfl

/-! ### `updReport` -/

@[simp] theorem updReport_keep (t : Tag) (f : ReportEntry → ReportEntry) (s : Station) :
    (updReport t f s).keep = s.keep :=
  rfl
@[simp] theorem updReport_power (t : Tag) (f : ReportEntry → ReportEntry) (s : Station) :
    (updReport t f s).power = s.power :=
  rfl
@[simp] theorem updReport_directory (t : Tag) (f : ReportEntry → ReportEntry) (s : Station) :
    (updReport t f s).directory = s.directory :=
  rfl
@[simp] theorem updReport_announcing (t : Tag) (f : ReportEntry → ReportEntry) (s : Station) :
    (updReport t f s).announcing = s.announcing :=
  rfl
@[simp] theorem updReport_circuits (t : Tag) (f : ReportEntry → ReportEntry) (s : Station) :
    (updReport t f s).circuits = s.circuits :=
  rfl
@[simp] theorem updReport_line (t : Tag) (f : ReportEntry → ReportEntry) (s : Station) :
    (updReport t f s).line = s.line :=
  rfl
@[simp] theorem updReport_draw (t : Tag) (f : ReportEntry → ReportEntry) (s : Station) :
    (updReport t f s).draw = s.draw :=
  rfl
@[simp] theorem updReport_bearers (t : Tag) (f : ReportEntry → ReportEntry) (s : Station) :
    (updReport t f s).bearers = s.bearers :=
  rfl
@[simp] theorem updReport_audio (t : Tag) (f : ReportEntry → ReportEntry) (s : Station) :
    (updReport t f s).audio = s.audio :=
  rfl
@[simp] theorem updReport_panel (t : Tag) (f : ReportEntry → ReportEntry) (s : Station) :
    (updReport t f s).panel = s.panel :=
  rfl
@[simp] theorem updReport_call (t : Tag) (f : ReportEntry → ReportEntry) (s : Station) :
    (updReport t f s).call = s.call :=
  rfl
@[simp] theorem updReport_cabinet (t : Tag) (f : ReportEntry → ReportEntry) (s : Station) :
    (updReport t f s).cabinet = s.cabinet :=
  rfl
@[simp] theorem updReport_free (t : Tag) (f : ReportEntry → ReportEntry) (s : Station) :
    (updReport t f s).free = s.free :=
  rfl
@[simp] theorem updReport_out (t : Tag) (f : ReportEntry → ReportEntry) (s : Station) :
    (updReport t f s).out = s.out :=
  rfl
@[simp] theorem updReport_work (t : Tag) (f : ReportEntry → ReportEntry) (s : Station) :
    (updReport t f s).work = s.work :=
  rfl
@[simp] theorem updReport_reports_relay (t : Tag) (f : ReportEntry → ReportEntry) (s : Station) :
    (updReport t f s).reports.relay = s.reports.relay :=
  rfl
@[simp] theorem updReport_reports_stall (t : Tag) (f : ReportEntry → ReportEntry) (s : Station) :
    (updReport t f s).reports.stall = s.reports.stall :=
  rfl

/-! ### `updRelay` -/

@[simp] theorem updRelay_keep (t : Tag) (f : RelayEntry → RelayEntry) (s : Station) :
    (updRelay t f s).keep = s.keep :=
  rfl
@[simp] theorem updRelay_power (t : Tag) (f : RelayEntry → RelayEntry) (s : Station) :
    (updRelay t f s).power = s.power :=
  rfl
@[simp] theorem updRelay_directory (t : Tag) (f : RelayEntry → RelayEntry) (s : Station) :
    (updRelay t f s).directory = s.directory :=
  rfl
@[simp] theorem updRelay_announcing (t : Tag) (f : RelayEntry → RelayEntry) (s : Station) :
    (updRelay t f s).announcing = s.announcing :=
  rfl
@[simp] theorem updRelay_circuits (t : Tag) (f : RelayEntry → RelayEntry) (s : Station) :
    (updRelay t f s).circuits = s.circuits :=
  rfl
@[simp] theorem updRelay_line (t : Tag) (f : RelayEntry → RelayEntry) (s : Station) :
    (updRelay t f s).line = s.line :=
  rfl
@[simp] theorem updRelay_draw (t : Tag) (f : RelayEntry → RelayEntry) (s : Station) :
    (updRelay t f s).draw = s.draw :=
  rfl
@[simp] theorem updRelay_bearers (t : Tag) (f : RelayEntry → RelayEntry) (s : Station) :
    (updRelay t f s).bearers = s.bearers :=
  rfl
@[simp] theorem updRelay_audio (t : Tag) (f : RelayEntry → RelayEntry) (s : Station) :
    (updRelay t f s).audio = s.audio :=
  rfl
@[simp] theorem updRelay_panel (t : Tag) (f : RelayEntry → RelayEntry) (s : Station) :
    (updRelay t f s).panel = s.panel :=
  rfl
@[simp] theorem updRelay_call (t : Tag) (f : RelayEntry → RelayEntry) (s : Station) :
    (updRelay t f s).call = s.call :=
  rfl
@[simp] theorem updRelay_cabinet (t : Tag) (f : RelayEntry → RelayEntry) (s : Station) :
    (updRelay t f s).cabinet = s.cabinet :=
  rfl
@[simp] theorem updRelay_free (t : Tag) (f : RelayEntry → RelayEntry) (s : Station) :
    (updRelay t f s).free = s.free :=
  rfl
@[simp] theorem updRelay_out (t : Tag) (f : RelayEntry → RelayEntry) (s : Station) : (updRelay t f s).out = s.out :=
  rfl
@[simp] theorem updRelay_work (t : Tag) (f : RelayEntry → RelayEntry) (s : Station) :
    (updRelay t f s).work = s.work :=
  rfl
@[simp] theorem updRelay_reports_queue (t : Tag) (f : RelayEntry → RelayEntry) (s : Station) :
    (updRelay t f s).reports.queue = s.reports.queue :=
  rfl
@[simp] theorem updRelay_reports_stall (t : Tag) (f : RelayEntry → RelayEntry) (s : Station) :
    (updRelay t f s).reports.stall = s.reports.stall :=
  rfl

/-! ### `withdrawDraw` -/

@[simp] theorem withdrawDraw_keep (c : Consumer) (s : Station) : (withdrawDraw c s).keep = s.keep := rfl
@[simp] theorem withdrawDraw_power (c : Consumer) (s : Station) : (withdrawDraw c s).power = s.power := rfl
@[simp] theorem withdrawDraw_directory (c : Consumer) (s : Station) : (withdrawDraw c s).directory = s.directory :=
  rfl
@[simp] theorem withdrawDraw_announcing (c : Consumer) (s : Station) : (withdrawDraw c s).announcing = s.announcing :=
  rfl
@[simp] theorem withdrawDraw_circuits (c : Consumer) (s : Station) : (withdrawDraw c s).circuits = s.circuits := rfl
@[simp] theorem withdrawDraw_line (c : Consumer) (s : Station) : (withdrawDraw c s).line = s.line := rfl
@[simp] theorem withdrawDraw_bearers (c : Consumer) (s : Station) : (withdrawDraw c s).bearers = s.bearers := rfl
@[simp] theorem withdrawDraw_audio (c : Consumer) (s : Station) : (withdrawDraw c s).audio = s.audio := rfl
@[simp] theorem withdrawDraw_panel (c : Consumer) (s : Station) : (withdrawDraw c s).panel = s.panel := rfl
@[simp] theorem withdrawDraw_call (c : Consumer) (s : Station) : (withdrawDraw c s).call = s.call := rfl
@[simp] theorem withdrawDraw_reports (c : Consumer) (s : Station) : (withdrawDraw c s).reports = s.reports := rfl
@[simp] theorem withdrawDraw_cabinet (c : Consumer) (s : Station) : (withdrawDraw c s).cabinet = s.cabinet := rfl
@[simp] theorem withdrawDraw_free (c : Consumer) (s : Station) : (withdrawDraw c s).free = s.free := rfl
@[simp] theorem withdrawDraw_out (c : Consumer) (s : Station) : (withdrawDraw c s).out = s.out := rfl
@[simp] theorem withdrawDraw_work (c : Consumer) (s : Station) : (withdrawDraw c s).work = s.work := rfl
@[simp] theorem withdrawDraw_draw_mode (c : Consumer) (s : Station) : (withdrawDraw c s).draw.mode = s.draw.mode :=
  rfl
@[simp] theorem withdrawDraw_draw_pool (c : Consumer) (s : Station) : (withdrawDraw c s).draw.pool = s.draw.pool :=
  rfl
@[simp] theorem withdrawDraw_draw_fallback (c : Consumer) (s : Station) :
    (withdrawDraw c s).draw.fallback = s.draw.fallback :=
  rfl
@[simp] theorem withdrawDraw_draw_lastBit (c : Consumer) (s : Station) :
    (withdrawDraw c s).draw.lastBit = s.draw.lastBit :=
  rfl
@[simp] theorem withdrawDraw_draw_windowBits (c : Consumer) (s : Station) :
    (withdrawDraw c s).draw.windowBits = s.draw.windowBits :=
  rfl
@[simp] theorem withdrawDraw_draw_runLength (c : Consumer) (s : Station) :
    (withdrawDraw c s).draw.runLength = s.draw.runLength :=
  rfl
@[simp] theorem withdrawDraw_draw_ones (c : Consumer) (s : Station) : (withdrawDraw c s).draw.ones = s.draw.ones :=
  rfl
@[simp] theorem withdrawDraw_draw_windowFailed (c : Consumer) (s : Station) :
    (withdrawDraw c s).draw.windowFailed = s.draw.windowFailed :=
  rfl
@[simp] theorem withdrawDraw_draw_group (c : Consumer) (s : Station) : (withdrawDraw c s).draw.group = s.draw.group :=
  rfl

/-! ### What the updates write -/

@[simp] theorem freshOut_out (s : Station) : (freshOut s).out = [] := rfl
@[simp] theorem freshOut_work (s : Station) : (freshOut s).work = [] := rfl
@[simp] theorem freshOut_running (s : Station) : (freshOut s).running = s.running := rfl
@[simp] theorem emit_out (o : Output) (s : Station) : (emit o s).out = s.out ++ [o] := rfl
@[simp] theorem post_work (t : Task) (s : Station) : (post t s).work = s.work ++ [t] := rfl
@[simp] theorem postFirst_work (t : Task) (s : Station) : (postFirst t s).work = t :: s.work := rfl
@[simp] theorem raise_faults (k : FaultKind) (s : Station) :
    (raise k s).keep.faults = s.keep.faults.raised k s.keep.clock := rfl
@[simp] theorem updOrigin_origin (f : Origin → Origin) (s : Station) :
    (updOrigin f s).call.origin = s.call.origin.map f := rfl

@[simp] theorem setBearer_bearer_same (l : Letter) (r : Bearer) (s : Station) : (setBearer l r s).bearer l = r := by
  cases l <;> rfl

theorem setBearer_bearer_other {l m : Letter} (h : m ≠ l) (r : Bearer) (s : Station) :
    (setBearer l r s).bearer m = s.bearer m := by
  cases l <;> cases m <;> first | rfl | exact absurd rfl h

theorem get_eq_getElem {α : Type} {n : Nat} (v : Vector α n) (i : Fin n) : v.get i = v[i.val] := rfl

@[simp] theorem setView_entry_same (c : Circuit) (e : CircuitEntry) (s : Station) : (setView c e s).entry c = e := by
  simp [setView, Station.entry, get_eq_getElem]

theorem setView_entry_other {c d : Circuit} (h : d ≠ c) (e : CircuitEntry) (s : Station) :
    (setView c e s).entry d = s.entry d := by
  have : c.val ≠ d.val := fun h' => h (Fin.ext h'.symm)
  simp [setView, Station.entry, get_eq_getElem, this]

end Sys2Proof.Machine
end

