-- ==== Sys2Proof/Laws/Kept.lean ====
section
/-! SUPPORT. What the notices between blocks leave as it was: the view `Station.kept`, with one lemma for each
operation a notice can call. -/

namespace Sys2Proof.Machine

/-! ### Small updates -/

@[simp] theorem kept_announcing (s : Station) (x : Announcing) : Station.kept { s with announcing := x } = s.kept := rfl
@[simp] theorem kept_circuits (s : Station) (x : Circuits) : Station.kept { s with circuits := x } = s.kept := rfl
@[simp] theorem kept_audio (s : Station) (x : List Bridge) : Station.kept { s with audio := x } = s.kept := rfl
@[simp] theorem kept_call (s : Station) (x : Call) : Station.kept { s with call := x } = s.kept := rfl
@[simp] theorem kept_reports (s : Station) (x : Reports) : Station.kept { s with reports := x } = s.kept := rfl
@[simp] theorem kept_free (s : Station) (x : Nat) : Station.kept { s with free := x } = s.kept := rfl
@[simp] theorem kept_out (s : Station) (x : List Output) : Station.kept { s with out := x } = s.kept := rfl
@[simp] theorem kept_work (s : Station) (x : List Task) : Station.kept { s with work := x } = s.kept := rfl

@[simp] theorem emit_kept (o : Output) (s : Station) : (emit o s).kept = s.kept := rfl
@[simp] theorem post_kept (t : Task) (s : Station) : (post t s).kept = s.kept := rfl
@[simp] theorem postFirst_kept (t : Task) (s : Station) : (postFirst t s).kept = s.kept := rfl
@[simp] theorem setView_kept (c : Circuit) (e : CircuitEntry) (s : Station) : (setView c e s).kept = s.kept := rfl
@[simp] theorem updOrigin_kept (f : Origin → Origin) (s : Station) : (updOrigin f s).kept = s.kept := rfl
@[simp] theorem updCarrier_kept (t : Tag) (f : Carrier → Carrier) (s : Station) :
    (updCarrier t f s).kept = s.kept := rfl
@[simp] theorem updReport_kept (t : Tag) (f : ReportEntry → ReportEntry) (s : Station) :
    (updReport t f s).kept = s.kept := rfl
@[simp] theorem updRelay_kept (t : Tag) (f : RelayEntry → RelayEntry) (s : Station) :
    (updRelay t f s).kept = s.kept := rfl
@[simp] theorem withdrawDraw_kept (c : Consumer) (s : Station) : (withdrawDraw c s).kept = s.kept := rfl
@[simp] theorem withdrawClaim_kept (w : Claimant) (s : Station) : (withdrawClaim w s).kept = s.kept := rfl
@[simp] theorem removeBridges_kept (o : Owner) (s : Station) : (removeBridges o s).kept = s.kept := rfl
@[simp] theorem removeBearerBridges_kept (l : Letter) (s : Station) : (removeBearerBridges l s).kept = s.kept := rfl
@[simp] theorem dropCircuitBridge_kept (c : Circuit) (s : Station) : (dropCircuitBridge c s).kept = s.kept := rfl
@[simp] theorem mapAnnounce_kept (f : TxBody → TxBody) (s : Station) : (mapAnnounce f s).kept = s.kept := rfl
@[simp] theorem leaveService_kept (s : Station) : (leaveService s).kept = s.kept := rfl

/-- A fault leaves the counter of every other kind (R179). -/
theorem raised_counter_other {k j : FaultKind} (h : j ≠ k) (now : Stamp) (f : Faults) :
    (f.raised k now).counter j = f.counter j := by
  have hi : k.index.val ≠ j.index.val := by
    cases k <;> cases j <;> first | exact absurd rfl h | decide
  simp [Faults.raised, Faults.counter, get_eq_getElem, hi]

theorem raised_counter_same (k : FaultKind) (now : Stamp) (f : Faults) :
    (f.raised k now).counter k = min 255 (f.counter k + 1) := by
  simp [Faults.raised, Faults.counter, get_eq_getElem]

/-- A fault that a notice may raise. -/
theorem raise_kept {k : FaultKind} (hk : k ∉ lastingKinds) (hc : k.faultClass ≠ .fatal) (s : Station) :
    (raise k s).kept = s.kept := by
  have h : (s.keep.faults.raised k s.keep.clock).lastingCounters = s.keep.faults.lastingCounters :=
    List.map_congr_left fun j hj => raised_counter_other (by rintro rfl; exact hk hj) _ _
  have hf : (s.keep.faults.raised k s.keep.clock).flags.fatal = s.keep.faults.flags.fatal := by
    revert hc; cases k <;> simp [Faults.raised, FaultKind.faultClass, ClassSet.add]
  simp [Station.kept, h, hf]

@[simp] theorem raise_lineCongestion_kept (s : Station) : (raise .lineCongestion s).kept = s.kept :=
  raise_kept (by decide) (by decide) s
@[simp] theorem raise_reportDropped_kept (s : Station) : (raise .reportDropped s).kept = s.kept :=
  raise_kept (by decide) (by decide) s
@[simp] theorem raise_reportUndelivered_kept (s : Station) : (raise .reportUndelivered s).kept = s.kept :=
  raise_kept (by decide) (by decide) s

@[simp] theorem countDropped_kept (s : Station) : (countDropped s).kept = s.kept := by
  unfold countDropped countUp; dsimp only; split <;> rfl
@[simp] theorem countDelivered_kept (s : Station) : (countDelivered s).kept = s.kept := by
  unfold countDelivered countUp; dsimp only; split <;> rfl
@[simp] theorem tallyLent_kept (s : Station) : (tallyLent s).kept = s.kept := by
  unfold tallyLent countUp; dsimp only; repeat' split
  all_goals rfl
@[simp] theorem tallyUp_placed_kept (s : Station) : (tallyUp (fun t => { t with placed := t.placed + 1#32 }) s).kept = s.kept := by
  unfold tallyUp; split <;> rfl
@[simp] theorem tallyUp_connected_kept (s : Station) :
    (tallyUp (fun t => { t with connected := t.connected + 1#32 }) s).kept = s.kept := by
  unfold tallyUp; split <;> rfl

end Sys2Proof.Machine
end

