-- ==== Sys2Proof/Laws/KeptLine.lean ====
section
/-! SUPPORT. The line interface, the announcing, the circuit unit and the audio switch leave `kept` as it was. -/

namespace Sys2Proof.Machine

/-! ### The line interface -/

@[simp] theorem reportDrop_kept (b : TxBody) (s : Station) : (reportDrop b s).kept = s.kept := by
  unfold reportDrop; cases b <;> simp

@[simp] theorem displace_kept (s : Station) : (displace s).kept = s.kept := by
  unfold displace; split
  · split <;> rfl
  · rfl

@[simp] theorem addFrame_kept (f : TxFrame) (s : Station) : (addFrame f s).kept = s.kept := by
  have h : ∀ t : Station, Station.kept { t with line.queue := addToClass f t.line.queue } = t.kept := fun _ => rfl
  unfold addFrame; dsimp only; rw [h]; split <;> simp

theorem takeRoutine_kept {s t : Station} {g : TxFrame} (h : takeRoutine s = some (g, t)) : t.kept = s.kept := by
  revert h; unfold takeRoutine; dsimp only
  repeat' split
  all_goals (intro h; simp at h; try (obtain ⟨_, rfl⟩ := h; rfl))

@[simp] theorem handOver_kept (b : TxBody) (d : Nat) (s : Station) : (handOver b d s).kept = s.kept := by
  unfold handOver; dsimp only
  split; · rfl
  split; · simp
  split
  · split
    · rename_i h; simp [takeRoutine_kept h]
    · simp
  · simp

@[simp] theorem removeUnbegun_kept (p : TxBody → Bool) (s : Station) : (removeUnbegun p s).kept = s.kept := by
  unfold removeUnbegun; dsimp only
  split
  · split <;> rfl
  · rfl

/-! ### Draws -/

theorem requestDraw_kept (c : Consumer) (s : Station) : (requestDraw c s).2.kept = s.kept := by
  unfold requestDraw; repeat' split
  all_goals rfl

/-! ### The announcing -/

@[simp] theorem mergeAnnounce_kept (b c : Bool) (s : Station) : (mergeAnnounce b c s).kept = s.kept := by
  unfold mergeAnnounce; split
  · dsimp only; split <;> simp
  · simp

@[simp] theorem announceCause_kept (b : Bool) (s : Station) : (announceCause b s).kept = s.kept := by
  unfold announceCause; split
  · split <;> simp
  · rfl

theorem notingLendReady_kept {op : Station → Station} {s : Station} (h : (op s).kept = s.kept) :
    (notingLendReady op s).kept = s.kept := by
  unfold notingLendReady; dsimp only; split <;> simp [h]

@[simp] theorem startPeriod_kept (s : Station) : (startPeriod s).kept = s.kept := by
  unfold startPeriod; split <;> rfl

@[simp] theorem announceWasDropped_kept (b : Bool) (s : Station) : (announceWasDropped b s).kept = s.kept := by
  unfold announceWasDropped; dsimp only
  generalize hu : startPeriod _ = u
  have hk : u.kept = s.kept := by rw [← hu]; simp
  split
  · rename_i h
    have hp : u.power.progress = .announcing := by simp at h; exact h.2
    have hz : Station.kept { u with power.progress := Progress.none, announcing.heldBack := none } = u.kept := by
      simp [Station.kept, hp] <;> decide
    split <;> simp [hz, hk]
  · exact hk

/-! ### The circuit unit -/

@[simp] theorem setEntry_kept (c : Circuit) (e : CircuitEntry) (s : Station) : (setEntry c e s).kept = s.kept := by
  unfold setEntry; dsimp only; split <;> simp

@[simp] theorem claimDraw_kept (d : Nat) (s : Station) : (claimDraw d s).kept = s.kept := by
  unfold claimDraw; split
  · split <;> simp
  · rfl

theorem beginAttempt_kept {r : Round} {s t : Station} (h : beginAttempt r s = some t) : t.kept = s.kept := by
  revert h; unfold beginAttempt; split
  · simp
  · dsimp only
    split <;> rename_i heq <;> have hk := congrArg (fun p => p.2.kept) heq <;>
      simp only [requestDraw_kept, kept_circuits] at hk <;> (intro h; simp at h; subst h; simp [hk])

@[simp] theorem openRound_kept (t : Tag) (s : Station) : (openRound t s).kept = s.kept := by
  unfold openRound; dsimp only; split
  · rename_i h; exact beginAttempt_kept h
  · simp

@[simp] theorem takeHeldRequest_kept (s : Station) : (takeHeldRequest s).kept = s.kept := by
  unfold takeHeldRequest; split <;> simp

@[simp] theorem endRound_kept (r : Round) (e : RoundFailure) (s : Station) : (endRound r e s).kept = s.kept := by
  unfold endRound; dsimp only; split <;> simp

@[simp] theorem continueRound_kept (r : Round) (s : Station) : (continueRound r s).kept = s.kept := by
  unfold continueRound; split
  · rename_i h; exact beginAttempt_kept h
  · simp

@[simp] theorem attemptLost_kept (s : Station) : (attemptLost s).kept = s.kept := by
  unfold attemptLost; split
  · dsimp only; split <;> simp
  · rfl

@[simp] theorem requestCircuit_kept (t : Tag) (s : Station) : (requestCircuit t s).kept = s.kept := by
  unfold requestCircuit; repeat' split
  all_goals simp

@[simp] theorem withdrawAttempt_kept (s : Station) : (withdrawAttempt s).kept = s.kept := by
  simp [withdrawAttempt]

@[simp] theorem countChanged_kept (s : Station) : (countChanged s).kept = s.kept := by
  unfold countChanged; split
  · split <;> simp
  · rfl

@[simp] theorem abandonRound_kept (r : ClearReason) (d : Nat) (s : Station) : (abandonRound r d s).kept = s.kept := by
  unfold abandonRound; split
  · simp
  · split <;> simp
  · rfl

@[simp] theorem releaseHeld_kept (c : Circuit) (r : ClearReason) (d : Nat) (s : Station) :
    (releaseHeld c r d s).kept = s.kept := by
  unfold releaseHeld; split <;> simp

@[simp] theorem releaseCircuit_kept (r : ClearReason) (d : Nat) (s : Station) :
    (releaseCircuit r d s).kept = s.kept := by
  unfold releaseCircuit; split <;> simp

@[simp] theorem yieldCircuit_kept (c : Circuit) (t : Tag) (e : CircuitEntry) (s : Station) :
    (yieldCircuit c t e s).kept = s.kept := by
  simp [yieldCircuit]

@[simp] theorem attemptWon_kept (s : Station) : (attemptWon s).kept = s.kept := by
  unfold attemptWon; split
  · dsimp only; split <;> simp
  · rfl

@[simp] theorem joinContest_kept (c : Circuit) (k : Claim) (s : Station) : (joinContest c k s).kept = s.kept := by
  unfold joinContest; repeat' split
  all_goals simp

@[simp] theorem joinOwnClaim_kept (r : Round) (d : Nat) (s : Station) : (joinOwnClaim r d s).kept = s.kept := by
  unfold joinOwnClaim; split <;> simp

@[simp] theorem ownClaimTaken_kept (b : TxBody) (s : Station) : (ownClaimTaken b s).kept = s.kept := by
  unfold ownClaimTaken; repeat' split
  all_goals simp

@[simp] theorem ownClaimDropped_kept (b : TxBody) (s : Station) : (ownClaimDropped b s).kept = s.kept := by
  unfold ownClaimDropped; repeat' split
  all_goals simp

/-- No frame but the CLAIM of the attempt in progress is taken into the view by its completion (R28). -/
theorem ownClaimTaken_other {b : TxBody} {s : Station} (h : ∀ r, s.circuits.round = some r → r.claimFrame ≠ some b) :
    ownClaimTaken b s = s := by
  unfold ownClaimTaken; split
  · rename_i r hr; split <;> simp [h r hr]
  · rfl

/-- No frame but the CLAIM of the attempt in progress loses it by its drop (R27, R154). -/
theorem ownClaimDropped_other {b : TxBody} {s : Station} (h : ∀ r, s.circuits.round = some r → r.claimFrame ≠ some b) :
    ownClaimDropped b s = s := by
  unfold ownClaimDropped; split
  · rename_i r hr; simp [h r hr]
  · rfl

@[simp] theorem closeContest_kept (c : Circuit) (s : Station) : (closeContest c s).kept = s.kept := by
  unfold closeContest; split
  · dsimp only; repeat' split
    all_goals simp
  · rfl

@[simp] theorem reassert_kept (s : Station) : (reassert s).kept = s.kept := by
  unfold reassert; repeat' split
  all_goals simp

@[simp] theorem takeClaim_kept (a n : Nat) (t : Tag) (d : Nat) (s : Station) : (takeClaim a n t d s).kept = s.kept := by
  unfold takeClaim; repeat' split
  all_goals simp

@[simp] theorem adoptHolding_kept (c : Circuit) (e : CircuitEntry) (s : Station) :
    (adoptHolding c e s).kept = s.kept := by
  unfold adoptHolding; dsimp only; split <;> simp

@[simp] theorem takeHolding_kept (a n : Nat) (t : Tag) (g : Nat) (s : Station) :
    (takeHolding a n t g s).kept = s.kept := by
  unfold takeHolding; dsimp only; repeat' split
  all_goals simp

@[simp] theorem takeClearIntoView_kept (a n : Nat) (t : Tag) (s : Station) :
    (takeClearIntoView a n t s).kept = s.kept := by
  unfold takeClearIntoView; repeat' split
  all_goals simp

@[simp] theorem recordLending_kept (c : Circuit) (a : Nat) (t : Tag) (s : Station) :
    (recordLending c a t s).kept = s.kept := by
  unfold recordLending; split <;> simp

/-! ### The audio switch and the panel's selections -/

theorem addBridge_kept {r : Bridge} {s t : Station} (h : addBridge r s = .ok t) : t.kept = s.kept := by
  revert h; unfold addBridge; dsimp only
  repeat' split
  all_goals (intro h; simp at h; try (subst h; rfl))

@[simp] theorem tryBridge_kept (r : Bridge) (s : Station) : (tryBridge r s).kept = s.kept := by
  unfold tryBridge; split
  · rename_i h; exact addBridge_kept h
  · rfl

@[simp] theorem endFailed_kept (s : Station) : (endFailed s).kept = s.kept := by
  unfold endFailed; split <;> rfl

@[simp] theorem showNotice_kept (t : Tone) (l : Lamp) (s : Station) : (showNotice t l s).kept = s.kept := by
  have h : ∀ u : Station, Station.kept { u with panel := { u.panel with tone := t, lamp := l } } = u.kept :=
    fun _ => rfl
  unfold showNotice; dsimp only; rw [h]; simp

@[simp] theorem showConnecting_kept (s : Station) : (showConnecting s).kept = s.kept := showNotice_kept _ _ s
@[simp] theorem showRingback_kept (s : Station) : (showRingback s).kept = s.kept := showNotice_kept _ _ s
@[simp] theorem showConnected_kept (s : Station) : (showConnected s).kept = s.kept := showNotice_kept _ _ s
@[simp] theorem showRecovering_kept (s : Station) : (showRecovering s).kept = s.kept := showNotice_kept _ _ s
@[simp] theorem showEnded_kept (s : Station) : (showEnded s).kept = s.kept := showNotice_kept _ _ s
@[simp] theorem showFailed_kept (e : End) (s : Station) : (showFailed e s).kept = s.kept := by
  unfold showFailed; dsimp only; rw [tryBridge_kept]; rfl

end Sys2Proof.Machine
end

