-- ==== Sys2Proof/Laws/LineFrame.lean ====
section
/-! SUPPORT. What handing frames over and announcing leave as it was (`Station.core`): everything but the transmit side, the
announcing, the draws, the standby progress and the faults. -/

namespace Sys2Proof.Machine

@[simp] theorem core_announcing (s : Station) (x : Announcing) : Station.core { s with announcing := x } = s.core := rfl
@[simp] theorem core_line (s : Station) (x : Line) : Station.core { s with line := x } = s.core := rfl
@[simp] theorem core_draw (s : Station) (x : DrawSource) : Station.core { s with draw := x } = s.core := rfl
@[simp] theorem core_out (s : Station) (x : List Output) : Station.core { s with out := x } = s.core := rfl
@[simp] theorem core_work (s : Station) (x : List Task) : Station.core { s with work := x } = s.core := rfl
@[simp] theorem core_progress (s : Station) (x : Progress) :
    Station.core { s with power.progress := x } = s.core := rfl
@[simp] theorem emit_core (o : Output) (s : Station) : (emit o s).core = s.core := rfl
@[simp] theorem post_core (t : Task) (s : Station) : (post t s).core = s.core := rfl
@[simp] theorem postFirst_core (t : Task) (s : Station) : (postFirst t s).core = s.core := rfl
@[simp] theorem raise_core (k : FaultKind) (s : Station) : (raise k s).core = s.core := rfl
@[simp] theorem withdrawDraw_core (c : Consumer) (s : Station) : (withdrawDraw c s).core = s.core := rfl
@[simp] theorem leaveService_core (s : Station) : (leaveService s).core = s.core := rfl
@[simp] theorem mapAnnounce_core (f : TxBody → TxBody) (s : Station) : (mapAnnounce f s).core = s.core := rfl
@[simp] theorem freshOut_core (s : Station) : (freshOut s).core = s.core := rfl

/-! ### The line interface -/

@[simp] theorem reportDrop_core (b : TxBody) (s : Station) : (reportDrop b s).core = s.core := by
  unfold reportDrop; cases b <;> simp

@[simp] theorem displace_core (s : Station) : (displace s).core = s.core := by
  unfold displace; split
  · split <;> rfl
  · rfl

@[simp] theorem addFrame_core (f : TxFrame) (s : Station) : (addFrame f s).core = s.core := by
  have h : ∀ t : Station, Station.core { t with line.queue := addToClass f t.line.queue } = t.core := fun _ => rfl
  unfold addFrame; dsimp only; rw [h]; split <;> simp

theorem takeRoutine_core {s t : Station} {g : TxFrame} (h : takeRoutine s = some (g, t)) : t.core = s.core := by
  revert h; unfold takeRoutine; dsimp only
  repeat' split
  all_goals (intro h; simp at h; try (obtain ⟨_, rfl⟩ := h; rfl))

@[simp] theorem handOver_core (b : TxBody) (d : Nat) (s : Station) : (handOver b d s).core = s.core := by
  unfold handOver; dsimp only
  split; · rfl
  split; · simp
  split
  · split
    · rename_i h; simp [takeRoutine_core h]
    · simp
  · simp

@[simp] theorem removeUnbegun_core (p : TxBody → Bool) (s : Station) : (removeUnbegun p s).core = s.core := by
  unfold removeUnbegun; dsimp only
  split
  · split <;> rfl
  · rfl

theorem requestDraw_core (c : Consumer) (s : Station) : (requestDraw c s).2.core = s.core := by
  unfold requestDraw; repeat' split
  all_goals rfl

@[simp] theorem lineDraw_core (d : Nat) (s : Station) : (lineDraw d s).core = s.core := by
  unfold lineDraw; split <;> rfl

@[simp] theorem requestLineDraw_core (s : Station) : (requestLineDraw s).core = s.core := by
  unfold requestLineDraw; split <;> rename_i h <;> have hk := congrArg (fun p => p.2.core) h <;>
    simp only [requestDraw_core] at hk <;> simp [hk]

@[simp] theorem enterService_core (f : TxFrame) (s : Station) : (enterService f s).core = s.core := by
  simp [enterService]

@[simp] theorem tryAttempt_core (s : Station) : (tryAttempt s).core = s.core := by
  unfold tryAttempt; repeat' split
  all_goals rfl

@[simp] theorem pump_core (s : Station) : (pump s).core = s.core := by
  unfold pump; split <;> simp

/-! ### The announcing -/

@[simp] theorem mergeAnnounce_core (b c : Bool) (s : Station) : (mergeAnnounce b c s).core = s.core := by
  unfold mergeAnnounce; split
  · dsimp only; split <;> simp
  · simp

@[simp] theorem announceCause_core (b : Bool) (s : Station) : (announceCause b s).core = s.core := by
  unfold announceCause; split
  · split <;> simp
  · rfl

@[simp] theorem startPeriod_core (s : Station) : (startPeriod s).core = s.core := by
  unfold startPeriod; split <;> rfl

@[simp] theorem announceWasDropped_core (b : Bool) (s : Station) : (announceWasDropped b s).core = s.core := by
  have h : ∀ t : Station, Station.core { t with power.progress := Progress.none, announcing.heldBack := none } = t.core :=
    fun _ => rfl
  unfold announceWasDropped; dsimp only; split
  · split <;> simp [h]
  · simp

@[simp] theorem abandonStandby_core (s : Station) : (abandonStandby s).core = s.core := by
  have h : ∀ t : Station, Station.core { t with power.progress := Progress.none, announcing.heldBack := none } = t.core :=
    fun _ => rfl
  have h2 : ∀ (t : Station) (m : Bool), Station.core { t with announcing.mark := true, announcing.markSolicit := m } = t.core :=
    fun _ _ => rfl
  unfold abandonStandby; dsimp only; split
  · rfl
  · simp
  · split <;> simp [h, h2]
  · simp [h]

@[simp] theorem decideStandby_core (s : Station) : (decideStandby s).core = s.core := by simp [decideStandby]

@[simp] theorem replyDraw_core (d : Nat) (s : Station) : (replyDraw d s).core = s.core := by
  unfold replyDraw; split <;> rfl

@[simp] theorem takeSolicit_core (s : Station) : (takeSolicit s).core = s.core := by
  unfold takeSolicit; split
  · split <;> rename_i h <;> have hk := congrArg (fun p => p.2.core) h <;>
      simp only [requestDraw_core, core_announcing] at hk <;> simp [hk]
  · rfl

/-! ### Fields read off the projection -/

section
variable {s t : Station} (h : s.core = t.core)
include h
theorem core_bearers_eq : s.bearers = t.bearers := congrArg StationCore.bearers h
theorem core_call_eq : s.call = t.call := congrArg StationCore.call h
theorem core_circuits_eq : s.circuits = t.circuits := congrArg StationCore.circuits h
theorem core_audio_eq : s.audio = t.audio := congrArg StationCore.audio h
theorem core_panel_eq : s.panel = t.panel := congrArg StationCore.panel h
theorem core_directory_eq : s.directory = t.directory := congrArg StationCore.directory h
theorem core_config_eq : s.keep.config = t.keep.config := congrArg StationCore.config h
theorem core_clock_eq : s.keep.clock = t.keep.clock := congrArg StationCore.clock h
end

@[simp] theorem announceCause_bearers (b : Bool) (s : Station) : (announceCause b s).bearers = s.bearers :=
  core_bearers_eq (announceCause_core b s)
@[simp] theorem handOver_bearers (b : TxBody) (d : Nat) (s : Station) : (handOver b d s).bearers = s.bearers :=
  core_bearers_eq (handOver_core b d s)

end Sys2Proof.Machine
end

