-- ==== Sys2Proof/Laws/KeptArbiter.lean ====
section
/-! SUPPORT. Claims, orders and releases leave `kept` as it was: they touch no parked bearer and park none. -/

namespace Sys2Proof.Machine

theorem keptBearer_eq {r q : Bearer} (h : r.state.parked = false) (hq : q.state.parked = false)
    (hl : r.lasting = q.lasting) : r.kept = q.kept := by
  simp [Bearer.kept, h, hq, hl]

@[simp] theorem putBearer_bearer (l : Letter) (r : Bearer) (s : Station) : (putBearer l r s).bearer l = r := by
  have h : ∀ t u : Station, t.bearers = u.bearers → t.bearer l = u.bearer l := by
    intro t u e; cases l <;> simp [Station.bearer, e]
  refine Eq.trans (h _ (setBearer l r s) ?_) (setBearer_bearer_same l r s)
  unfold putBearer; dsimp only
  split <;> split <;> split <;> cases l <;> simp [setBearer, removeBearerBridges]

/-- A record that is not parked may be replaced by another that is not, of the same lasting parts. -/
theorem setBearer_kept {l : Letter} {r : Bearer} {s : Station} (ho : (s.bearer l).state.parked = false)
    (hn : r.state.parked = false) (hl : r.lasting = (s.bearer l).lasting) : (setBearer l r s).kept = s.kept := by
  cases l <;> simp only [Station.bearer] at ho hl <;>
    simp [setBearer, Station.kept, keptBearer_eq hn ho hl]

theorem putBearer_kept {l : Letter} {r : Bearer} {s : Station} (ho : (s.bearer l).state.parked = false)
    (hn : r.state.parked = false) (hl : r.lasting = (s.bearer l).lasting) : (putBearer l r s).kept = s.kept := by
  have key : ∀ t : Station, t.bearers = s.bearers → t.kept = s.kept → (setBearer l r t).kept = s.kept := by
    intro t hb hk
    have hbl : t.bearer l = s.bearer l := by cases l <;> simp [Station.bearer, hb]
    rw [setBearer_kept (by rw [hbl]; exact ho) hn (by rw [hbl]; exact hl), hk]
  unfold putBearer; dsimp only
  generalize hu : (if (s.bearer l).state == .inCall && r.state != .inCall then removeBearerBridges l s else s) = u
  have hub : u.bearers = s.bearers := by rw [← hu]; split <;> rfl
  have huk : u.kept = s.kept := by rw [← hu]; split <;> simp
  have := key u hub huk
  split <;> split <;> simp [this]

theorem sendCommand_kept {l : Letter} {c : Command} {r : Bearer} {s : Station}
    (ho : (s.bearer l).state.parked = false) (hn : r.state.parked = false) (hl : r.lasting = (s.bearer l).lasting) :
    (sendCommand l c r s).kept = s.kept := by
  have hb : (emit (.port l (commandMessage c)) s).bearer l = s.bearer l := by cases l <;> rfl
  exact (putBearer_kept (r := { r with inFlight := s.flight c }) (by rw [hb]; exact ho) hn
    (by rw [hb]; exact hl)).trans (emit_kept _ _)

@[simp] theorem notify_kept (l : Letter) (n : Notice) (s : Station) : (notify l n s).kept = s.kept := by
  unfold notify; split <;> simp

@[simp] theorem notify_bearers (l : Letter) (n : Notice) (s : Station) : (notify l n s).bearers = s.bearers := by
  unfold notify; split <;> simp

@[simp] theorem notify_bearer (l m : Letter) (n : Notice) (s : Station) : (notify l n s).bearer m = s.bearer m := by
  cases m <;> simp [Station.bearer]

theorem goAvailable_kept {l : Letter} {s : Station} (ho : (s.bearer l).state.parked = false) :
    (goAvailable l s).kept = s.kept := putBearer_kept ho rfl rfl

theorem goChecking_kept {l : Letter} {s : Station} (ho : (s.bearer l).state.parked = false) :
    (goChecking l s).kept = s.kept := sendCommand_kept ho rfl rfl

theorem hangUp_kept {l : Letter} {s : Station} (ho : (s.bearer l).state.parked = false) :
    (hangUp l s).kept = s.kept := sendCommand_kept ho rfl rfl

theorem sendDial_kept {l : Letter} {s : Station} (ho : (s.bearer l).state.parked = false) :
    (sendDial l s).kept = s.kept := sendCommand_kept ho rfl rfl

theorem leaveReserved_kept {l : Letter} {s : Station} (ho : (s.bearer l).state.parked = false) :
    (leaveReserved l s).kept = s.kept := by
  unfold leaveReserved; dsimp only; split
  · rw [goChecking_kept (by simpa using ho)]; simp
  · rw [goAvailable_kept (by simpa using ho)]; simp

theorem reserve_kept {l : Letter} {w : Claimant} {s : Station} (ho : (s.bearer l).state.parked = false) :
    (reserve l w s).kept = s.kept := by
  unfold reserve; dsimp only
  exact putBearer_kept ho rfl (by split <;> rfl)

theorem preempt_kept {l : Letter} {w : Claimant} {s : Station} (ho : (s.bearer l).state.parked = false) :
    (preempt l w s).kept = s.kept := by
  unfold preempt; dsimp only
  rw [sendCommand_kept (by simpa using ho) rfl (by simp; rfl)]; simp

/-- The bearer chosen passes the test. -/
theorem bestBearer_spec {s : Station} {p : Bearer → Bool} {l : Letter} (h : s.bestBearer p = some l) :
    p (s.bearer l) = true ∧ s.fitted l = true := by
  have hm : l ∈ s.fittedBearers.filter fun l => p (s.bearer l) := by
    revert h; unfold Station.bestBearer
    generalize (s.fittedBearers.filter fun l => p (s.bearer l)) = q
    match q with
    | [] => simp
    | [m] => simp; intro e; exact e.symm
    | m :: n :: r => dsimp only; split <;> (intro e; simp at e; simp [e])
  simp [Station.fittedBearers] at hm
  exact ⟨hm.2.1, hm.2.2⟩

theorem claimVoice_kept (w : Claimant) (m : Nat) (s : Station) : (claimVoice w m s).2.kept = s.kept := by
  unfold claimVoice; split
  · rename_i l h
    have := (bestBearer_spec h).1
    exact reserve_kept (by revert this; cases (s.bearer l).state <;> simp [BearerState.parked])
  · split
    · rename_i l h
      have := (bestBearer_spec h).1
      exact preempt_kept (by revert this; cases (s.bearer l).state <;> simp [BearerState.parked])
    · rfl

@[simp] theorem orderDial_kept (l : Letter) (s : Station) : (orderDial l s).kept = s.kept := by
  unfold orderDial; dsimp only; split
  · rename_i h; exact sendDial_kept (by rw [h]; rfl)
  · rename_i h _; split
    · exact setBearer_kept (by rw [h]; rfl) (by simp [h, BearerState.parked]) rfl
    · rfl
  · rfl

@[simp] theorem releaseBearer_kept (l : Letter) (s : Station) : (releaseBearer l s).kept = s.kept := by
  unfold releaseBearer; dsimp only; split <;> rename_i h
  · exact leaveReserved_kept (by rw [h]; rfl)
  · split
    · have h1 : (s.bearer l).state.parked = false := by rw [h]; rfl
      rw [hangUp_kept (by rw [putBearer_bearer]; exact h1)]
      exact putBearer_kept h1 h1 rfl
    · exact hangUp_kept (by rw [h]; rfl)
  · exact hangUp_kept (by rw [h]; rfl)
  · exact hangUp_kept (by rw [h]; rfl)
  · exact hangUp_kept (by rw [h]; rfl)
  · exact setBearer_kept (by rw [h]; rfl) (by simp [h, BearerState.parked]) rfl
  · rfl

@[simp] theorem releaseFor_kept (w : Claimant) (l : Letter) (s : Station) : (releaseFor w l s).kept = s.kept := by
  unfold releaseFor; repeat' split
  all_goals simp

theorem grantReport_kept {l : Letter} {s : Station} (w : Claimant) (r : Record)
    (ho : (s.bearer l).state.parked = false) : (grantReport l w r s).kept = s.kept := by
  unfold grantReport; dsimp only; split
  · rw [leaveReserved_kept (by rw [notify_bearer, putBearer_bearer]; rfl), notify_kept]
    exact putBearer_kept ho rfl rfl
  · have hb : (emit (.port l (sendReportMessage r s.config.destination)) s).bearer l = s.bearer l := by
      cases l <;> rfl
    rw [putBearer_kept (by rw [hb]; exact ho) rfl (by rw [hb]; rfl)]; simp

@[simp] theorem kept_waiting (s : Station) (x : List WaitingClaim) :
    Station.kept { s with bearers.waiting := x } = s.kept := rfl

@[simp] theorem claimReport_kept (w : Claimant) (r : Record) (s : Station) : (claimReport w r s).kept = s.kept := by
  unfold claimReport; split
  · rename_i l h
    have := (bestBearer_spec h).1
    exact grantReport_kept w r (by revert this; cases (s.bearer l).state <;> simp [BearerState.parked])
  · simp

@[simp] theorem decideWaiting_kept (l : Letter) (s : Station) : (decideWaiting l s).kept = s.kept := by
  unfold decideWaiting; split
  · rename_i h
    have ha : (s.bearer l).state = .available := by simp at h; exact h.2
    split
    · rw [grantReport_kept _ _ (by cases l <;> simp_all [Station.bearer, BearerState.parked])]; simp
    · rfl
  · rfl

end Sys2Proof.Machine
end

