-- ==== Sys2Proof/Laws/KeptCall.lean ====
section
/-! SUPPORT. The call engine and the report unit, taking a notice, leave `kept` as it was. -/

namespace Sys2Proof.Machine

/-! ### The origin context -/

@[simp] theorem enterPhase_kept (p : Phase) (d : Timer) (s : Station) : (enterPhase p d s).kept = s.kept := by
  unfold enterPhase; split
  · dsimp only; split <;> simp
  · rfl

@[simp] theorem clearPartner_kept (t : Tag) (r : ClearReason) (d : Nat) (s : Station) :
    (clearPartner t r d s).kept = s.kept := by simp [clearPartner]

@[simp] theorem tryEnd_kept (s : Station) : (tryEnd s).kept = s.kept := by
  unfold tryEnd; split
  · split <;> simp
  · rfl

@[simp] theorem enterEnding_kept (s : Station) : (enterEnding s).kept = s.kept := by
  unfold enterEnding; split
  · dsimp only; split <;> simp
  · rfl

@[simp] theorem releaseOwnBearer_kept (s : Station) : (releaseOwnBearer s).kept = s.kept := by
  unfold releaseOwnBearer; repeat' split
  all_goals simp

@[simp] theorem abandonOwnRound_kept (r : ClearReason) (p : Phase) (s : Station) :
    (abandonOwnRound r p s).kept = s.kept := by
  unfold abandonOwnRound; split <;> simp

@[simp] theorem kept_lastReport (s : Station) (n : Nat) : Station.kept { s with keep.lastReport := n } = s.kept := rfl
@[simp] theorem kept_lastCall (s : Station) (n : Nat) : Station.kept { s with keep.lastCall := n } = s.kept := rfl
@[simp] theorem kept_lastReport_queue (s : Station) (n : Nat) (q : List ReportEntry) :
    Station.kept { s with keep.lastReport := n, reports.queue := q } = s.kept := rfl

@[simp] theorem handReport_kept (e : CabinetEvent) (s : Station) : (handReport e s).kept = s.kept := by
  unfold handReport; dsimp only; split
  · simp
  · split
    · simp
    · generalize hu : countDropped _ = u
      have hk : u.kept = s.kept := by rw [← hu]; simp
      split <;> simp [hk]

@[simp] theorem dropCall_kept (o : Option (ClearReason × Nat)) (s : Station) : (dropCall o s).kept = s.kept := by
  unfold dropCall; split
  · rfl
  · dsimp only; split <;> simp

@[simp] theorem beginRecovery_kept (s : Station) : (beginRecovery s).kept = s.kept := by
  unfold beginRecovery; split
  · rfl
  · dsimp only; split <;> simp

@[simp] theorem carrierLost_kept (o : Option ClearReason) (b : Bool) (s : Station) :
    (carrierLost o b s).kept = s.kept := by
  unfold carrierLost; split
  · rfl
  · dsimp only; split
    · simp; split <;> simp
    · simp; repeat' split
      all_goals simp

@[simp] theorem closeStep_kept (s : Station) : (closeStep s).kept = s.kept := by
  unfold closeStep; split
  · rfl
  · dsimp only; split <;> simp

@[simp] theorem recoveryFails_kept (s : Station) : (recoveryFails s).kept = s.kept := by
  unfold recoveryFails; split
  · rfl
  · dsimp only; split <;> simp

@[simp] theorem endOfRound_kept (s : Station) : (endOfRound s).kept = s.kept := by
  unfold endOfRound; split
  · rfl
  · dsimp only; split <;> simp

@[simp] theorem localRoute_kept (m : Nat) (s : Station) : (localRoute m s).kept = s.kept := by
  unfold localRoute; split
  · rfl
  · dsimp only; split <;> rename_i h <;> have hk := congrArg (fun p => p.2.kept) h <;>
      simp only [claimVoice_kept, updOrigin_kept] at hk
    · simp [hk]
    · split <;> simp [hk]

@[simp] theorem borrowingOver_kept (s : Station) : (borrowingOver s).kept = s.kept := by
  unfold borrowingOver; split
  · rfl
  · split
    · split <;> simp
    · simp

@[simp] theorem askCircuit_kept (s : Station) : (askCircuit s).kept = s.kept := by
  unfold askCircuit; split <;> simp

@[simp] theorem askLender_kept (l : Nat) (s : Station) : (askLender l s).kept = s.kept := by
  unfold askLender; split <;> simp

@[simp] theorem wakeStation_kept (a : Nat) (s : Station) : (wakeStation a s).kept = s.kept := by
  simp [wakeStation]

@[simp] theorem chooseLender_kept (s : Station) : (chooseLender s).kept = s.kept := by
  unfold chooseLender; repeat' split
  all_goals simp

@[simp] theorem borrowRoute_kept (s : Station) : (borrowRoute s).kept = s.kept := by
  unfold borrowRoute; repeat' split
  all_goals simp

@[simp] theorem selectRoute_kept (s : Station) : (selectRoute s).kept = s.kept := by
  unfold selectRoute; split
  · rfl
  · dsimp only; repeat' split
    all_goals simp

@[simp] theorem localFailed_kept (s : Station) : (localFailed s).kept = s.kept := by
  unfold localFailed; dsimp only; split <;> simp

@[simp] theorem passOver_kept (l : Nat) (s : Station) : (passOver l s).kept = s.kept := by simp [passOver]

@[simp] theorem createOrigin_kept (m : Mode) (s : Station) : (createOrigin m s).kept = s.kept := by
  unfold createOrigin; split
  · simp
  · rfl

@[simp] theorem enterConnected_kept (s : Station) : (enterConnected s).kept = s.kept := by
  unfold enterConnected; split
  · rfl
  · dsimp only; split <;> simp

@[simp] theorem connectLocal_kept (l : Letter) (s : Station) : (connectLocal l s).kept = s.kept := by
  unfold connectLocal; split
  · rfl
  · dsimp only
    generalize hu : enterConnected _ = u
    have hk : u.kept = s.kept := by rw [← hu]; simp; split <;> simp
    split
    · rename_i h; simp [addBridge_kept h, hk]
    · simp [hk]

@[simp] theorem connectBorrowed_kept (s : Station) : (connectBorrowed s).kept = s.kept := by
  unfold connectBorrowed; split
  · rfl
  · dsimp only
    generalize hu : enterConnected _ = u
    have hk : u.kept = s.kept := by rw [← hu]; simp
    split
    · simp [hk]
    · split
      · rename_i h; simp [addBridge_kept h, hk]
      · simp [hk]

@[simp] theorem circuitYielded_kept (s : Station) : (circuitYielded s).kept = s.kept := by
  unfold circuitYielded; repeat' split
  all_goals simp

@[simp] theorem farEndEnds_kept (s : Station) : (farEndEnds s).kept = s.kept := by simp [farEndEnds]

@[simp] theorem originReleased_kept (l : Letter) (s : Station) : (originReleased l s).kept = s.kept := by
  unfold originReleased; dsimp only; repeat' split
  all_goals simp

@[simp] theorem originNotice_kept (t : Tag) (l : Letter) (n : Notice) (s : Station) :
    (originNotice t l n s).kept = s.kept := by
  unfold originNotice; repeat' split
  all_goals simp

/-! ### Carrier contexts -/

@[simp] theorem endCarrier_kept (t : Tag) (s : Station) : (endCarrier t s).kept = s.kept := by
  unfold endCarrier; exact notingLendReady_kept (by simp)

@[simp] theorem closeCarrier_kept (t : Tag) (s : Station) : (closeCarrier t s).kept = s.kept := by
  simp [closeCarrier]

@[simp] theorem carrierClearFrame_kept (k : Carrier) (r : ClearReason) (s : Station) :
    (carrierClearFrame k r s).kept = s.kept := by simp [carrierClearFrame]

@[simp] theorem partnerHeard_kept (s : Station) : (partnerHeard s).kept = s.kept := rfl

@[simp] theorem originCleared_kept (k : Carrier) (s : Station) : (originCleared k s).kept = s.kept := by
  unfold originCleared; split <;> simp

@[simp] theorem carrierNotice_kept (t : Tag) (l : Letter) (n : Notice) (s : Station) :
    (carrierNotice t l n s).kept = s.kept := by
  unfold carrierNotice; split
  · rfl
  split; · rfl
  split
  any_goals simp
  split
  · rename_i h; simp [addBridge_kept h]
  · simp

@[simp] theorem watchCircuit_kept (e : CircuitEntry) (k : Carrier) (s : Station) :
    (watchCircuit e k s).kept = s.kept := by
  unfold watchCircuit; repeat' split
  all_goals simp

theorem foldl_kept {α : Type} (f : Station → α → Station) (h : ∀ s x, (f s x).kept = s.kept) (l : List α)
    (s : Station) : (l.foldl f s).kept = s.kept := by
  induction l generalizing s with
  | nil => rfl
  | cons x xs ih => rw [List.foldl_cons, ih, h]

@[simp] theorem circuitWatch_kept (c : Circuit) (e : CircuitEntry) (s : Station) :
    (circuitWatch c e s).kept = s.kept := foldl_kept _ (fun s k => watchCircuit_kept e k s) _ s

/-! ### The report unit -/

@[simp] theorem removeReport_kept (t : Tag) (s : Station) : (removeReport t s).kept = s.kept := rfl

@[simp] theorem askReportLender_kept (t : Tag) (l : Nat) (s : Station) : (askReportLender t l s).kept = s.kept := by
  unfold askReportLender; split <;> simp

@[simp] theorem offerEntry_kept (e : ReportEntry) (s : Station) : (offerEntry e s).kept = s.kept := by
  unfold offerEntry; dsimp only; repeat' split
  all_goals simp

@[simp] theorem offerNext_kept (s : Station) : (offerNext s).kept = s.kept := by
  unfold offerNext; repeat' split
  all_goals simp

@[simp] theorem mergeReturning_kept (t : Tag) (s : Station) : (mergeReturning t s).kept = s.kept := by
  unfold mergeReturning; split
  · rfl
  · split
    · rfl
    · exact (updReport_kept _ _ _).trans (removeReport_kept _ _)

@[simp] theorem returnWaiting_kept (t : Tag) (s : Station) : (returnWaiting t s).kept = s.kept := by
  simp [returnWaiting]

@[simp] theorem retestClaim_kept (s : Station) : (retestClaim s).kept = s.kept := by
  unfold retestClaim; repeat' split
  all_goals simp

@[simp] theorem decideReports_kept (s : Station) : (decideReports s).kept = s.kept := by simp [decideReports]

@[simp] theorem attemptFailed_kept (t : Tag) (s : Station) : (attemptFailed t s).kept = s.kept := by
  unfold attemptFailed; split
  · rfl
  · split <;> simp

@[simp] theorem askNext_kept (t : Tag) (l : Nat) (s : Station) : (askNext t l s).kept = s.kept := by
  unfold askNext; dsimp only; repeat' split
  all_goals simp

@[simp] theorem delivered_kept (t : Tag) (s : Station) : (delivered t s).kept = s.kept := by
  unfold delivered; dsimp only; split <;> simp

@[simp] theorem reportNotice_kept (t : Tag) (n : Notice) (s : Station) : (reportNotice t n s).kept = s.kept := by
  unfold reportNotice; dsimp only; repeat' split
  all_goals simp

@[simp] theorem removeRelay_kept (t : Tag) (s : Station) : (removeRelay t s).kept = s.kept := rfl

@[simp] theorem decideRelay_kept (s : Station) : (decideRelay s).kept = s.kept := by
  unfold decideRelay; repeat' split
  all_goals simp

@[simp] theorem endRelay_kept (t : Tag) (b : Bool) (s : Station) : (endRelay t b s).kept = s.kept := by
  simp [endRelay]

@[simp] theorem relayNotice_kept (t : Tag) (n : Notice) (s : Station) : (relayNotice t n s).kept = s.kept := by
  unfold relayNotice; dsimp only; repeat' split
  all_goals simp

/-! ### One notice, and all of them -/

@[simp] theorem takeNotice_kept (w : Claimant) (l : Letter) (n : Notice) (s : Station) :
    (takeNotice w l n s).kept = s.kept := by
  unfold takeNotice; split <;> simp

@[simp] theorem roundIsWon_kept (t : Tag) (s : Station) : (roundIsWon t s).kept = s.kept := by
  unfold roundIsWon; split <;> simp

@[simp] theorem directoryReported_kept (s : Station) : (directoryReported s).kept = s.kept := by
  unfold directoryReported; repeat' split
  all_goals simp

@[simp] theorem borrowAfterRefusal_kept (t : Tag) (s : Station) : (borrowAfterRefusal t s).kept = s.kept := by
  unfold borrowAfterRefusal; split <;> simp

@[simp] theorem originHasEnded_kept (s : Station) : (originHasEnded s).kept = s.kept := by
  have h : ∀ t : Station, Station.kept { t with panel.deferred := false } = t.kept := fun _ => rfl
  unfold originHasEnded; dsimp only; split
  · split <;> simp [h]
  · rfl

/-- One notice, outside STANDBY, leaves `kept` as it was. -/
theorem takeTask_kept (t : Task) {s : Station} (h : s.power.opState ≠ .standby) : (takeTask t s).kept = s.kept := by
  unfold takeTask; split
  any_goals simp
  · split <;> simp
  · split <;> simp
  · split <;> simp
  · simp [takeWake, h]

theorem kept_opState {s t : Station} (h : s.kept = t.kept) : s.power.opState = t.power.opState :=
  congrArg Kept.opState h

/-- The notices, outside STANDBY, leave `kept` as it was. -/
theorem drain_kept (n : Nat) {s : Station} (h : s.power.opState ≠ .standby) : (drain n s).kept = s.kept := by
  induction n generalizing s with
  | zero => rfl
  | succ n ih =>
    unfold drain; split
    · rfl
    · rename_i t rest _
      have hk : (takeTask t { s with work := rest }).kept = s.kept := takeTask_kept t h
      rw [ih (by rw [kept_opState hk]; exact h), hk]

/-- Where nothing waits, nothing is taken. -/
@[simp] theorem drain_nil (n : Nat) {s : Station} (h : s.work = []) : drain n s = s := by
  cases n with
  | zero => rfl
  | succ n => unfold drain; rw [h]

end Sys2Proof.Machine
end

