-- ==== Sys2Proof/Laws/Finish.lean ====
section
/-! SUPPORT. What the end of a command leaves as it was: `finish_kept` for any notices, `finish_core` where the command
itself has posted none but of dropped ANNOUNCE frames. -/

namespace Sys2Proof.Machine

/-! ### The standing conditions and the transmit side leave `kept` -/

@[simp] theorem keepStall_kept (s : Station) : (keepStall s).kept = s.kept := by
  unfold keepStall; repeat' split
  all_goals rfl

@[simp] theorem markReload_kept (s : Station) : (markReload s).kept = s.kept := by
  unfold markReload; split
  · rename_i h; split
    · rfl
    · simp [Station.kept, h]
  · rfl

/-- The idle timer's keeping changes the idle timer at most. -/
theorem keepIdle_eq (s : Station) : ∃ x, keepIdle s = { s with power.idleTimer := x } := by
  have h : s = { s with power.idleTimer := s.power.idleTimer } := rfl
  unfold keepIdle
  split
  · split
    · split
      · exact ⟨_, h⟩
      · exact ⟨_, rfl⟩
    · exact ⟨_, rfl⟩
  · exact ⟨_, h⟩

@[simp] theorem keepIdle_kept (s : Station) : (keepIdle s).kept = s.kept := by
  obtain ⟨x, h⟩ := keepIdle_eq s; rw [h]; rfl

@[simp] theorem keepIdle_core (s : Station) : (keepIdle s).core = s.core := by
  obtain ⟨x, h⟩ := keepIdle_eq s; rw [h]; rfl

@[simp] theorem keepIdle_work (s : Station) : (keepIdle s).work = s.work := by
  obtain ⟨x, h⟩ := keepIdle_eq s; rw [h]

theorem abandonStandby_kept {s : Station} (h : s.power.progress ≠ .waitingEntry) :
    (abandonStandby s).kept = s.kept := by
  unfold abandonStandby; dsimp only; split <;> rename_i hp
  · rfl
  · simp [Station.kept, hp] <;> decide
  · have hz : Station.kept { s with power.progress := Progress.none, announcing.heldBack := none } = s.kept := by
      simp [Station.kept, hp] <;> decide
    have hm : ∀ (t : Station) (m : Bool),
      Station.kept { t with announcing.mark := true, announcing.markSolicit := m } = t.kept := fun _ _ => rfl
    split <;> simp [hz, hm]
  · exact absurd hp h

theorem standbyCheck_kept {s : Station} (h : s.power.progress ≠ .waitingEntry) : (standbyCheck s).kept = s.kept := by
  unfold standbyCheck; split <;> rename_i hp
  · exact keepIdle_kept s
  · split
    · exact abandonStandby_kept h
    · split
      · unfold decideStandby; rw [mergeAnnounce_kept]; simp [Station.kept, hp] <;> decide
      · rfl
  · split
    · exact abandonStandby_kept h
    · rfl
  · exact absurd hp h

theorem lineDraw_kept (d : Nat) (s : Station) : (lineDraw d s).kept = s.kept := by
  unfold lineDraw; split <;> rfl

theorem requestLineDraw_kept (s : Station) : (requestLineDraw s).kept = s.kept := by
  unfold requestLineDraw; split <;> rename_i h <;> have hk := congrArg (fun p => p.2.kept) h <;>
    simp only [requestDraw_kept] at hk <;> simp [hk, lineDraw_kept]

theorem enterService_kept (f : TxFrame) (s : Station) : (enterService f s).kept = s.kept := by
  unfold enterService; rw [requestLineDraw_kept]; rfl

theorem tryAttempt_kept (s : Station) : (tryAttempt s).kept = s.kept := by
  unfold tryAttempt; repeat' split
  all_goals rfl

@[simp] theorem pump_kept (s : Station) : (pump s).kept = s.kept := by
  unfold pump; split
  · rw [tryAttempt_kept, enterService_kept]; rfl
  · exact tryAttempt_kept s

theorem kept_waitingEntry {s t : Station} (h : s.kept = t.kept) (ht : t.power.progress ≠ .waitingEntry) :
    s.power.progress ≠ .waitingEntry := by
  have := congrArg Kept.waitingEntry h
  intro hs
  simp only [Station.kept, hs] at this
  exact ht (by simpa using this.symm)

theorem upkeep_kept {s : Station} (h : s.power.progress ≠ .waitingEntry) : (upkeep s).kept = s.kept := by
  have hk : (markReload (keepStall s)).kept = s.kept := by simp
  unfold upkeep
  rw [standbyCheck_kept (kept_waitingEntry hk h), hk]

/-- The end of a command, outside STANDBY and but for an entry into it, leaves `kept` as it was. -/
theorem finish_kept {s : Station} (ho : s.power.opState ≠ .standby) (hp : s.power.progress ≠ .waitingEntry) :
    (finish s).kept = s.kept := by
  have h1 : (drain 256 s).kept = s.kept := drain_kept _ ho
  have h2 : (upkeep (drain 256 s)).kept = s.kept := by
    rw [upkeep_kept (kept_waitingEntry h1 hp), h1]
  unfold finish
  rw [pump_kept, keepIdle_kept, drain_kept _ (by rw [kept_opState h2]; exact ho), h2]

/-! ### Notices of dropped ANNOUNCE frames only -/

/-- Nothing waits but notices that an ANNOUNCE was dropped. -/
def Station.light (s : Station) : Prop := ∀ t ∈ s.work, ∃ b, t = .announceDropped b

theorem light_of_nil {s : Station} (h : s.work = []) : s.light := by simp [Station.light, h]

theorem light_of_work {s t : Station} (h : t.work = s.work) (hs : s.light) : t.light := by
  simpa [Station.light, h] using hs

theorem light_post {s : Station} (b : Bool) (h : s.light) : (post (.announceDropped b) s).light := by
  intro t ht
  rcases List.mem_append.mp ht with ht | ht
  · exact h t ht
  · exact ⟨b, by simpa using ht⟩

theorem reportDrop_light {b : TxBody} {s : Station} (hb : b.isClaim = false) (h : s.light) :
    (reportDrop b s).light := by
  unfold reportDrop; cases b
  case claim => simp [TxBody.isClaim] at hb
  case announce => exact light_post _ h
  all_goals exact h

theorem displace_work (s : Station) : (displace s).work = s.work := by
  unfold displace; split
  · split <;> rfl
  · rfl

theorem addFrame_work (f : TxFrame) (s : Station) : (addFrame f s).work = s.work := by
  have h : ∀ t : Station, Station.work { t with line.queue := addToClass f t.line.queue } = t.work := fun _ => rfl
  unfold addFrame; dsimp only; split
  · exact displace_work s
  · rfl

theorem takeRoutine_spec {s t : Station} {g : TxFrame} (h : takeRoutine s = some (g, t)) :
    g.body.urgent = false ∧ t.work = s.work := by
  have key : (match s.line.queue.find? fun g => !g.body.urgent && !g.begun with
    | some g => some (g, { s with line.queue := s.line.queue.eraseP fun h => !h.body.urgent && !h.begun })
    | none => none) = some (g, t) → g.body.urgent = false ∧ t.work = s.work := by
    split
    · rename_i x hx
      intro e; simp at e; obtain ⟨rfl, rfl⟩ := e
      have := List.find?_some hx
      simp at this; exact ⟨this.1, rfl⟩
    · simp
  revert h; unfold takeRoutine; dsimp only
  split
  · split
    · rename_i hv
      intro e; simp at e; obtain ⟨rfl, rfl⟩ := e
      simp at hv; exact ⟨hv.1, rfl⟩
    · exact key
  · exact key

theorem handOver_light {b : TxBody} (d : Nat) {s : Station} (hb : b.isClaim = false) (h : s.light) :
    (handOver b d s).light := by
  unfold handOver; dsimp only
  split; · exact h
  split; · exact light_of_work (addFrame_work _ _) h
  split
  · split
    · rename_i g t hr
      have hs := takeRoutine_spec hr
      refine light_of_work (addFrame_work _ _) (reportDrop_light ?_ (light_of_work hs.2 h))
      revert hs; cases g.body <;> simp [TxBody.urgent, TxBody.isClaim]
    · exact reportDrop_light hb h
  · exact reportDrop_light hb h

theorem mergeAnnounce_light (b c : Bool) {s : Station} (h : s.light) : (mergeAnnounce b c s).light := by
  unfold mergeAnnounce; split
  · dsimp only; split <;> exact h
  · exact handOver_light _ rfl h

theorem announceCause_light (b : Bool) {s : Station} (h : s.light) : (announceCause b s).light := by
  unfold announceCause; split
  · split
    · exact h
    · exact h
    · exact mergeAnnounce_light _ _ h
    · exact mergeAnnounce_light _ _ h
  · exact h

theorem startPeriod_light {s : Station} (h : s.light) : (startPeriod s).light := by
  unfold startPeriod; split <;> exact h

theorem announceWasDropped_light (b : Bool) {s : Station} (h : s.light) : (announceWasDropped b s).light := by
  unfold announceWasDropped; dsimp only
  have hs : (startPeriod { s with announcing.mark := false, announcing.markSolicit := false }).light :=
    startPeriod_light h
  split
  · split
    · exact mergeAnnounce_light _ _ hs
    · exact hs
  · exact hs

theorem abandonStandby_light {s : Station} (h : s.light) : (abandonStandby s).light := by
  unfold abandonStandby; dsimp only; split
  · exact h
  · exact h
  · split <;> exact h
  · exact mergeAnnounce_light _ _ h

theorem standbyCheck_light {s : Station} (hp : s.power.progress ≠ .waitingEntry) (h : s.light) :
    (standbyCheck s).light := by
  unfold standbyCheck; split <;> rename_i he
  · exact light_of_work (keepIdle_work s) h
  · split
    · exact abandonStandby_light h
    · split
      · exact mergeAnnounce_light _ _ h
      · exact h
  · split
    · exact abandonStandby_light h
    · exact h
  · exact absurd he hp

theorem drain_light (n : Nat) {s : Station} (h : s.light) :
    (drain n s).core = s.core ∧ (drain n s).light ∧ (drain n s).kept = s.kept := by
  induction n generalizing s with
  | zero => exact ⟨rfl, h, rfl⟩
  | succ n ih =>
    unfold drain; split
    · exact ⟨rfl, h, rfl⟩
    · rename_i t rest hw
      obtain ⟨b, rfl⟩ := h t (by rw [hw]; exact List.mem_cons_self)
      have hr : Station.light { s with work := rest } := fun u hu => h u (by rw [hw]; exact List.mem_cons_of_mem _ hu)
      have := ih (announceWasDropped_light b hr)
      simpa [takeTask] using this

@[simp] theorem keepStall_core (s : Station) : (keepStall s).core = s.core := by
  unfold keepStall; repeat' split
  all_goals rfl

@[simp] theorem markReload_core (s : Station) : (markReload s).core = s.core := by
  unfold markReload; repeat' split
  all_goals rfl

theorem standbyCheck_core {s : Station} (hp : s.power.progress ≠ .waitingEntry) : (standbyCheck s).core = s.core := by
  unfold standbyCheck; split <;> rename_i he
  · exact keepIdle_core s
  · repeat' split
    all_goals simp
  · split <;> simp
  · exact absurd he hp

theorem upkeep_core {s : Station} (hp : s.power.progress ≠ .waitingEntry) : (upkeep s).core = s.core := by
  have hk : (markReload (keepStall s)).kept = s.kept := by simp
  unfold upkeep
  rw [standbyCheck_core (kept_waitingEntry hk hp)]; simp

theorem upkeep_light {s : Station} (hp : s.power.progress ≠ .waitingEntry) (h : s.light) : (upkeep s).light := by
  have hk : (markReload (keepStall s)).kept = s.kept := by simp
  refine standbyCheck_light (kept_waitingEntry hk hp) (light_of_work ?_ h)
  unfold markReload keepStall; repeat' split
  all_goals rfl

/-- The end of a command that has posted no notice but of dropped ANNOUNCE frames leaves `core` as it was. -/
theorem finish_core {s : Station} (h : s.light) (hp : s.power.progress ≠ .waitingEntry) : (finish s).core = s.core := by
  obtain ⟨c1, l1, k1⟩ := drain_light 256 h
  have hp1 := kept_waitingEntry k1 hp
  obtain ⟨c2, -, -⟩ := drain_light 128 (upkeep_light hp1 l1)
  unfold finish
  rw [pump_core, keepIdle_core, c2, upkeep_core hp1, c1]

theorem drain_cons {n : Nat} {s : Station} {t : Task} {rest : List Task} (h : s.work = t :: rest) :
    drain (n + 1) s = drain n (takeTask t { s with work := rest }) := by
  rw [drain.eq_2, h]

/-- The end of a command that has posted one notice, whose taking posts none, leaves the `core` that taking it gives. -/
theorem finish_one {s : Station} {t : Task} (hw : s.work = [t]) (hl : (takeTask t { s with work := [] }).light)
    (hp : (takeTask t { s with work := [] }).power.progress ≠ .waitingEntry) :
    (finish s).core = (takeTask t { s with work := [] }).core := by
  have hd : drain 256 s = drain 255 (takeTask t { s with work := [] }) := drain_cons hw
  obtain ⟨c1, l1, k1⟩ := drain_light 255 hl
  have hp1 := kept_waitingEntry k1 hp
  obtain ⟨c2, -, -⟩ := drain_light 128 (upkeep_light hp1 l1)
  unfold finish
  rw [hd, pump_core, keepIdle_core, c2, upkeep_core hp1, c1]

end Sys2Proof.Machine
end

