-- ==== Sys2Proof/Laws/Rows.lean ====
section
/-! SUPPORT. How a command's own effect shows in the next state: through `kept` whatever notices it posts, through `core`
where it posts none. -/

namespace Sys2Proof.Machine

theorem catchUp_clock (d : Stamp) (s : Station) : (catchUp d s).keep.clock = Stamp.moment s.keep.clock d := by
  unfold catchUp Stamp.moment Station.now; split <;> simp

theorem catchUp_eq (d : Stamp) (s : Station) : catchUp d s = { s with keep.clock := Stamp.moment s.keep.clock d } := by
  unfold catchUp Stamp.moment Station.now; split <;> simp

theorem catchUp_kept (d : Stamp) (s : Station) :
    (catchUp d s).kept = { s.kept with clock := Stamp.moment s.keep.clock d } := by
  rw [catchUp_eq]; rfl

theorem catchUp_core (d : Stamp) (s : Station) :
    (catchUp d s).core = { s.core with clock := Stamp.moment s.keep.clock d } := by
  rw [catchUp_eq]; rfl

@[simp] theorem freshOut_kept (s : Station) : (freshOut s).kept = s.kept := rfl

@[simp] theorem freshOut_bearer (s : Station) (l : Letter) : (freshOut s).bearer l = s.bearer l := by cases l <;> rfl
@[simp] theorem freshOut_entry (s : Station) (c : Circuit) : (freshOut s).entry c = s.entry c := rfl
@[simp] theorem freshOut_fitted (s : Station) (l : Letter) : (freshOut s).fitted l = s.fitted l := by cases l <;> rfl
@[simp] theorem freshOut_light (s : Station) : (freshOut s).light := light_of_nil rfl

/-- An event of a running station. -/
theorem takeEvent_running {f : Station → Station} {s : State} (h : s.station.running = true) :
    takeEvent f s = .next { s with station := finish (f (freshOut s.station)) } := by
  simp [takeEvent, h]

/-- An event shows in `kept`. -/
theorem takeEvent_kept {f : Station → Station} {s : State} (h : s.station.running = true)
    (ho : (f (freshOut s.station)).power.opState ≠ .standby)
    (hp : (f (freshOut s.station)).power.progress ≠ .waitingEntry) :
    ∃ t, takeEvent f s = .next t ∧ t.station.kept = (f (freshOut s.station)).kept :=
  ⟨_, takeEvent_running h, finish_kept ho hp⟩

/-- An event that posts no notice shows in `core`. -/
theorem takeEvent_core {f : Station → Station} {s : State} (h : s.station.running = true)
    (hl : (f (freshOut s.station)).light) (hp : (f (freshOut s.station)).power.progress ≠ .waitingEntry) :
    ∃ t, takeEvent f s = .next t ∧ t.station.core = (f (freshOut s.station)).core :=
  ⟨_, takeEvent_running h, finish_core hl hp⟩

/-- The expiry of a timer that runs is an event at its moment. -/
theorem takeExpiry_some {timer : Station → Timer} {f : Station → Station} {s : State} {d : Stamp}
    (h : timer (freshOut s.station) = some d) (hr : s.station.running = true) :
    takeExpiry timer f s = .next { s with station := finish (f (catchUp d (freshOut s.station))) } := by
  unfold takeExpiry; rw [takeEvent_running hr]; simp [h]

/-- A fault shows in `kept`. -/
theorem raise_kept_raised (k : FaultKind) (s : Station) : (raise k s).kept = s.kept.raised k := by
  have hc : (s.keep.faults.raised k s.keep.clock).lastingCounters =
      List.zipWith (fun kind n => if kind = k then min 255 (n + 1) else n) lastingKinds
        s.keep.faults.lastingCounters := by
    unfold Faults.lastingCounters
    rw [List.zipWith_map_right, List.zipWith_self]
    refine List.map_congr_left fun j _ => ?_
    split
    · rename_i h; subst h; exact raised_counter_same j _ _
    · rename_i h; exact raised_counter_other h _ _
  have hf : (s.keep.faults.raised k s.keep.clock).flags.fatal =
      (s.keep.faults.flags.fatal || k.faultClass == .fatal) := by
    cases k <;> simp [Faults.raised, FaultKind.faultClass, ClassSet.add]
  simp only [Station.kept, Kept.raised, raise_faults, hc, hf]; rfl

/-! ### Bearer records in `kept` -/

theorem setBearer_kept_with (l : Letter) (r : Bearer) (s : Station) : (setBearer l r s).kept = s.kept.withBearer l r := by
  cases l <;> rfl

theorem putBearer_kept_with (l : Letter) (r : Bearer) (s : Station) : (putBearer l r s).kept = s.kept.withBearer l r := by
  unfold putBearer; dsimp only
  generalize hu : (if (s.bearer l).state == .inCall && r.state != .inCall then removeBearerBridges l s else s) = u
  have huk : u.kept = s.kept := by rw [← hu]; split <;> simp
  split <;> split <;> simp [setBearer_kept_with, huk]

theorem sendCommand_kept_with (l : Letter) (c : Command) (r : Bearer) (s : Station) :
    (sendCommand l c r s).kept = s.kept.withBearer l { r with inFlight := s.flight c } := by
  unfold sendCommand; rw [putBearer_kept_with]; rfl

@[simp] theorem withBearer_withBearer (k : Kept) (l : Letter) (r q : Bearer) :
    (k.withBearer l r).withBearer l q = k.withBearer l q := by
  cases l <;> rfl

@[simp] theorem sendCommand_bearer (l : Letter) (c : Command) (r : Bearer) (s : Station) :
    (sendCommand l c r s).bearer l = { r with inFlight := s.flight c } := by
  unfold sendCommand; rw [putBearer_bearer]

@[simp] theorem withBearer_opState (k : Kept) (l : Letter) (r : Bearer) : (k.withBearer l r).opState = k.opState := by
  cases l <;> rfl
@[simp] theorem withBearer_waitingEntry (k : Kept) (l : Letter) (r : Bearer) :
    (k.withBearer l r).waitingEntry = k.waitingEntry := by
  cases l <;> rfl
@[simp] theorem raised_opState (k : Kept) (f : FaultKind) : (k.raised f).opState = k.opState := rfl
@[simp] theorem raised_waitingEntry (k : Kept) (f : FaultKind) : (k.raised f).waitingEntry = k.waitingEntry := rfl

/-- An event shows in `kept`, the conditions read off `kept` too. -/
theorem takeEvent_shows {f : Station → Station} {s : State} {k : Kept} (hs : s.station.Awake)
    (hk : (f (freshOut s.station)).kept = k) (ho : k.opState ≠ .standby) (hw : k.waitingEntry = false) :
    ∃ t, takeEvent f s = .next t ∧ t.station.kept = k := by
  subst hk
  refine takeEvent_kept hs.1 ho ?_
  intro e; simp [Station.kept, e] at hw

theorem awake_waitingEntry {s : Station} (h : s.Awake) : s.kept.waitingEntry = false := by
  have := h.2.2
  simp [Station.kept, this]

theorem awake_opState {s : Station} (h : s.Awake) : s.kept.opState ≠ .standby := h.2.1

/-- The station at the moment of an expiry. -/
def atMoment (m : Stamp) (s : Station) : Station := { freshOut s with keep.clock := m }

@[simp] theorem atMoment_clock (m : Stamp) (s : Station) : (atMoment m s).keep.clock = m := rfl
@[simp] theorem atMoment_now (m : Stamp) (s : Station) : (atMoment m s).now = m := rfl
@[simp] theorem atMoment_config (m : Stamp) (s : Station) : (atMoment m s).keep.config = s.keep.config := rfl
@[simp] theorem atMoment_within (m : Stamp) (s : Station) (d : Nat) : (atMoment m s).within d = Stamp.later m d := rfl
@[simp] theorem atMoment_bearer (m : Stamp) (s : Station) (l : Letter) : (atMoment m s).bearer l = s.bearer l := by
  cases l <;> rfl
@[simp] theorem atMoment_entry (m : Stamp) (s : Station) (c : Circuit) : (atMoment m s).entry c = s.entry c := rfl
@[simp] theorem atMoment_kept (m : Stamp) (s : Station) : (atMoment m s).kept = { s.kept with clock := m } := rfl
@[simp] theorem atMoment_core (m : Stamp) (s : Station) : (atMoment m s).core = { s.core with clock := m } := rfl
@[simp] theorem atMoment_light (m : Stamp) (s : Station) : (atMoment m s).light := light_of_nil rfl

theorem catchUp_freshOut (d : Stamp) (s : Station) :
    catchUp d (freshOut s) = atMoment (Stamp.moment s.now d) s := catchUp_eq d _

theorem takeExpiry_running {timer : Station → Timer} {f : Station → Station} {s : State} {d : Stamp}
    (hr : s.station.running = true) (ht : timer (freshOut s.station) = some d) :
    takeExpiry timer f s = .next { s with station := finish (f (atMoment (Stamp.moment s.station.now d) s.station)) } := by
  rw [takeExpiry_some ht hr, catchUp_freshOut]

/-- An expiry shows in `kept`. -/
theorem takeExpiry_shows {timer : Station → Timer} {f : Station → Station} {s : State} {d m : Stamp} {k : Kept}
    (hm : m = Stamp.moment s.station.now d) (hs : s.station.Awake) (ht : timer (freshOut s.station) = some d)
    (hk : (f (atMoment m s.station)).kept = k) (ho : k.opState ≠ .standby) (hw : k.waitingEntry = false) :
    ∃ t, takeExpiry timer f s = .next t ∧ t.station.kept = k := by
  refine ⟨_, takeExpiry_running hs.1 ht, ?_⟩
  rw [← hm]
  rw [← hk] at ho hw ⊢
  refine finish_kept ho ?_
  intro e; simp [Station.kept, e] at hw

/-- An expiry that posts no notice shows in `core`. -/
theorem takeExpiry_core {timer : Station → Timer} {f : Station → Station} {s : State} {d m : Stamp} {k : StationCore}
    (hm : m = Stamp.moment s.station.now d) (hs : s.station.Awake) (ht : timer (freshOut s.station) = some d)
    (hk : (f (atMoment m s.station)).core = k) (hl : (f (atMoment m s.station)).light)
    (hw : (f (atMoment m s.station)).power.progress ≠ .waitingEntry) :
    ∃ t, takeExpiry timer f s = .next t ∧ t.station.core = k := by
  refine ⟨_, takeExpiry_running hs.1 ht, ?_⟩
  rw [← hm, ← hk]
  exact finish_core hl hw

end Sys2Proof.Machine
end

