-- ==== Sys2Proof/Laws/BearerEffects.lean ====
section
/-! SUPPORT. What the bearer managers' own operations write, seen through `kept`. -/

namespace Sys2Proof.Machine

@[simp] theorem within_of_kept {s t : Station} (h : s.keep.clock = t.keep.clock) (d : Nat) :
    s.within d = t.within d := by simp [Station.within, Station.now, h]

theorem goSearching_kept_with (l : Letter) (s : Station) :
    (goSearching l s).kept = s.kept.withBearer l
      { s.bearer l with
        state := .searching, inFlight := some ⟨.scan, some (s.within 45000)⟩, camped := none, recheck := none
        owed := 0, alloc := none, rescan := none } := by
  unfold goSearching; rw [sendCommand_kept_with]; rfl

theorem chooseNetwork_kept_with (l : Letter) (s : Station) :
    (chooseNetwork l s).kept = s.kept.withBearer l
      (let r : Bearer := { s.bearer l with camped := none, recheck := none, owed := 0, alloc := none }
      match (s.bearer l).networks.find? fun n => !(s.bearer l).barred.any fun b => b.1 == n.1 with
      | some n => { r with state := .camping, inFlight := some ⟨.camp n.1, some (s.within 15000)⟩ }
      | none => { r with state := .noService, inFlight := none, rescan := some (s.within 10000) }) := by
  unfold chooseNetwork
  have he : ((s.bearer l).uncamped.unallocated).eligible =
      ((s.bearer l).networks.find? fun n => !(s.bearer l).barred.any fun b => b.1 == n.1).map (·.1) := rfl
  dsimp only; rw [he]
  cases (s.bearer l).networks.find? fun n => !(s.bearer l).barred.any fun b => b.1 == n.1 with
  | none => rw [Option.map_none]; exact putBearer_kept_with _ _ _
  | some n => rw [Option.map_some]; exact sendCommand_kept_with _ _ _ _

theorem chooseNetwork_bearer (l : Letter) (s : Station) :
    (chooseNetwork l s).bearer l =
      (let r : Bearer := { s.bearer l with camped := none, recheck := none, owed := 0, alloc := none }
      match (s.bearer l).networks.find? fun n => !(s.bearer l).barred.any fun b => b.1 == n.1 with
      | some n => { r with state := .camping, inFlight := some ⟨.camp n.1, some (s.within 15000)⟩ }
      | none => { r with state := .noService, inFlight := none, rescan := some (s.within 10000) }) := by
  unfold chooseNetwork
  have he : ((s.bearer l).uncamped.unallocated).eligible =
      ((s.bearer l).networks.find? fun n => !(s.bearer l).barred.any fun b => b.1 == n.1).map (·.1) := rfl
  dsimp only; rw [he]
  cases (s.bearer l).networks.find? fun n => !(s.bearer l).barred.any fun b => b.1 == n.1 with
  | none => rw [Option.map_none]; exact putBearer_bearer _ _ _
  | some n => rw [Option.map_some]; exact sendCommand_bearer _ _ _ _

theorem goAvailable_bearer (l : Letter) (s : Station) :
    (goAvailable l s).bearer l = { s.bearer l with alloc := none, state := .available, inFlight := none } := by
  unfold goAvailable; rw [putBearer_bearer]; rfl

theorem goAvailable_kept_with (l : Letter) (s : Station) :
    (goAvailable l s).kept = s.kept.withBearer l { s.bearer l with alloc := none, state := .available, inFlight := none } := by
  unfold goAvailable; rw [putBearer_kept_with]; rfl

theorem goChecking_bearer (l : Letter) (s : Station) :
    (goChecking l s).bearer l =
      { s.bearer l with
        alloc := none, state := .checking, owed := 0, inFlight := some ⟨.status, some (s.within 3000)⟩ } := by
  unfold goChecking; rw [sendCommand_bearer]; rfl

theorem goChecking_kept_with (l : Letter) (s : Station) :
    (goChecking l s).kept = s.kept.withBearer l ((goChecking l s).bearer l) := by
  unfold goChecking; rw [sendCommand_kept_with, sendCommand_bearer]

theorem clearTimeouts_bearer (l : Letter) (s : Station) :
    (clearTimeouts l s).bearer l = { s.bearer l with timeouts := 0 } := by simp [clearTimeouts]

theorem clearTimeouts_kept_with (l : Letter) (s : Station) :
    (clearTimeouts l s).kept = s.kept.withBearer l { s.bearer l with timeouts := 0 } := setBearer_kept_with _ _ _

theorem clearTimeouts_clock (l : Letter) (s : Station) : (clearTimeouts l s).keep.clock = s.keep.clock := by
  simp [clearTimeouts]

theorem raise_bearer (k : FaultKind) (s : Station) (l : Letter) : (raise k s).bearer l = s.bearer l := by
  cases l <;> rfl

theorem notify_work {l : Letter} {n : Notice} {s : Station} {a : Allocation} (h : (s.bearer l).alloc = some a) :
    .notice a.who l n ∈ (notify l n s).work := by simp [notify, h]

theorem goAvailable_work {l : Letter} {s : Station} (h : (s.bearer l).state ≠ .available) :
    .bearerAvailable l ∈ (goAvailable l s).work := by
  unfold goAvailable putBearer; dsimp only
  have : ((s.bearer l).state != BearerState.available) = true := by simpa using h
  simp [this]

theorem notify_clock (l : Letter) (n : Notice) (s : Station) : (notify l n s).keep.clock = s.keep.clock := by
  unfold notify; split <;> simp

theorem goSettling_kept_with (l : Letter) (s : Station) :
    (goSettling l s).kept = s.kept.withBearer l
      { s.bearer l with
        state := .settling, inFlight := none, alloc := none, dialLimit := none
        settle := some (s.within 3000) } := by
  have hw : (notify l .released s).within 3000 = s.within 3000 := within_of_kept (notify_clock _ _ _) _
  unfold goSettling; rw [putBearer_kept_with, notify_kept]; simp [Bearer.unallocated, hw]

theorem startBearer_kept_with (l : Letter) (s : Station) :
    (startBearer l s).kept = s.kept.withBearer l
      { s.bearer l with
        state := .starting, powered := true, failureWait := none
        inFlight := some ⟨.powerUp, some (s.within 20000)⟩ } := by
  unfold startBearer; rw [sendCommand_kept_with, emit_kept]; rfl

@[simp] theorem setBearer_bearer_any (l m : Letter) (r : Bearer) (s : Station) :
    (setBearer l r s).bearer m = if m = l then r else s.bearer m := by
  cases l <;> cases m <;> rfl

@[simp] theorem powerDown_kept (l : Letter) (s : Station) : (powerDown l s).kept = s.kept := rfl
@[simp] theorem powerDown_bearers (l : Letter) (s : Station) : (powerDown l s).bearers = s.bearers := rfl
@[simp] theorem powerDown_bearer (l m : Letter) (s : Station) : (powerDown l s).bearer m = s.bearer m := by
  cases m <;> rfl
@[simp] theorem powerDown_clock (l : Letter) (s : Station) : (powerDown l s).keep.clock = s.keep.clock := rfl

theorem enterFailed_kept_with (l : Letter) (s : Station) :
    (enterFailed l s).kept =
      (let old := s.bearer l
      let failed : Bearer :=
        { old with
          powered := false, inFlight := none, camped := none, recheck := none, owed := 0, alloc := none
          dialLimit := none, rescan := none, settle := none, failures := min 255 (old.failures + 1) }
      if old.powerCycles = 3 then
        let k := s.kept.withBearer l { failed with state := .failedHeld, failureWait := none }
        if (s.bearer (otherBearer l)).state = .failedHeld then k else k.raised .bearerFailed
      else s.kept.withBearer l { failed with state := .failed, failureWait := some (s.within 60000) }) := by
  unfold enterFailed; dsimp only
  generalize hu : powerDown l _ = u
  have huk : u.kept = s.kept := by
    rw [← hu]; simp; split <;> simp
  have hub : ∀ m, u.bearer m = s.bearer m := by
    intro m; rw [← hu]; simp; split <;> simp
  have huc : u.keep.clock = s.keep.clock := congrArg Kept.clock huk
  simp only [hub]
  have ho : ∀ r : Bearer, (putBearer l r u).bearer (otherBearer l) = s.bearer (otherBearer l) := by
    intro r
    rw [← hub (otherBearer l)]
    unfold putBearer; dsimp only
    cases l <;> split <;> split <;> split <;> simp [otherBearer, Station.bearer, setBearer, removeBearerBridges]
  simp only [Bearer.uncamped, Bearer.unallocated, ho, within_of_kept huc]
  split
  · split
    · rw [putBearer_kept_with, huk]
    · rw [raise_kept_raised, putBearer_kept_with, huk]
  · rw [putBearer_kept_with, huk]

end Sys2Proof.Machine
end

