-- ==== Sys2Proof/Laws/Holds.lean ====
section
/-! SUPPORT. A frame handed over stays in the transmit queue to the end of the command. -/

namespace Sys2Proof.Machine

/-- Every frame of the line interface, in service or not. -/
def Line.frames (l : Line) : List TxFrame := (l.service.map (·.frame)).toList ++ l.queue

theorem queued_iff (s : Station) (p : TxFrame → Bool) : s.queued p = true ↔ ∃ g ∈ s.line.frames, p g = true := by
  unfold Station.queued Line.frames
  cases s.line.service <;> simp [or_comm]

theorem holdsFrame_iff (s : Station) (b : TxBody) (d : Nat) :
    s.holdsFrame b d = true ↔ ∃ g ∈ s.line.frames, g.body = b ∧ g.dest = d := by
  unfold Station.holdsFrame; rw [queued_iff]; simp

theorem holdsFrame_of_line {s t : Station} (h : t.line = s.line) (b : TxBody) (d : Nat) :
    t.holdsFrame b d = s.holdsFrame b d := by
  unfold Station.holdsFrame Station.queued; rw [h]

/-- Two queues with the same frames hold the same. -/
theorem holdsFrame_of_frames {s t : Station} {b : TxBody} {d : Nat} (h : ∀ g ∈ s.line.frames, g ∈ t.line.frames)
    (hs : s.holdsFrame b d = true) : t.holdsFrame b d = true := by
  rw [holdsFrame_iff] at hs ⊢
  obtain ⟨g, hg, hb⟩ := hs
  exact ⟨g, h g hg, hb⟩

theorem mem_addToClass {f g : TxFrame} {q : List TxFrame} : g ∈ addToClass f q ↔ g = f ∨ g ∈ q := by
  unfold addToClass; split
  · have := List.takeWhile_append_dropWhile (p := fun g : TxFrame => g.body.urgent) (l := q)
    constructor
    · intro h
      simp only [List.mem_append, List.mem_singleton] at h
      rcases h with (h | h) | h
      · exact Or.inr (this ▸ List.mem_append_left _ h)
      · exact Or.inl h
      · exact Or.inr (this ▸ List.mem_append_right _ h)
    · intro h
      simp only [List.mem_append, List.mem_singleton]
      rcases h with h | h
      · exact Or.inl (Or.inr h)
      · rw [← this] at h
        rcases List.mem_append.mp h with h | h
        · exact Or.inl (Or.inl h)
        · exact Or.inr h
  · simp [or_comm]

theorem mem_returnToClass {f g : TxFrame} {q : List TxFrame} : g ∈ returnToClass f q ↔ g = f ∨ g ∈ q := by
  have := List.takeWhile_append_dropWhile (p := fun g : TxFrame => g.body.urgent) (l := q)
  unfold returnToClass
  constructor
  · intro h
    simp only [List.mem_append, List.mem_singleton] at h
    rcases h with (h | h) | h
    · exact Or.inr (this ▸ List.mem_append_left _ h)
    · exact Or.inl h
    · exact Or.inr (this ▸ List.mem_append_right _ h)
  · intro h
    simp only [List.mem_append, List.mem_singleton]
    rcases h with h | h
    · exact Or.inl (Or.inr h)
    · rw [← this] at h
      rcases List.mem_append.mp h with h | h
      · exact Or.inl (Or.inl h)
      · exact Or.inr h

theorem displace_frames (s : Station) (g : TxFrame) : g ∈ (displace s).line.frames ↔ g ∈ s.line.frames := by
  unfold displace; split
  · rename_i v hv
    split
    · simp [leaveService, Line.frames, hv, mem_returnToClass]
    · rfl
  · rfl

theorem addFrame_frames (f g : TxFrame) (s : Station) : g ∈ (addFrame f s).line.frames ↔ g = f ∨ g ∈ s.line.frames := by
  have key : ∀ t : Station, g ∈ Line.frames { t.line with queue := addToClass f t.line.queue } ↔
      g = f ∨ g ∈ t.line.frames := by
    intro t
    simp only [Line.frames, List.mem_append, mem_addToClass]
    constructor
    · rintro (h | h | h)
      · exact Or.inr (Or.inl h)
      · exact Or.inl h
      · exact Or.inr (Or.inr h)
    · rintro (h | h | h)
      · exact Or.inr (Or.inl h)
      · exact Or.inl h
      · exact Or.inr (Or.inr h)
  unfold addFrame; dsimp only
  rw [key]; split
  · rw [displace_frames]
  · rfl

theorem displace_total (s : Station) : (displace s).line.total = s.line.total := by
  unfold displace; split
  · rename_i v hv
    split
    · have := congrArg List.length (List.takeWhile_append_dropWhile (p := fun g : TxFrame => g.body.urgent) (l := s.line.queue))
      rw [List.length_append] at this
      simp [leaveService, Line.total, hv, returnToClass]; omega
    · rfl
  · rfl

theorem addFrame_total (f : TxFrame) (s : Station) : (addFrame f s).line.total = s.line.total + 1 := by
  have key : ∀ t : Station, Line.total { t.line with queue := addToClass f t.line.queue } = t.line.total + 1 := by
    intro t
    have := congrArg List.length
      (List.takeWhile_append_dropWhile (p := fun g : TxFrame => g.body.urgent) (l := t.line.queue))
    simp only [Line.total, addToClass]; split
    · rw [List.length_append] at this
      simp; omega
    · simp; omega
  unfold addFrame; dsimp only
  rw [key]; split
  · rw [displace_total]
  · rfl

/-- Where the queue has room a frame handed over joins it, and nothing else happens to the frames. -/
theorem handOver_room {b : TxBody} {d : Nat} {s : Station} (ht : s.takesFrame b d = true) (hr : s.line.total < 8) :
    handOver b d s = addFrame { body := b, dest := d, attempts := 0, begun := false } s := by
  simp [handOver, ht, hr]

theorem handOver_holds {b : TxBody} {d : Nat} {s : Station} (ht : s.takesFrame b d = true) (hr : s.line.total < 8) :
    (handOver b d s).holdsFrame b d = true := by
  rw [handOver_room ht hr, holdsFrame_iff]
  exact ⟨_, (addFrame_frames _ _ _).mpr (Or.inl rfl), rfl, rfl⟩

theorem handOver_keeps {b c : TxBody} {d e : Nat} {s : Station} (hr : s.line.total < 8)
    (h : s.holdsFrame c e = true) : (handOver b d s).holdsFrame c e = true := by
  by_cases ht : s.takesFrame b d = true
  · rw [handOver_room ht hr]
    exact holdsFrame_of_frames (fun g hg => (addFrame_frames _ _ _).mpr (Or.inr hg)) h
  · simp [handOver, ht, h]

theorem reportDrop_line (b : TxBody) (s : Station) : (reportDrop b s).line = s.line := by
  unfold reportDrop; cases b <;> rfl

/-- Handing over a ROUTINE frame drops no other. -/
theorem handOver_routine_keeps {b c : TxBody} {d e : Nat} {s : Station} (hb : b.urgent = false)
    (h : s.holdsFrame c e = true) : (handOver b d s).holdsFrame c e = true := by
  by_cases ht : s.takesFrame b d = true
  · by_cases hr : s.line.total < 8
    · exact handOver_keeps hr h
    · simp [handOver, ht, hr, hb, holdsFrame_of_line (reportDrop_line b s) c e, h]
  · simp [handOver, ht, h]

theorem mapAnnounce_keeps {f : TxBody → TxBody} {c : TxBody} {e : Nat} {s : Station} (hf : f c = c)
    (h : s.holdsFrame c e = true) : (mapAnnounce f s).holdsFrame c e = true := by
  rw [holdsFrame_iff] at h ⊢
  obtain ⟨g, hg, hb, hd⟩ := h
  refine ⟨{ g with body := f g.body }, ?_, by simp [hb, hf], hd⟩
  simp only [mapAnnounce, Line.frames, List.mem_append] at hg ⊢
  rcases hg with hg | hg
  · left; cases hv : s.line.service <;> simp [hv] at hg ⊢; simp [hg]
  · right; exact List.mem_map_of_mem hg

theorem mergedWith_other {b : TxBody} (h : b.isAnnounce = false) (x y : Bool) : b.mergedWith x y = b := by
  cases b <;> simp [TxBody.isAnnounce, TxBody.mergedWith] at h ⊢

theorem mergeAnnounce_keeps {x y : Bool} {c : TxBody} {e : Nat} {s : Station} (hc : c.isAnnounce = false)
    (h : s.holdsFrame c e = true) : (mergeAnnounce x y s).holdsFrame c e = true := by
  unfold mergeAnnounce; split
  · dsimp only
    have := mapAnnounce_keeps (mergedWith_other hc x y) h
    split
    · rw [← this]; exact holdsFrame_of_line rfl _ _
    · exact this
  · exact handOver_routine_keeps rfl (by rw [← h]; exact holdsFrame_of_line rfl _ _)

theorem announceCause_keeps {y : Bool} {c : TxBody} {e : Nat} {s : Station} (hc : c.isAnnounce = false)
    (h : s.holdsFrame c e = true) : (announceCause y s).holdsFrame c e = true := by
  unfold announceCause; split
  · split
    · exact h
    · exact h
    · exact mergeAnnounce_keeps hc h
    · exact mergeAnnounce_keeps hc h
  · exact h

theorem startPeriod_line (s : Station) : (startPeriod s).line = s.line := by
  unfold startPeriod; split <;> rfl

theorem announceWasDropped_keeps {x : Bool} {c : TxBody} {e : Nat} {s : Station} (hc : c.isAnnounce = false)
    (h : s.holdsFrame c e = true) : (announceWasDropped x s).holdsFrame c e = true := by
  unfold announceWasDropped; dsimp only
  have hs : (startPeriod { s with announcing.mark := false, announcing.markSolicit := false }).holdsFrame c e = true := by
    rw [holdsFrame_of_line (startPeriod_line _)]; rw [← h]; exact holdsFrame_of_line rfl _ _
  split
  · split
    · exact mergeAnnounce_keeps hc (by rw [← hs]; exact holdsFrame_of_line rfl _ _)
    · rw [← hs]; exact holdsFrame_of_line rfl _ _
  · exact hs

theorem abandonStandby_keeps {c : TxBody} {e : Nat} {s : Station} (hc : c.isAnnounce = false)
    (h : s.holdsFrame c e = true) : (abandonStandby s).holdsFrame c e = true := by
  unfold abandonStandby; dsimp only; split
  · exact h
  · exact h
  · have hm := mapAnnounce_keeps (f := TxBody.mergedWith false (s.announcing.heldBack.getD false)) (e := e)
      (s := { s with power.progress := .none, announcing.heldBack := none }) (mergedWith_other hc _ _)
      (by rw [← h]; exact holdsFrame_of_line rfl _ _)
    split
    · rw [← hm]; exact holdsFrame_of_line rfl _ _
    · exact hm
  · exact mergeAnnounce_keeps hc (by rw [← h]; exact holdsFrame_of_line rfl _ _)

theorem keepIdle_keeps {c : TxBody} {e : Nat} {s : Station} (h : s.holdsFrame c e = true) :
    (keepIdle s).holdsFrame c e = true := by
  obtain ⟨x, hx⟩ := keepIdle_eq s
  rw [hx, ← h]; exact holdsFrame_of_line rfl _ _

theorem standbyCheck_keeps {c : TxBody} {e : Nat} {s : Station} (hc : c.isAnnounce = false)
    (hp : s.power.progress ≠ .waitingEntry) (h : s.holdsFrame c e = true) : (standbyCheck s).holdsFrame c e = true := by
  unfold standbyCheck; split <;> rename_i he
  · exact keepIdle_keeps h
  · split
    · exact abandonStandby_keeps hc h
    · split
      · exact mergeAnnounce_keeps hc (by rw [← h]; exact holdsFrame_of_line rfl _ _)
      · exact h
  · split
    · exact abandonStandby_keeps hc h
    · exact h
  · exact absurd he hp

theorem keepStall_line (s : Station) : (keepStall s).line = s.line := by
  unfold keepStall; repeat' split
  all_goals rfl

theorem markReload_line (s : Station) : (markReload s).line = s.line := by
  unfold markReload; repeat' split
  all_goals rfl

theorem upkeep_keeps {c : TxBody} {e : Nat} {s : Station} (hc : c.isAnnounce = false)
    (hp : s.power.progress ≠ .waitingEntry) (h : s.holdsFrame c e = true) : (upkeep s).holdsFrame c e = true := by
  have hk : (markReload (keepStall s)).kept = s.kept := by simp
  refine standbyCheck_keeps hc (kept_waitingEntry hk hp) ?_
  rw [holdsFrame_of_line (markReload_line _), holdsFrame_of_line (keepStall_line _), h]

theorem drain_keeps {c : TxBody} {e : Nat} (n : Nat) {s : Station} (hc : c.isAnnounce = false) (hl : s.light)
    (h : s.holdsFrame c e = true) : (drain n s).holdsFrame c e = true := by
  induction n generalizing s with
  | zero => exact h
  | succ n ih =>
    unfold drain; split
    · exact h
    · rename_i t rest hw
      obtain ⟨b, rfl⟩ := hl t (by rw [hw]; exact List.mem_cons_self)
      have hr : Station.light { s with work := rest } := fun u hu => hl u (by rw [hw]; exact List.mem_cons_of_mem _ hu)
      exact ih (announceWasDropped_light b hr)
        (announceWasDropped_keeps hc (by rw [← h]; exact holdsFrame_of_line rfl _ _))

theorem lineDraw_keeps {c : TxBody} {d e : Nat} {s : Station} (h : s.holdsFrame c e = true) :
    (lineDraw d s).holdsFrame c e = true := by
  refine holdsFrame_of_frames (fun g hg => ?_) h
  unfold lineDraw; split
  · rename_i f hv; simpa [Line.frames, hv] using hg
  · exact hg

theorem requestDraw_line (c : Consumer) (s : Station) : (requestDraw c s).2.line = s.line := by
  unfold requestDraw; repeat' split
  all_goals rfl

theorem enterService_keeps {c : TxBody} {e : Nat} {f : TxFrame} {s : Station}
    (h : Station.holdsFrame { s with line.service := some ⟨f, .waitingDraw⟩ } c e = true) :
    (enterService f s).holdsFrame c e = true := by
  unfold enterService requestLineDraw
  split <;> rename_i heq <;> have hk := congrArg (fun p => p.2.line) heq <;> simp only [requestDraw_line] at hk
  · exact lineDraw_keeps (by rw [← h]; exact holdsFrame_of_line hk.symm _ _)
  · rw [← h]; exact holdsFrame_of_line hk.symm _ _

theorem tryAttempt_keeps {c : TxBody} {e : Nat} {s : Station} (h : s.holdsFrame c e = true) :
    (tryAttempt s).holdsFrame c e = true := by
  unfold tryAttempt; split
  · rename_i f hv
    split
    · rw [holdsFrame_iff] at h ⊢
      obtain ⟨g, hg, hb, hd⟩ := h
      simp only [Line.frames, hv, Option.map_some, Option.toList_some, List.mem_append, List.mem_singleton] at hg
      rcases hg with hg | hg
      · subst hg
        exact ⟨{ g with attempts := g.attempts + 1, begun := true }, by simp [Line.frames, emit], hb, hd⟩
      · exact ⟨g, by simp [Line.frames, emit, hg], hb, hd⟩
    · exact h
  · exact h

theorem pump_keeps {c : TxBody} {e : Nat} {s : Station} (h : s.holdsFrame c e = true) :
    (pump s).holdsFrame c e = true := by
  unfold pump; split
  · rename_i f rest hv hq
    refine tryAttempt_keeps (enterService_keeps (holdsFrame_of_frames (fun g hg => ?_) h))
    simpa [Line.frames, hv, hq] using hg
  · exact tryAttempt_keeps h

/-- A frame that stands in the queue when a command has posted no notice but of dropped ANNOUNCE frames stands there at
the command's end. -/
theorem finish_holds {c : TxBody} {e : Nat} {s : Station} (hc : c.isAnnounce = false) (hl : s.light)
    (hp : s.power.progress ≠ .waitingEntry) (h : s.holdsFrame c e = true) : (finish s).holdsFrame c e = true := by
  obtain ⟨c1, l1, k1⟩ := drain_light 256 hl
  have hp1 := kept_waitingEntry k1 hp
  unfold finish
  exact pump_keeps
    (keepIdle_keeps (drain_keeps _ hc (upkeep_light hp1 l1) (upkeep_keeps hc hp1 (drain_keeps _ hc hl h))))

end Sys2Proof.Machine
end

