-- ==== Sys2Proof/Laws/FrameEffects.lean ====
section
/-! SUPPORT. A frame from a peer that passes its checks reaches its owners; what taking it in leaves as it was. -/

namespace Sys2Proof.Machine

/-- The station when a frame has been assembled and its sender's entry refreshed (R4, R142). -/
def heardFrom (source : Nat) (s : Station) : Station :=
  refreshPeer source { freshOut s with line.assembly := .skipping, line.gap := false }

/-- The checks of R143 on an assembled frame, the assembly skipping already. -/
def judgeFrame (kind : Nat) (f : RxFrame) (owners : Station → Station) (s : Station) : Station :=
  if !frameCheckOk kind f then raise .frameCheck s
  else if s.power.opState = .start || !s.segmentOk kind f then s
  else if s.power.opState == .active && s.isOwn f.source.toNat then addressClash s
  else if frameAddressesDefined f then owners s
  else s

/-- A frame is assembled while nothing is sent and the assembly does not skip (R142). -/
theorem receive_assembled {kind : Nat} {f : RxFrame} {owners : Station → Station} {s : Station}
    (ht : s.transmitting = false) (hs : s.line.assembly ≠ .skipping) :
    receiveFrame kind f owners s = judgeFrame kind f owners { s with line.assembly := .skipping, line.gap := false } := by
  unfold receiveFrame
  rw [if_neg (by simp [ht, hs])]
  rfl

/-- A frame is not assembled while an attempt is in progress or the assembly skips (R142). -/
theorem receive_unheard {kind : Nat} {f : RxFrame} {owners : Station → Station} {s : Station}
    (h : s.transmitting = true ∨ s.line.assembly = .skipping) : receiveFrame kind f owners s = s := by
  unfold receiveFrame
  rw [if_pos (by rcases h with h | h <;> simp [h])]

/-- A frame whose check value is wrong raises FRAME_CHECK and reaches nobody (R143). -/
theorem judge_wrong {kind : Nat} {f : RxFrame} {owners : Station → Station} {s : Station}
    (hc : frameCheckOk kind f = false) : judgeFrame kind f owners s = raise .frameCheck s := by
  unfold judgeFrame; rw [if_pos (by simp [hc])]

/-- A frame that passes every check reaches its owners. -/
theorem judge_passed {kind : Nat} {f : RxFrame} {owners : Station → Station} {s : Station}
    (hc : frameCheckOk kind f = true) (ho : s.power.opState ≠ .start) (hg : s.segmentOk kind f = true)
    (hi : s.isOwn f.source.toNat = false) (ha : frameAddressesDefined f = true) :
    judgeFrame kind f owners s = owners s := by
  unfold judgeFrame
  rw [if_neg (by simp [hc]), if_neg (by simp [ho, hg]), if_neg (by simp [hi]), if_pos ha]

/-- A frame of a peer that passes every check reaches its owner with its body, its sender refreshed (R4, R143, R144). -/
theorem judge_peer {α : Type} {kind : Nat} {f : RxFrame} {s : Station} {read : List Byte → Option α} {b : α}
    {owners : α → Station → Station} (ho : s.power.opState = .active) (hc : frameCheckOk kind f = true)
    (hg : s.config.segment = some f.segment) (hp : s.isPeer f.source.toNat = true)
    (hd : addressDefined f.dest = true) (hb : read f.body = some b) :
    judgeFrame kind f (fromPeer f read owners) s = owners b (refreshPeer f.source.toNat s) := by
  have hp' : 1 ≤ f.source.toNat ∧ f.source.toNat ≤ 32 ∧ s.isOwn f.source.toNat = false := by
    simp [Station.isPeer] at hp; exact ⟨hp.1.1, hp.1.2, hp.2⟩
  have hne : f.source ≠ 0 := by
    intro e; rw [e] at hp'; exact absurd hp'.1 (by decide)
  have ha : frameAddressesDefined f = true := by
    have hs : addressDefined f.source = true := by simp [addressDefined, hp'.2.1]
    simp [frameAddressesDefined, hd, hs]
  rw [judge_passed hc (by simp [ho]) (by simp [Station.segmentOk, hg]) hp'.2.2 ha]
  unfold fromPeer
  rw [if_pos ⟨ho, hne⟩]
  simp only [hb]

/-- A frame that is heard reaches its owner with its body. -/
theorem receive_heard {α : Type} {kind : Nat} {f : RxFrame} {s : Station} {read : List Byte → Option α} {b : α}
    {owners : α → Station → Station} (h : s.Hears kind f) (hb : read f.body = some b) :
    receiveFrame kind f (fromPeer f read owners) (freshOut s) = owners b (heardFrom f.source.toNat s) := by
  obtain ⟨-, ho, ht, hs, hc, hg, hp, hd⟩ := h
  have hw : ∀ w : Station, w = { freshOut s with line.assembly := .skipping, line.gap := false } →
      judgeFrame kind f (fromPeer f read owners) w = owners b (refreshPeer f.source.toNat w) := by
    intro w e
    have hk : w.config = s.config := by rw [e]; rfl
    exact judge_peer (by rw [e]; exact ho) hc (by rw [hk]; exact hg)
      (by rw [← hp]; simp [Station.isPeer, Station.isOwn, hk]) hd hb
  exact (receive_assembled (s := freshOut s) ht hs).trans (hw _ rfl)

/-- The station when a frame has been assembled (R142). -/
def assembled (s : Station) : Station := { freshOut s with line.assembly := .skipping, line.gap := false }

/-- A service frame that is taken is answered (R181). -/
theorem takeService_served {kind : Nat} {f : RxFrame} {s : State} {b : Byte × Byte}
    {respond : Byte → Byte → Station → Station} (h : s.station.Serves kind f) (hb : readService f.body = some b) :
    takeService kind f respond s = .next { s with station := finish (respond b.1 b.2 (assembled s.station)) } := by
  obtain ⟨ha, ht, hs, hc, hg, hi, hd, hv⟩ := h
  have hsrc : f.source.toNat = 0 := by simp [Station.servesFrame] at hv; simp [hv.1]
  have hw : ∀ w : Station, w = assembled s.station → judgeFrame kind f (fun s =>
      match readService f.body with
      | some b => if s.servesFrame f.source f.dest then respond b.1 b.2 s else s
      | none => s) w = respond b.1 b.2 w := by
    intro w e
    have hk : w.config = s.station.config := by rw [e]; rfl
    have hp : w.power = s.station.power := by rw [e]; rfl
    have hvw : w.servesFrame f.source f.dest = true := by
      rw [← hv]; simp [Station.servesFrame, hp, Station.isOwn, hk]
    rw [judge_passed hc]
    · simp only [hb, hvw]; rfl
    · intro e
      rw [hp] at e
      simp [Station.servesFrame, e] at hv
    · simpa [Station.segmentOk, hk] using hg
    · rw [hsrc]; simpa [Station.isOwn, hk] using hi
    · have : addressDefined f.source = true := by simp [addressDefined, hsrc]
      simp [frameAddressesDefined, this, hd]
  unfold takeService
  rw [takeEvent_running ha.1, receive_assembled (s := freshOut s.station) ht hs]
  exact congrArg (fun w => Host.Outcome.next { s with station := finish w }) (hw _ rfl)

@[simp] theorem heardFrom_call (a : Nat) (s : Station) : (heardFrom a s).call = s.call := by
  unfold heardFrom refreshPeer; split <;> rfl
@[simp] theorem heardFrom_circuits (a : Nat) (s : Station) : (heardFrom a s).circuits = s.circuits := by
  unfold heardFrom refreshPeer; split <;> rfl
@[simp] theorem heardFrom_keep (a : Nat) (s : Station) : (heardFrom a s).keep = s.keep := by
  unfold heardFrom refreshPeer; split <;> rfl
@[simp] theorem heardFrom_power (a : Nat) (s : Station) : (heardFrom a s).power = s.power := by
  unfold heardFrom refreshPeer; split <;> rfl
@[simp] theorem heardFrom_bearers (a : Nat) (s : Station) : (heardFrom a s).bearers = s.bearers := by
  unfold heardFrom refreshPeer; split <;> rfl
@[simp] theorem heardFrom_audio (a : Nat) (s : Station) : (heardFrom a s).audio = s.audio := by
  unfold heardFrom refreshPeer; split <;> rfl
@[simp] theorem heardFrom_panel (a : Nat) (s : Station) : (heardFrom a s).panel = s.panel := by
  unfold heardFrom refreshPeer; split <;> rfl
@[simp] theorem heardFrom_reports (a : Nat) (s : Station) : (heardFrom a s).reports = s.reports := by
  unfold heardFrom refreshPeer; split <;> rfl
@[simp] theorem heardFrom_cabinet (a : Nat) (s : Station) : (heardFrom a s).cabinet = s.cabinet := by
  unfold heardFrom refreshPeer; split <;> rfl
@[simp] theorem heardFrom_draw (a : Nat) (s : Station) : (heardFrom a s).draw = s.draw := by
  unfold heardFrom refreshPeer; split <;> rfl
@[simp] theorem heardFrom_announcing (a : Nat) (s : Station) : (heardFrom a s).announcing = s.announcing := by
  unfold heardFrom refreshPeer; split <;> rfl
@[simp] theorem heardFrom_free (a : Nat) (s : Station) : (heardFrom a s).free = s.free := by
  unfold heardFrom refreshPeer; split <;> rfl
@[simp] theorem heardFrom_work (a : Nat) (s : Station) : (heardFrom a s).work = [] := by
  unfold heardFrom refreshPeer; split <;> rfl
@[simp] theorem heardFrom_line (a : Nat) (s : Station) :
    (heardFrom a s).line = { s.line with assembly := .skipping, gap := false } := by
  unfold heardFrom refreshPeer; split <;> rfl
@[simp] theorem heardFrom_total (a : Nat) (s : Station) : (heardFrom a s).line.total = s.line.total := by
  simp [Line.total]
@[simp] theorem heardFrom_isOwn (a b : Nat) (s : Station) : (heardFrom a s).isOwn b = s.isOwn b := by
  simp [Station.isOwn, Station.config]
@[simp] theorem heardFrom_now (a : Nat) (s : Station) : (heardFrom a s).now = s.now := by simp [Station.now]
@[simp] theorem heardFrom_within (a d : Nat) (s : Station) : (heardFrom a s).within d = s.within d := by
  simp [Station.within]
@[simp] theorem heardFrom_entry (a : Nat) (c : Circuit) (s : Station) : (heardFrom a s).entry c = s.entry c := by
  simp [Station.entry]
@[simp] theorem heardFrom_bearer (a : Nat) (l : Letter) (s : Station) : (heardFrom a s).bearer l = s.bearer l := by
  cases l <;> simp [Station.bearer]
@[simp] theorem heardFrom_effective (a : Nat) (s : Station) :
    (heardFrom a s).directory.effective = s.directory.effective := by
  unfold heardFrom refreshPeer; split <;> rfl

theorem heardFrom_core (a : Nat) (s : Station) :
    (heardFrom a s).core = { s.core with directory := (heardFrom a s).directory } := by
  simp [Station.core]

theorem heardFrom_light (a : Nat) (s : Station) : (heardFrom a s).light := light_of_nil (heardFrom_work a s)

/-! ### A refresh leaves the ranking as it was -/

theorem map_insertBy {α β : Type} (g : α → β) (p : α → α → Bool) (q : β → β → Bool) (h : ∀ x y, q (g x) (g y) = p x y)
    (x : α) (l : List α) : (insertBy p x l).map g = insertBy q (g x) (l.map g) := by
  induction l with
  | nil => rfl
  | cons y ys ih => simp only [insertBy, List.map_cons, h]; split <;> simp [ih]

theorem map_sortBy {α β : Type} (g : α → β) (p : α → α → Bool) (q : β → β → Bool) (h : ∀ x y, q (g x) (g y) = p x y)
    (l : List α) : (sortBy p l).map g = sortBy q (l.map g) := by
  induction l with
  | nil => rfl
  | cons x xs ih => simp only [sortBy, List.map_cons, map_insertBy g p q h, ih]

@[simp] theorem heardFrom_ranking (a : Nat) (x : List Nat) (s : Station) : (heardFrom a s).ranking x = s.ranking x := by
  have hc : (heardFrom a s).config = s.config := by simp [Station.config]
  have ht : (heardFrom a s).tagOrigin = s.tagOrigin := by simp [Station.tagOrigin, hc]
  let g : PeerEntry → PeerEntry := fun e => if e.address = a then { e with lastHeard := s.now } else e
  have he : (heardFrom a s).directory.entries = s.directory.entries ∨
      (heardFrom a s).directory.entries = s.directory.entries.map g := by
    unfold heardFrom refreshPeer; split
    · exact Or.inr rfl
    · exact Or.inl rfl
  unfold Station.ranking Station.rankedEntries
  rw [hc, ht]
  rcases he with he | he
  · rw [he]
  · have ga : ∀ e, (g e).address = e.address := by intro e; simp only [g]; split <;> rfl
    have gs : ∀ e, (g e).summaries = e.summaries := by intro e; simp only [g]; split <;> rfl
    have gc : ∀ e, isCandidate s.config.lendMinimum x (g e) = isCandidate s.config.lendMinimum x e := by
      intro e
      have h1 : (g e).power = e.power := by simp only [g]; split <;> rfl
      have h2 : (g e).lendReady = e.lendReady := by simp only [g]; split <;> rfl
      simp [isCandidate, ga, gs, h1, h2]
    have gr : ∀ e f, ranksBefore s.tagOrigin s.config.lendMinimum (g e) (g f) =
        ranksBefore s.tagOrigin s.config.lendMinimum e f := by
      intro e f
      have go : ∀ e, offeredGrade s.config.lendMinimum (g e) = offeredGrade s.config.lendMinimum e := by
        intro e; unfold offeredGrade; rw [gs]
      unfold ranksBefore; rw [go, go, ga, ga]
    rw [he, List.filter_map]
    have hf : (isCandidate s.config.lendMinimum x ∘ g) = isCandidate s.config.lendMinimum x := by
      funext e; exact gc e
    rw [hf, ← map_sortBy g _ _ gr, List.map_map]
    exact List.map_congr_left fun e _ => ga e

end Sys2Proof.Machine
end

