-- ==== Sys2Proof/Laws/CallEffects.lean ====
section
/-! SUPPORT. What entering a phase, asking a lender and taking an addressed frame leave: the core, the notices, the power
unit. -/

namespace Sys2Proof.Machine

/-- The directory of a station that has heard a frame is that of a station whose sender's entry is refreshed (R4). -/
theorem heardFrom_directory (a : Nat) (s : Station) :
    (heardFrom a s).directory = (refreshPeer a s).directory := by
  have h : ∀ w : Station, w.keep = s.keep → w.directory = s.directory →
      (refreshPeer a w).directory = (refreshPeer a s).directory := by
    intro w hk hd
    unfold refreshPeer Station.isPeer Station.isOwn Station.config Station.now
    rw [hk, hd]; split <;> simp [hd]
  exact h _ rfl rfl

/-- A frame addressed to this station that is heard reaches its owner with its body (R144). -/
theorem takeAddressed_heard {α : Type} {kind : Nat} {f : RxFrame} {s : State} {read : List Byte → Option α} {b : α}
    {owner : α → Station → Station} (h : s.station.Hears kind f) (hd : s.station.isOwn f.dest.toNat = true)
    (hb : read f.body = some b) :
    takeAddressed kind f read owner s =
      .next { s with station := finish (owner b (heardFrom f.source.toNat s.station)) } := by
  unfold takeAddressed
  rw [takeEvent_running h.1.1]
  refine congrArg (fun w => Host.Outcome.next { s with station := finish w }) ((receive_heard h hb).trans ?_)
  unfold whenAddressed
  rw [if_pos (by simpa using hd)]

/-- The panel and the bridges when a phase before connect has been entered: CONNECTING is shown and a FAILED period has
ended, but within a recovery, where both stay (R66, R115, R116). -/
theorem enterPhase_core {p : Phase} {d : Timer} {o : Origin} {s : Station} (h : s.call.origin = some o) :
    (enterPhase p d s).core =
      { s.core with
        panel :=
          if o.phase = .recovering then s.panel
          else { s.panel with failed := none, tone := .connecting, lamp := .slowFlash }
        audio :=
          if o.phase ≠ .recovering ∧ s.panel.failed.isSome = true then s.audio.filter fun b => b.owner != .panel
          else s.audio
        call := { s.call with origin := some (o.enter p d) } } := by
  unfold enterPhase; simp only [h]
  split
  · rename_i hp; simp [hp, updOrigin, h, Station.core]
  · rename_i hp
    unfold showConnecting showNotice endFailed
    simp [hp, updOrigin, h, Station.core, removeBridges]
    split
    · simp
    · cases hfl : s.panel.failed <;> simp_all

theorem enterPhase_work (p : Phase) (d : Timer) (s : Station) : (enterPhase p d s).work = s.work := by
  unfold enterPhase showConnecting showNotice endFailed; dsimp only
  repeat' split
  all_goals rfl

theorem enterPhase_power (p : Phase) (d : Timer) (s : Station) : (enterPhase p d s).power = s.power := by
  unfold enterPhase showConnecting showNotice endFailed; dsimp only
  repeat' split
  all_goals rfl

theorem enterPhase_line (p : Phase) (d : Timer) (s : Station) : (enterPhase p d s).line = s.line := by
  unfold enterPhase showConnecting showNotice endFailed; dsimp only
  repeat' split
  all_goals rfl

end Sys2Proof.Machine
end

