-- ==== Sys2Proof/Laws/Picture.lean ====
section
/-! SUPPORT. What every operation leaves of a station's configuration, operating state and directory (`Station.picture`), and
how a predicate over them is carried through a step. -/

namespace Sys2Proof.Machine

/-- The configuration copy, the operating state and the directory. -/
def Station.picture (s : Station) : Option Configuration × OpState × Directory :=
  (s.keep.config, s.power.opState, s.directory)

theorem picture_of_kept {s t : Station} (h : s.kept = t.kept) : s.picture = t.picture :=
  Prod.ext (congrArg Kept.config h) (Prod.ext (congrArg Kept.opState h) (congrArg Kept.directory h))

theorem picture_of {s t : Station} (hc : s.keep.config = t.keep.config) (ho : s.power.opState = t.power.opState)
    (hd : s.directory = t.directory) : s.picture = t.picture := Prod.ext hc (Prod.ext ho hd)

theorem picture_config {s t : Station} (h : s.picture = t.picture) : s.keep.config = t.keep.config := congrArg (·.1) h
theorem picture_opState {s t : Station} (h : s.picture = t.picture) : s.power.opState = t.power.opState :=
  congrArg (·.2.1) h
theorem picture_directory {s t : Station} (h : s.picture = t.picture) : s.directory = t.directory :=
  congrArg (·.2.2) h

/-! ### Operations that change nothing of it -/

@[simp] theorem freshOut_picture (s : Station) : (freshOut s).picture = s.picture := rfl
@[simp] theorem emit_picture (o : Output) (s : Station) : (emit o s).picture = s.picture := rfl
@[simp] theorem post_picture (t : Task) (s : Station) : (post t s).picture = s.picture := rfl
@[simp] theorem postFirst_picture (t : Task) (s : Station) : (postFirst t s).picture = s.picture := rfl
@[simp] theorem raise_picture (k : FaultKind) (s : Station) : (raise k s).picture = s.picture := rfl
@[simp] theorem updOrigin_picture (f : Origin → Origin) (s : Station) : (updOrigin f s).picture = s.picture := rfl
@[simp] theorem updCarrier_picture (t : Tag) (f : Carrier → Carrier) (s : Station) :
    (updCarrier t f s).picture = s.picture := rfl
@[simp] theorem updReport_picture (t : Tag) (f : ReportEntry → ReportEntry) (s : Station) :
    (updReport t f s).picture = s.picture := rfl
@[simp] theorem updRelay_picture (t : Tag) (f : RelayEntry → RelayEntry) (s : Station) :
    (updRelay t f s).picture = s.picture := rfl
@[simp] theorem withdrawDraw_picture (c : Consumer) (s : Station) : (withdrawDraw c s).picture = s.picture := rfl
@[simp] theorem setBearer_picture (l : Letter) (r : Bearer) (s : Station) : (setBearer l r s).picture = s.picture := by
  cases l <;> rfl
@[simp] theorem catchUp_picture (d : Stamp) (s : Station) : (catchUp d s).picture = s.picture := by
  unfold catchUp; split <;> rfl
@[simp] theorem notify_picture (l : Letter) (n : Notice) (s : Station) : (notify l n s).picture = s.picture := by
  unfold notify; split <;> rfl
@[simp] theorem handOver_picture (b : TxBody) (d : Nat) (s : Station) : (handOver b d s).picture = s.picture :=
  picture_of_kept (by simp)
@[simp] theorem announceCause_picture (b : Bool) (s : Station) : (announceCause b s).picture = s.picture :=
  picture_of_kept (by simp)
@[simp] theorem mergeAnnounce_picture (b c : Bool) (s : Station) : (mergeAnnounce b c s).picture = s.picture :=
  picture_of_kept (by simp)
@[simp] theorem createOrigin_picture (m : Mode) (s : Station) : (createOrigin m s).picture = s.picture :=
  picture_of_kept (by simp)
@[simp] theorem handReport_picture (e : CabinetEvent) (s : Station) : (handReport e s).picture = s.picture :=
  picture_of_kept (by simp)
@[simp] theorem releaseFor_picture (w : Claimant) (l : Letter) (s : Station) : (releaseFor w l s).picture = s.picture :=
  picture_of_kept (by simp)

theorem foldl_picture {α : Type} (f : Station → α → Station) (h : ∀ s x, (f s x).picture = s.picture) (l : List α)
    (s : Station) : (l.foldl f s).picture = s.picture := by
  induction l generalizing s with
  | nil => rfl
  | cons x l ih => rw [List.foldl_cons, ih, h]

/-! ### Bearer operations -/

@[simp] theorem putBearer_picture (l : Letter) (r : Bearer) (s : Station) : (putBearer l r s).picture = s.picture := by
  unfold putBearer; dsimp only
  generalize hu : (if (s.bearer l).state == .inCall && r.state != .inCall then removeBearerBridges l s else s) = u
  have : u.picture = s.picture := by rw [← hu]; split <;> rfl
  split <;> split <;> simp [this]

@[simp] theorem sendCommand_picture (l : Letter) (c : Command) (r : Bearer) (s : Station) :
    (sendCommand l c r s).picture = s.picture := by simp [sendCommand]
@[simp] theorem goSearching_picture (l : Letter) (s : Station) : (goSearching l s).picture = s.picture := by
  simp [goSearching]
@[simp] theorem chooseNetwork_picture (l : Letter) (s : Station) : (chooseNetwork l s).picture = s.picture := by
  unfold chooseNetwork; dsimp only; split <;> simp
@[simp] theorem goAvailable_picture (l : Letter) (s : Station) : (goAvailable l s).picture = s.picture := by
  simp [goAvailable]
@[simp] theorem goChecking_picture (l : Letter) (s : Station) : (goChecking l s).picture = s.picture := by
  simp [goChecking]
@[simp] theorem goSettling_picture (l : Letter) (s : Station) : (goSettling l s).picture = s.picture := by
  simp [goSettling]
@[simp] theorem hangUp_picture (l : Letter) (s : Station) : (hangUp l s).picture = s.picture := by simp [hangUp]
@[simp] theorem sendDial_picture (l : Letter) (s : Station) : (sendDial l s).picture = s.picture := by simp [sendDial]
@[simp] theorem startBearer_picture (l : Letter) (s : Station) : (startBearer l s).picture = s.picture := by
  simp [startBearer]
@[simp] theorem powerDown_picture (l : Letter) (s : Station) : (powerDown l s).picture = s.picture := rfl
@[simp] theorem powerDownIfPowered_picture (l : Letter) (s : Station) : (powerDownIfPowered l s).picture = s.picture := by
  unfold powerDownIfPowered; split <;> rfl
@[simp] theorem clearBearers_picture (s : Station) : (clearBearers s).picture = s.picture := by
  have h : ∀ (t : Station) (b : Bearers), Station.picture { t with bearers := b } = t.picture := fun _ _ => rfl
  simp [clearBearers, h]
@[simp] theorem enterFailed_picture (l : Letter) (s : Station) : (enterFailed l s).picture = s.picture := by
  unfold enterFailed; dsimp only
  repeat' split
  all_goals simp
@[simp] theorem clearTimeouts_picture (l : Letter) (s : Station) : (clearTimeouts l s).picture = s.picture := by
  simp [clearTimeouts]
@[simp] theorem hangUpAnswered_picture (l : Letter) (s : Station) : (hangUpAnswered l s).picture = s.picture := by
  unfold hangUpAnswered; dsimp only; repeat' split
  all_goals simp
@[simp] theorem recampFailed_picture (l : Letter) (s : Station) : (recampFailed l s).picture = s.picture := by
  simp [recampFailed]
@[simp] theorem lostInEnding_picture (l : Letter) (s : Station) : (lostInEnding l s).picture = s.picture := by
  unfold lostInEnding; dsimp only; repeat' split
  all_goals simp
@[simp] theorem networkLost_picture (l : Letter) (s : Station) : (networkLost l s).picture = s.picture := by
  unfold networkLost; dsimp only; repeat' split
  all_goals simp
@[simp] theorem dialRejected_picture (l : Letter) (s : Station) : (dialRejected l s).picture = s.picture := by
  unfold dialRejected; dsimp only; repeat' split
  all_goals simp
@[simp] theorem startFitted_picture (s : Station) : (startFitted s).picture = s.picture := by
  unfold startFitted
  exact foldl_picture _ (fun t l => by split <;> simp) _ _
@[simp] theorem unfit_picture (l : Letter) (s : Station) : (unfit l s).picture = s.picture := by
  unfold unfit; split <;> simp

/-! ### The transmit side, the announcing, the draws -/

@[simp] theorem pump_picture (s : Station) : (pump s).picture = s.picture := picture_of_kept (by simp)
@[simp] theorem keepStall_picture (s : Station) : (keepStall s).picture = s.picture := picture_of_kept (by simp)
@[simp] theorem markReload_picture (s : Station) : (markReload s).picture = s.picture := picture_of_kept (by simp)
@[simp] theorem abandonStandby_picture (s : Station) : (abandonStandby s).picture = s.picture := by
  have h : ∀ (t : Station) (x : Announcing) (p : Progress),
      Station.picture { t with power.progress := p, announcing := x } = t.picture := fun _ _ _ => rfl
  have hm : ∀ (t : Station) (f : TxBody → TxBody), (mapAnnounce f t).picture = t.picture := fun _ _ => rfl
  unfold abandonStandby; dsimp only; split
  · rfl
  · rfl
  · split <;> simp [hm, h]
  · simp [h]
@[simp] theorem deliverDraw_picture (c : Consumer) (d : Nat) (s : Station) : (deliverDraw c d s).picture = s.picture := by
  cases c <;> simp only [deliverDraw]
  · exact picture_of_kept (lineDraw_kept d s)
  · exact picture_of_kept (by simp)
  · unfold replyDraw; split <;> rfl
@[simp] theorem deliverDraws_picture (l : List (Consumer × Nat)) (s : Station) : (deliverDraws l s).picture = s.picture :=
  foldl_picture (fun t (d : Consumer × Nat) => deliverDraw d.1 d.2 t) (fun t d => deliverDraw_picture d.1 d.2 t) l s
@[simp] theorem takeSolicit_picture (s : Station) : (takeSolicit s).picture = s.picture := by
  have hr : ∀ (d : Nat) (t : Station), (replyDraw d t).picture = t.picture := fun d t => by
    unfold replyDraw; split <;> rfl
  have hq : ∀ (c : Consumer) (t : Station), (requestDraw c t).2.picture = t.picture := fun c t =>
    picture_of_kept (requestDraw_kept c t)
  have ha : ∀ (t : Station) (x : Announcing), Station.picture { t with announcing := x } = t.picture := fun _ _ => rfl
  unfold takeSolicit; split
  · split <;> rename_i h <;> have hk := congrArg (fun p => p.2.picture) h <;> simp only [hq, ha] at hk <;>
      simp [hr, hk]
  · rfl
@[simp] theorem startPeriod_picture (s : Station) : (startPeriod s).picture = s.picture := by
  unfold startPeriod; split <;> rfl
@[simp] theorem announceCompleted_picture (b : Bool) (s : Station) : (announceCompleted b s).picture = s.picture := by
  have ha : ∀ (t : Station) (x : Announcing), Station.picture { t with announcing := x } = t.picture := fun _ _ => rfl
  unfold announceCompleted; dsimp only; split <;> simp [ha]
@[simp] theorem reportDrop_picture (b : TxBody) (s : Station) : (reportDrop b s).picture = s.picture :=
  picture_of_kept (by simp)
@[simp] theorem attemptCollided_picture (s : Station) : (attemptCollided s).picture = s.picture := by
  have he : ∀ (f : TxFrame) (t : Station), (enterService f t).picture = t.picture := fun f t =>
    picture_of_kept (enterService_kept f t)
  unfold attemptCollided; split
  · dsimp only
    repeat' split
    all_goals first | rfl | (simp only [reportDrop_picture, he]; rfl)
  · rfl
@[simp] theorem countSlot_picture (s : Station) : (countSlot s).picture = s.picture := by
  unfold countSlot; repeat' split
  all_goals rfl
@[simp] theorem completed_picture (f : TxFrame) (b : Bool) (s : Station) : (completed f b s).picture = s.picture := by
  unfold completed; split
  · rename_i standbyNow _ _
    dsimp only; split
    · exact (rfl : _ = Station.picture (announceCompleted standbyNow s)).trans (announceCompleted_picture _ s)
    · simp
  · rfl
@[simp] theorem ownClaimTaken_picture (b : TxBody) (s : Station) : (ownClaimTaken b s).picture = s.picture :=
  picture_of_kept (by simp)
@[simp] theorem partnerHeard_picture (s : Station) : (partnerHeard s).picture = s.picture := rfl
@[simp] theorem frameLeaves_picture (s : Station) : (frameLeaves s).picture = s.picture := rfl
@[simp] theorem keepIdle_picture (s : Station) : (keepIdle s).picture = s.picture := picture_of_kept (by simp)
@[simp] theorem enterLatched_picture (s : Station) : (enterLatched s).2.picture = s.picture := rfl

@[simp] theorem latch_picture (s : Station) : (latch s).picture = s.picture :=
  (deliverDraws_picture _ _).trans (enterLatched_picture s)

theorem failRepetition_picture (s : Station) : (failRepetition s).picture = s.picture := by
  unfold failRepetition; dsimp only; split
  · rfl
  · rfl
  · exact latch_picture _
  · exact latch_picture _

theorem judgeWindow_picture (s : Station) : (judgeWindow s).picture = s.picture := by
  unfold judgeWindow; dsimp only; repeat' split
  all_goals first | rfl | exact latch_picture _

theorem takeBit_picture (s : Station) (bit : Bool) : (takeBit s bit).picture = s.picture := by
  have h : ∀ t : Station, t.picture = s.picture →
      (if t.draw.windowBits = 512 then judgeWindow t else t).picture = s.picture := by
    intro t ht; split
    · rw [judgeWindow_picture, ht]
    · exact ht
  unfold takeBit; dsimp only
  refine h _ ?_
  split
  · exact failRepetition_picture _
  · rfl

theorem takeNoise_picture (bits : List Bool) (s : Station) : (takeNoise bits s).picture = s.picture := by
  unfold takeNoise; split
  · rfl
  · exact foldl_picture takeBit takeBit_picture bits s

/-! ### The cabinet monitor -/

@[simp] theorem cabinet_picture (s : Station) (c : Cabinet) : Station.picture { s with cabinet := c } = s.picture := rfl
@[simp] theorem handCabinetEvent_picture (e : CabinetEvent) (s : Station) :
    (handCabinetEvent e s).picture = s.picture := by
  unfold handCabinetEvent; repeat' split
  all_goals simp
@[simp] theorem handPending_picture (s : Station) : (handPending s).picture = s.picture := by
  unfold handPending; dsimp only
  rw [foldl_picture _ (fun t e => handReport_picture e t)]; rfl
@[simp] theorem wakeIfStandby_picture (c : WakeCause) (s : Station) : (wakeIfStandby c s).picture = s.picture := by
  unfold wakeIfStandby; split <;> rfl
@[simp] theorem closeImpact_picture (s : Station) : (closeImpact s).picture = s.picture := by
  unfold closeImpact; split <;> simp
@[simp] theorem offerCapture_picture (v : IVec) (s : Station) : (offerCapture v s).picture = s.picture := by
  unfold offerCapture; dsimp only; repeat' split
  all_goals rfl
@[simp] theorem offerImpact_picture (o : Option QVec) (v : QVec) (s : Station) : (offerImpact o v s).picture = s.picture := by
  unfold offerImpact; dsimp only; repeat' split
  all_goals simp
@[simp] theorem testTilt_picture (a b : Bool) (s : Station) : (testTilt a b s).picture = s.picture := by
  unfold testTilt raiseTilt; dsimp only; repeat' split
  all_goals simp
@[simp] theorem offerTilt_picture (s : Station) : (offerTilt s).picture = s.picture := by
  unfold offerTilt; repeat' split
  all_goals simp
@[simp] theorem takeSample_picture (v : IVec) (s : Station) : (takeSample v s).picture = s.picture := by
  unfold takeSample; split
  · simp
  · rfl
@[simp] theorem sensorFalls_picture (s : Station) : (sensorFalls s).picture = s.picture := by
  unfold sensorFalls; dsimp only; rw [closeImpact_picture]; rfl
@[simp] theorem beginCapture_picture (s : Station) : (beginCapture s).picture = s.picture := rfl

/-! ### Entries into the operating states -/

@[simp] theorem handRequest_picture (s : Station) : (handRequest s).picture = s.picture := by
  unfold handRequest; split
  · rw [createOrigin_picture]; rfl
  · rfl

theorem clearDirectory_picture (s : Station) :
    (clearDirectory s).picture = (s.keep.config, s.power.opState, ⟨[], s.config.circuits⟩) := rfl

theorem enterActive_picture (s : Station) :
    (enterActive s).picture = (s.keep.config, .active, ⟨[], s.config.circuits⟩) := by
  simp [enterActive, clearDirectory_picture, Station.config]

theorem enterIsolatedFromStart_picture (s : Station) :
    (enterIsolatedFromStart s).picture = (s.keep.config, .isolated, ⟨[], s.config.circuits⟩) := by
  simp [enterIsolatedFromStart, clearDirectory_picture, Station.config]

@[simp] theorem deliverWake_picture (c : WakeCause) (s : Station) : (deliverWake c s).picture = s.picture := by
  cases c <;> simp only [deliverWake, createOrigin_picture] <;> rfl

theorem clearBlocks_picture (s : Station) :
    (clearBlocks s).picture = (s.keep.config, s.power.opState, ⟨[], s.config.circuits⟩) := by
  have h := clearBearers_picture s
  have hc : (clearBearers s).keep.config = s.keep.config := picture_config h
  have ho : (clearBearers s).power.opState = s.power.opState := picture_opState h
  simp [clearBlocks, clearDirectory, Station.picture, Station.config, hc, ho]

theorem enterStandby_picture (s : Station) :
    (enterStandby s).picture = (s.keep.config, .standby, ⟨[], s.config.circuits⟩) := by
  have h := clearBlocks_picture s
  have hc : (clearBlocks s).keep.config = s.keep.config := congrArg (·.1) h
  have hd : (clearBlocks s).directory = ⟨[], s.config.circuits⟩ := congrArg (·.2.2) h
  simp [enterStandby, emit, Station.picture, hc, hd]

/-- A wake cause taken is a wake out of STANDBY, or changes nothing of it. -/
theorem takeWake_picture (c : WakeCause) (s : Station) :
    (takeWake c s).picture = s.picture ∨
      s.power.opState = .standby ∧ (takeWake c s).picture = (s.keep.config, .active, ⟨[], s.config.circuits⟩) := by
  unfold takeWake; split
  · exact Or.inl rfl
  · rename_i ho
    split
    · exact Or.inl rfl
    · right
      refine ⟨by simpa using ho, ?_⟩
      have hc : (clearBlocks s).keep.config = s.keep.config := congrArg (·.1) (clearBlocks_picture s)
      dsimp only
      rw [deliverWake_picture, enterActive_picture]
      simp [Station.config, hc]

/-! ### Predicates over it through the end of a command -/

/-- A predicate that rests on configuration, operating state and directory, and that an entry into STANDBY and a wake
keep. -/
def Pictured (P : Station → Prop) : Prop :=
  (∀ s t : Station, t.picture = s.picture → P s → P t) ∧
    ∀ s t : Station,
      s.power.opState = .active ∧ t.picture = (s.keep.config, .standby, ⟨[], s.config.circuits⟩) ∨
        s.power.opState = .standby ∧ t.picture = (s.keep.config, .active, ⟨[], s.config.circuits⟩) →
      P s → P t

theorem takeTask_pictured {P : Station → Prop} (hP : Pictured P) (t : Task) {s : Station} (h : P s) :
    P (takeTask t s) := by
  by_cases hw : ∃ c, t = .wake c
  · obtain ⟨c, rfl⟩ := hw
    rcases takeWake_picture c s with hp | ⟨ho, hp⟩
    · exact hP.1 _ _ hp h
    · exact hP.2 s _ (Or.inr ⟨ho, hp⟩) h
  · refine hP.1 s _ (picture_of_kept ?_) h
    cases t
    case wake c => exact absurd ⟨c, rfl⟩ hw
    all_goals simp only [takeTask]
    all_goals first | simp | (split <;> simp)

theorem drain_pictured {P : Station → Prop} (hP : Pictured P) (n : Nat) {s : Station} (h : P s) : P (drain n s) := by
  induction n generalizing s with
  | zero => exact h
  | succ n ih =>
    unfold drain; split
    · exact h
    · exact ih (takeTask_pictured hP _ (hP.1 s _ rfl h))

theorem standbyCheck_pictured {P : Station → Prop} (hP : Pictured P) {s : Station} (h : P s) : P (standbyCheck s) := by
  have ha : P (abandonStandby s) := hP.1 s _ (abandonStandby_picture s) h
  unfold standbyCheck; split
  · exact hP.1 s _ (keepIdle_picture s) h
  · split
    · exact ha
    · split
      · refine hP.1 s _ ?_ h
        unfold decideStandby; rw [mergeAnnounce_picture]; rfl
      · exact h
  · split
    · exact ha
    · exact h
  · split
    · exact ha
    · rename_i hq
      split
      · refine hP.2 s _ (Or.inl ⟨?_, enterStandby_picture s⟩) h
        simp [Station.quiet] at hq; simp [hq]
      · exact h

theorem finish_pictured {P : Station → Prop} (hP : Pictured P) {s : Station} (h : P s) : P (finish s) := by
  unfold finish
  refine hP.1 _ _ (pump_picture _)
    (hP.1 _ _ (keepIdle_picture _) (drain_pictured hP _ (standbyCheck_pictured hP ?_)))
  exact hP.1 _ _ (by simp) (drain_pictured hP 256 h)

theorem takeEvent_pictured {P : Station → Prop} (hP : Pictured P) {f : Station → Station} (hf : ∀ s, P s → P (f s))
    {s t : State} (h : P s.station) (e : takeEvent f s = .next t) : P t.station := by
  simp only [takeEvent, Host.Outcome.next.injEq] at e
  subst e
  have h0 : P (freshOut s.station) := hP.1 s.station _ rfl h
  dsimp only; split
  · exact finish_pictured hP (hf _ h0)
  · exact h0

theorem takeExpiry_pictured {P : Station → Prop} (hP : Pictured P) {timer : Station → Timer} {f : Station → Station}
    (hf : ∀ s, P s → P (f s)) {s t : State} (h : P s.station) (e : takeExpiry timer f s = .next t) : P t.station := by
  refine takeEvent_pictured hP (fun s h => ?_) h e
  split
  · exact hf _ (hP.1 _ _ (catchUp_picture _ s) h)
  · exact h

theorem takePin_pictured {P : Station → Prop} (hP : Pictured P) {f : Station → Station} (hf : ∀ s, P s → P (f s))
    {s t : State} (h : P s.station) (e : takePin f s = .next t) : P t.station := by
  simp only [takePin, Host.Outcome.next.injEq] at e
  subst e
  have h0 : P (f (freshOut s.station)) := hf _ (hP.1 s.station _ rfl h)
  dsimp only; split
  · exact finish_pictured hP h0
  · exact h0

end Sys2Proof.Machine
end

