-- ==== Sys2Proof/Laws/Changes.lean ====
section
/-! SUPPORT. Every command and the idle step, said once: what may change a station's configuration, operating state or
directory is one of the operations of `Changes`. -/

namespace Sys2Proof.Machine

/-- A predicate over configuration, operating state and directory that the operations keep which change one of them. -/
structure Changes (P : Station → Prop) : Prop where
  pictured : Pictured P
  refresh : ∀ (a : Nat) (s : Station), P s → P (refreshPeer a s)
  file : ∀ (a : Nat) (b : AnnounceBody) (s : Station), P s → P (fileAnnounce a b s)
  age : ∀ (a : Nat) (s : Station), P s → P (agePeer a s)
  judge : ∀ (bytes : List Byte) (s : Station), P s → P (judgeRecord bytes s)
  invalid : ∀ s : Station, P s → P (configInvalid s)
  isolate : ∀ s : Station, s.power.opState = .active → P s → P (enterIsolated s)
  reload : ∀ (c : Configuration) (s : Station),
    (∃ bytes, readConfiguration bytes = some c) → s.power.reload = none → P s → P (applyReload c s)
  warm : ∀ s : Station, P s → P (warmReset s)
  hold : ∀ s : Station, P s → P (holdReset s)
  powerOn : ∀ s : Station, P (powerOnReset s)
  keepLost : ∀ s : Station, P (keepLost s)

variable {P : Station → Prop}

/-! ### Frames -/

theorem receiveFrame_changes (hP : Changes P) (kind : Nat) (f : RxFrame) {owners : Station → Station}
    (ho : ∀ s, P s → P (owners s)) {s : Station} (h : P s) : P (receiveFrame kind f owners s) := by
  unfold receiveFrame; dsimp only
  split
  · exact h
  · have h0 : P { s with line.assembly := Assembly.skipping, line.gap := false } := hP.pictured.1 s _ rfl h
    split
    · exact hP.pictured.1 s _ rfl h
    · split
      · exact h0
      · split
        · rename_i hc
          refine hP.isolate _ ?_ (hP.pictured.1 s _ rfl h)
          simp at hc; simpa using hc.1
        · split
          · exact ho _ h0
          · exact h0

theorem fromPeer_changes (hP : Changes P) {α : Type} (f : RxFrame) (read : List Byte → Option α)
    {owners : α → Station → Station} (ho : ∀ b s, P s → P (owners b s)) (s : Station) (h : P s) :
    P (fromPeer f read owners s) := by
  unfold fromPeer; split
  · split
    · exact ho _ _ (hP.refresh _ _ h)
    · exact h
  · exact h

theorem whenAddressed_changes (f : RxFrame) {op : Station → Station} (ho : ∀ s, P s → P (op s)) (s : Station)
    (h : P s) : P (whenAddressed f op s) := by
  unfold whenAddressed; split
  · exact ho _ h
  · exact h

theorem takeAddressed_changes (hP : Changes P) {α : Type} {kind : Nat} {f : RxFrame} {read : List Byte → Option α}
    {owner : α → Station → Station} (ho : ∀ b s, P s → P (owner b s)) {s t : State} (h : P s.station)
    (e : takeAddressed kind f read owner s = .next t) : P t.station :=
  takeEvent_pictured hP.pictured
    (fun _ h => receiveFrame_changes hP kind f (fromPeer_changes hP f read fun b => whenAddressed_changes f (ho b)) h)
    h e

theorem takeService_changes (hP : Changes P) {kind : Nat} {f : RxFrame} {respond : Byte → Byte → Station → Station}
    (ho : ∀ a b s, P s → P (respond a b s)) {s t : State} (h : P s.station)
    (e : takeService kind f respond s = .next t) : P t.station := by
  refine takeEvent_pictured hP.pictured (fun _ h => receiveFrame_changes hP kind f (fun s h => ?_) h) h e
  split
  · split
    · exact ho _ _ _ h
    · exact h
  · exact h

/-! ### Owners of frames -/

@[simp] theorem takeHolding_picture (a c : Nat) (t : Tag) (g : Nat) (s : Station) :
    (takeHolding a c t g s).picture = s.picture := picture_of_kept (by simp)
@[simp] theorem clearPartner_picture (t : Tag) (r : ClearReason) (d : Nat) (s : Station) :
    (clearPartner t r d s).picture = s.picture := picture_of_kept (by simp)
@[simp] theorem passOver_picture (l : Nat) (s : Station) : (passOver l s).picture = s.picture :=
  picture_of_kept (by simp)
@[simp] theorem enterPhase_picture (p : Phase) (d : Timer) (s : Station) : (enterPhase p d s).picture = s.picture :=
  picture_of_kept (by simp)
@[simp] theorem originCleared_picture (k : Carrier) (s : Station) : (originCleared k s).picture = s.picture :=
  picture_of_kept (by simp)

theorem takeCallStatus_picture (f : RxFrame) (b : CallStatusBody) (s : Station) :
    (takeCallStatusFrame f b s).picture = s.picture := by
  have hs : ∀ (a : Nat) (t : Tag) (p : Nat) (s : Station), (takeCarrierStatus a t p s).picture = s.picture := by
    intro a t p s
    refine picture_of_kept ?_
    unfold takeCarrierStatus; dsimp only; repeat' split
    all_goals simp
  have ho : ∀ (a : Nat) (t : Tag) (s : Station), (takeOriginStatus a t s).picture = s.picture := by
    intro a t s; unfold takeOriginStatus; split <;> rfl
  unfold takeCallStatusFrame whenAddressed; dsimp only
  repeat' split
  all_goals simp [hs, ho]

theorem takeClear_picture (f : RxFrame) (b : ClearBody) (s : Station) : (takeClearFrame f b s).picture = s.picture := by
  have hv : ∀ (a c : Nat) (t : Tag) (s : Station), (takeClearIntoView a c t s).picture = s.picture := fun _ _ _ _ =>
    picture_of_kept (by simp)
  have hc : ∀ (a : Nat) (t : Tag) (r : ClearReason) (s : Station), (takeCarrierClear a t r s).picture = s.picture := by
    intro a t r s
    refine picture_of_kept ?_
    unfold takeCarrierClear; repeat' split
    all_goals simp
  have ho : ∀ (a : Nat) (t : Tag) (s : Station), (takeOriginClear a t s).picture = s.picture := by
    intro a t s; unfold takeOriginClear; repeat' split
    all_goals simp
  unfold takeClearFrame whenAddressed; dsimp only
  repeat' split
  all_goals simp [hv, hc, ho]

theorem takeBorrow_picture (a : Nat) (b : VoiceBody) (s : Station) : (takeBorrow a b s).picture = s.picture := by
  have hj : (judgeBorrow b.tag b.circuit s).kept = s.kept := by
    unfold judgeBorrow; dsimp only
    split
    · simp
    · repeat' split
      all_goals first
        | (simp; done)
        | (rename_i h; have hk := congrArg (fun p => p.2.kept) h; simp only [claimVoice_kept] at hk
           first
             | (simp [hk]; done)
             | (unfold acceptBorrow sendLend; dsimp only
                rw [orderDial_kept, handOver_kept, recordLending_kept, notingLendReady_kept rfl, hk]))
  unfold takeBorrow; repeat' split
  all_goals first
    | exact picture_of_kept hj
    | simp [sendLend]

theorem takeReportBorrow_picture (a : Nat) (r : Record) (s : Station) : (takeReportBorrow a r s).picture = s.picture := by
  refine picture_of_kept ?_
  unfold takeReportBorrow; dsimp only; repeat' split
  all_goals simp

theorem takeLend_picture (a : Nat) (b : LendBody) (s : Station) : (takeLend a b s).picture = s.picture := by
  unfold takeLend; repeat' split
  all_goals simp

theorem takeConnected_picture (a : Nat) (t : Tag) (s : Station) : (takeConnected a t s).picture = s.picture := by
  refine picture_of_kept ?_
  unfold takeConnected; repeat' split
  all_goals simp

theorem takeDecline_picture (a : Nat) (t : Tag) (s : Station) : (takeDecline a t s).picture = s.picture := by
  unfold takeDecline; repeat' split
  all_goals simp

theorem reportLent_picture (a : Nat) (t : Tag) (s : Station) : (reportLent a t s).picture = s.picture := by
  unfold reportLent; repeat' split
  all_goals simp

theorem reportDeclined_picture (a : Nat) (t : Tag) (s : Station) : (reportDeclined a t s).picture = s.picture := by
  refine picture_of_kept ?_
  unfold reportDeclined; repeat' split
  all_goals simp

theorem takeResult_picture (a : Nat) (b : ResultBody) (s : Station) : (takeResult a b s).picture = s.picture := by
  refine picture_of_kept ?_
  unfold takeResult; repeat' split
  all_goals simp

theorem takeAnnounce_changes (hP : Changes P) (a : Nat) (b : AnnounceBody) (s : Station) (h : P s) :
    P (takeAnnounceFrame a b s) := by
  have h1 := hP.file a b s h
  refine hP.pictured.1 _ _ ?_ h1
  unfold takeAnnounceFrame; dsimp only
  repeat' split
  all_goals simp

theorem takeWakeFrame_changes (hP : Changes P) (f : RxFrame) (s : Station) (h : P s) : P (takeWakeFrame f s) := by
  unfold takeWakeFrame; split
  · extract_lets u
    have h1 : P u := by
      unfold u; split
      · exact hP.refresh _ _ h
      · exact h
    split
    · split
      · refine hP.pictured.1 _ _ ?_ h1
        unfold wakeInActive; rw [abandonStandby_picture]; rfl
      · split
        · exact hP.pictured.1 _ _ (by simp) h1
        · exact h1
    · exact h1
  · exact h

/-! ### The service responder -/

@[simp] theorem answerService_picture (g : BitVec 16) (c i : Byte) (r : StatusResult) (x : List Byte) (s : Station) :
    (answerService g c i r x s).picture = s.picture := by simp [answerService]
@[simp] theorem answerOrder_picture (g : BitVec 16) (o : Nat) (r : StatusResult) (x : List Byte) (s : Station) :
    (answerOrder g o r x s).picture = s.picture := by simp [answerOrder]

theorem endReload_changes (hP : Changes P) (bytes : List Byte) (s : Station) (h : P s) :
    P (endReload (readConfiguration bytes) s) := by
  unfold endReload; split
  · exact h
  · dsimp only; split
    · exact hP.pictured.1 s _ (by rw [answerOrder_picture, raise_picture]; rfl) h
    · rename_i c hc
      split
      · exact hP.pictured.1 s _ (by rw [answerOrder_picture]; rfl) h
      · exact hP.pictured.1 _ _ (answerOrder_picture _ _ _ _ _)
          (hP.reload c _ ⟨bytes, hc⟩ rfl (hP.pictured.1 s _ rfl h))

theorem takeReload_changes (hP : Changes P) (g : BitVec 16) (s : Station) (h : P s) : P (takeReload g s) := by
  unfold takeReload; split
  · exact hP.pictured.1 s _ (by simp) h
  · split
    · exact hP.warm _ h
    · exact hP.pictured.1 s _ rfl h

/-! ### Rails and resets -/

theorem takePin_hold (hP : Changes P) {s t : State} {g : Station → Station} {c : Station → Bool}
    (hg : ∀ s, (g s).picture = s.picture) (h : P s.station)
    (e : takePin (fun s => if c s then holdReset (g s) else g s) s = .next t) : P t.station := by
  refine takePin_pictured hP.pictured (fun s h => ?_) h e
  have hg' := hP.pictured.1 s _ (hg s) h
  split
  · exact hP.hold _ hg'
  · exact hg'

theorem releaseReset_changes (hP : Changes P) (s : Station) (h : P s) : P (releaseReset s) := by
  unfold releaseReset; split
  · exact hP.warm _ h
  · exact h

theorem takeWake_changes (hP : Changes P) (c : WakeCause) (s : Station) (h : P s) : P (takeWake c s) :=
  takeTask_pictured hP.pictured (.wake c) h

/-! ### Bearer rows -/

theorem takeIndication_changes (hP : Changes P) {l : Letter} {p : Bearer → Bool} {f : Station → Station}
    (hf : ∀ s, (f s).picture = s.picture) {s t : State} (h : P s.station) (e : takeIndication l p f s = .next t) :
    P t.station := by
  refine takeEvent_pictured hP.pictured (fun s h => ?_) h e
  split
  · exact hP.pictured.1 _ _ (hf s) h
  · exact h

theorem takeEvent_same (hP : Changes P) {f : Station → Station} (hf : ∀ s, (f s).picture = s.picture) {s t : State}
    (h : P s.station) (e : takeEvent f s = .next t) : P t.station :=
  takeEvent_pictured hP.pictured (fun s h => hP.pictured.1 _ _ (hf s) h) h e

theorem takeExpiry_same (hP : Changes P) {timer : Station → Timer} {f : Station → Station}
    (hf : ∀ s, (f s).picture = s.picture) {s t : State} (h : P s.station) (e : takeExpiry timer f s = .next t) :
    P t.station := takeExpiry_pictured hP.pictured (fun s h => hP.pictured.1 _ _ (hf s) h) h e

/-! ### Every command -/

theorem afterTimeout_picture (l : Letter) (c : Command) (s : Station) : (afterTimeout l c s).picture = s.picture := by
  cases c <;> simp only [afterTimeout]
  all_goals first | (simp; done) | (split <;> simp)

theorem commandTimedOut_picture (l : Letter) (c : Command) (s : Station) :
    (commandTimedOut l c s).picture = s.picture := by
  unfold commandTimedOut; dsimp only; split <;> simp [afterTimeout_picture]

theorem recheckClaim_picture (l : Letter) (s : Station) : (recheckClaim l s).picture = s.picture := by
  unfold recheckClaim; split <;> simp

theorem settled_picture (l : Letter) (s : Station) : (settled l s).picture = s.picture := by
  unfold settled; dsimp only; repeat' split
  all_goals simp

theorem dialEnded_picture (l : Letter) (r : EndReason) (s : Station) : (dialEnded l r s).picture = s.picture := by
  cases r <;> simp [dialEnded]

theorem callEnded_picture (l : Letter) (r : EndReason) (s : Station) : (callEnded l r s).picture = s.picture := by
  cases r <;> simp [callEnded]

theorem hangUpEnded_picture (l : Letter) (r : EndReason) (s : Station) : (hangUpEnded l r s).picture = s.picture := by
  unfold hangUpEnded; dsimp only; split <;> simp

theorem panel_picture (s : Station) (x : Panel) : Station.picture { s with panel := x } = s.picture := rfl

@[simp] theorem endRequest_kept_picture (s : Station) : (endRequest s).picture = s.picture := by
  have htw : ∀ t : Station, (tallyUp (fun y => { y with withdrawn := y.withdrawn + 1 }) t).picture = t.picture := by
    intro t; unfold tallyUp; split <;> rfl
  have ha : ∀ (r : ClearReason) (p : Phase) (t : Station), (abandonOwnRound r p t).picture = t.picture := fun _ _ _ =>
    picture_of_kept (by simp)
  have he : ∀ t : Station, (enterEnding t).picture = t.picture := fun _ => picture_of_kept (by simp)
  have hr : ∀ (r : ClearReason) (d : Nat) (t : Station), (releaseCircuit r d t).picture = t.picture := fun _ _ _ =>
    picture_of_kept (by simp)
  have hb : ∀ t : Station, (tryEnd (showEnded (releaseOwnBearer t))).picture = t.picture := fun _ =>
    picture_of_kept (by simp)
  unfold endRequest; split
  · rfl
  · rename_i o _
    split
    · rfl
    · extract_lets u v w x
      have hu : u.picture = s.picture := by
        unfold u; split
        · rfl
        · exact htw s
      have hw : w.picture = s.picture := by unfold w v; rw [he, ha, hu]
      have hx : x.picture = s.picture := by
        unfold x; split
        · rw [hr, hw]
        · split
          · rw [clearPartner_picture, hw]
          · exact hw
        · exact hw
      rw [hb, hx]

theorem offHookAction_picture (s : Station) : (offHookAction s).picture = s.picture := by
  unfold offHookAction; repeat' split
  all_goals first | rfl | simp

theorem endFailed_picture (s : Station) : (endFailed s).picture = s.picture := picture_of_kept (by simp)

theorem onHookAction_picture (s : Station) : (onHookAction s).picture = s.picture := by
  unfold onHookAction; repeat' split
  all_goals first | rfl | simp [endFailed_picture]

theorem singlePress_picture (s : Station) : (singlePress s).picture = s.picture := by
  unfold singlePress; repeat' split
  all_goals first | rfl | simp

theorem doublePress_picture (s : Station) : (doublePress s).picture = s.picture := by
  unfold doublePress; repeat' split
  all_goals first | rfl | simp

theorem pressInWindow_picture (a b : Stamp) (s : Station) : (pressInWindow a b s).picture = s.picture := by
  unfold pressInWindow; split
  · rw [doublePress_picture]; rfl
  · rw [singlePress_picture]; rfl

theorem unplaced_picture (s : Station) : (unplaced s).picture = s.picture := by
  have htw : ∀ t : Station, (tallyUp (fun y => { y with unplaced := y.unplaced + 1 }) t).picture = t.picture := by
    intro t; unfold tallyUp; split <;> rfl
  have ht : ∀ (e : End) (t : Station), (tryEnd (showFailed e t)).picture = t.picture := fun _ _ =>
    picture_of_kept (by simp)
  have ho : ∀ t : Station, (releaseOwnBearer t).picture = t.picture := fun _ => picture_of_kept (by simp)
  have hr : ∀ (r : ClearReason) (d : Nat) (t : Station), (releaseCircuit r d t).picture = t.picture := fun _ _ _ =>
    picture_of_kept (by simp)
  have he : ∀ t : Station, (enterEnding t).picture = t.picture := fun _ => picture_of_kept (by simp)
  have ha : ∀ (r : ClearReason) (p : Phase) (t : Station), (abandonOwnRound r p t).picture = t.picture := fun _ _ _ =>
    picture_of_kept (by simp)
  unfold unplaced; split
  · rfl
  · dsimp only; rw [ht, raise_picture, handReport_picture, ho, hr, he, ha, htw]

theorem passOverCarrier_picture (r : Option ClearReason) (s : Station) : (passOverCarrier r s).picture = s.picture := by
  unfold passOverCarrier; repeat' split
  all_goals simp

theorem carrierSilent_picture (k : Carrier) (s : Station) : (carrierSilent k s).picture = s.picture := by
  have h : ∀ (r : ClearReason) (t : Station), (closeCarrier k.tag (carrierClearFrame k r t)).picture = t.picture :=
    fun _ _ => picture_of_kept (by simp)
  simp [carrierSilent, h]

theorem originSilent_picture (s : Station) : (originSilent s).picture = s.picture := by
  have h : ∀ (r : Option ClearReason) (b : Bool) (t : Station), (carrierLost r b t).picture = t.picture := fun _ _ _ =>
    picture_of_kept (by simp)
  unfold originSilent; dsimp only; repeat' split
  all_goals simp [h, passOverCarrier_picture]

theorem statusDue_picture (c : ContextRef) (s : Station) : (statusDue c s).picture = s.picture := by
  unfold statusDue queueStatus; repeat' split
  all_goals simp

theorem relayExpired_picture (t : Tag) (s : Station) : (relayExpired t s).picture = s.picture := by
  refine picture_of_kept ?_
  unfold relayExpired; repeat' split
  all_goals simp

/-- Every command keeps what the operations of `Changes` keep. -/
theorem exec_changes (hP : Changes P) (c : Instr) {s t : State} (h : P s.station) (e : exec c s = .next t) :
    P t.station := by
  have pic := hP.pictured.1
  cases c <;> simp only [exec] at e
  case keepRailApplied =>
    refine takePin_pictured hP.pictured (fun s h => ?_) h e
    split
    · exact h
    · exact hP.powerOn s
  case resetLineAsserted =>
    exact takePin_pictured hP.pictured (fun s h => by
      dsimp only; split
      · exact hP.hold _ (pic s _ rfl h)
      · exact pic s _ rfl h) h e
  case resetLineReleased =>
    refine takePin_pictured hP.pictured (fun s h => ?_) h e
    exact releaseReset_changes hP _ (pic s _ rfl h)
  case mainRailLost =>
    exact takePin_pictured hP.pictured (fun s h => by
      dsimp only; split
      · exact hP.hold _ (pic s _ rfl h)
      · exact pic s _ rfl h) h e
  case mainRailReturn =>
    refine takePin_pictured hP.pictured (fun s h => ?_) h e
    dsimp only; split
    · split
      · exact takeWake_changes hP _ _ (pic s _ rfl h)
      · exact pic s _ rfl h
    · exact releaseReset_changes hP _ (pic s _ rfl h)
  case configReadComplete bytes =>
    refine takeEvent_pictured hP.pictured (fun s h => ?_) h e
    split
    · exact hP.judge _ _ h
    · exact h
  case configReadLimitExpiry =>
    refine takeEvent_pictured hP.pictured (fun s h => ?_) h e
    split
    · exact hP.invalid _ (pic _ _ (catchUp_picture _ s) h)
    · have hn : readConfiguration [] = none := rfl
      rw [← hn]
      exact endReload_changes hP [] _ (pic _ _ (catchUp_picture _ s) h)
    · exact h
  case reloadReadComplete bytes =>
    exact takeEvent_pictured hP.pictured (fun s h => endReload_changes hP bytes s h) h e
  case idleTimerExpiry =>
    refine takeExpiry_same hP (fun s => ?_) h e
    rfl
  case checkInTimerExpiry =>
    refine takeExpiry_same hP (fun s => ?_) h e
    rfl
  case clockWrap =>
    simp only [execClockWrap, Host.Outcome.next.injEq] at e
    subst e
    dsimp only; split
    · exact pic s.station _ rfl h
    · exact pic s.station _ rfl h
  case announce f =>
    refine takeEvent_pictured hP.pictured (fun _ h => receiveFrame_changes hP 1 f (fun s h => ?_) h) h e
    split
    · split
      · exact takeAnnounce_changes hP _ _ _ h
      · exact h
    · exact h
  case peerAgeingExpiry a => exact takeExpiry_pictured hP.pictured (fun s h => hP.age a s h) h e
  case announcePeriodExpiry =>
    refine takeExpiry_same hP (fun s => ?_) h e
    rw [announceCause_picture]; rfl
  case solicitReplyDelayExpiry =>
    refine takeExpiry_same hP (fun s => ?_) h e
    rw [announceCause_picture]; rfl
  case claim f =>
    exact takeEvent_pictured hP.pictured (fun _ h => receiveFrame_changes hP 3 f
      (fromPeer_changes hP f readClaim fun b s h => pic s _ (picture_of_kept (by simp)) h) h) h e
  case contestTimerExpiry c =>
    refine takeExpiry_same hP (fun s => ?_) h e
    exact picture_of_kept (by simp)
  case orphanLimitExpiry c =>
    refine takeExpiry_same hP (fun s => ?_) h e
    exact picture_of_kept (by simp)
  case callStatus f =>
    exact takeEvent_pictured hP.pictured (fun _ h => receiveFrame_changes hP 4 f
      (fromPeer_changes hP f readCallStatus fun b s h => pic s _ (takeCallStatus_picture f b s) h) h) h e
  case borrowVoice f =>
    exact takeAddressed_changes hP (fun b s h => pic s _ (takeBorrow_picture _ b s) h) h e
  case borrowReport f =>
    exact takeAddressed_changes hP (fun b s h => pic s _ (takeReportBorrow_picture _ b s) h) h e
  case lendCall f => exact takeAddressed_changes hP (fun b s h => pic s _ (takeLend_picture _ b s) h) h e
  case lendReport f => exact takeAddressed_changes hP (fun b s h => pic s _ (reportLent_picture _ b s) h) h e
  case declineCall f => exact takeAddressed_changes hP (fun b s h => pic s _ (takeDecline_picture _ b s) h) h e
  case declineReport f => exact takeAddressed_changes hP (fun b s h => pic s _ (reportDeclined_picture _ b s) h) h e
  case connected f => exact takeAddressed_changes hP (fun b s h => pic s _ (takeConnected_picture _ b s) h) h e
  case clear f =>
    exact takeEvent_pictured hP.pictured (fun _ h => receiveFrame_changes hP 9 f
      (fromPeer_changes hP f readClear fun b s h => pic s _ (takeClear_picture f b s) h) h) h e
  case wakeFrame f =>
    exact takeEvent_pictured hP.pictured (fun _ h => receiveFrame_changes hP 2 f (takeWakeFrame_changes hP f) h) h e
  case reportResult f => exact takeAddressed_changes hP (fun b s h => pic s _ (takeResult_picture _ b s) h) h e
  case status f =>
    exact takeEvent_pictured hP.pictured (fun _ h => receiveFrame_changes hP 12 f
      (fromPeer_changes hP f readStatus fun _ _ h => h) h) h e
  case unknownFrameKind k f =>
    exact takeEvent_pictured hP.pictured (fun _ h => receiveFrame_changes hP _ f (fun _ h => h) h) h e
  case queryStation f => exact takeService_changes hP (fun _ _ s h => pic s _ (by simp) h) h e
  case queryFaults f => exact takeService_changes hP (fun _ _ s h => pic s _ (by simp) h) h e
  case queryDirectory f =>
    exact takeService_changes hP (fun _ _ s h => pic s _ (by dsimp only; split <;> simp) h) h e
  case queryCircuits f => exact takeService_changes hP (fun _ _ s h => pic s _ (by simp) h) h e
  case queryBearer f =>
    exact takeService_changes hP (fun _ _ s h => pic s _ (by repeat' split
                                                             all_goals simp) h) h e
  case queryQueues f =>
    exact takeService_changes hP (fun _ _ s h => pic s _ (by repeat' split
                                                             all_goals simp) h) h e
  case unknownSelector f => exact takeService_changes hP (fun _ _ s h => pic s _ (by simp) h) h e
  case clearFaults f =>
    exact takeService_changes hP (fun _ _ s h => pic s _ (by dsimp only; rw [answerOrder_picture]; rfl) h) h e
  case restart f => exact takeService_changes hP (fun _ _ s h => hP.warm s h) h e
  case reload f => exact takeService_changes hP (fun _ _ s h => takeReload_changes hP _ s h) h e
  case recapture f => exact takeService_changes hP (fun _ _ s h => pic s _ (by simp) h) h e
  case unknownOrder f => exact takeService_changes hP (fun _ _ s h => pic s _ (by simp) h) h e
  case malformedFrame n =>
    refine takeEvent_same hP (fun s => ?_) h e
    split <;> rfl
  case idleGap =>
    refine takeEvent_same hP (fun s => ?_) h e
    split <;> rfl
  case lineBusy =>
    refine takeEvent_same hP (fun s => ?_) h e
    split <;> rfl
  case backoffSlot =>
    refine takeEvent_same hP (fun s => ?_) h e
    simp
  case collision =>
    refine takeEvent_same hP (fun s => ?_) h e
    simp
  case transmissionComplete =>
    exact takeEvent_same hP (fun s => by
      split
      · rw [completed_picture, frameLeaves_picture, ownClaimTaken_picture]; rfl
      · rfl) h e
  case repetitionFailure =>
    exact takeEvent_same hP (fun s => takeNoise_picture _ s) h e
  case proportionWindowJudged n =>
    exact takeEvent_same hP (fun s => takeNoise_picture _ s) h e
  case drawConditioned d =>
    refine takeEvent_same hP (fun s => ?_) h e
    refine Eq.trans ?_ (takeNoise_picture d.bits s)
    generalize takeNoise d.bits s = t
    dsimp only; split
    · have hc : (conditionedDraw d.draw.toNat t).2.picture = t.picture := by
        unfold conditionedDraw; split
        · rfl
        · dsimp only; split <;> rfl
      split <;> rename_i heq <;> rw [heq] at hc
      · rw [deliverDraw_picture]; exact hc
      · exact hc
    · rfl
  case ready l =>
    refine takeIndication_changes hP (fun s => ?_) h e
    simp
  case scanResult l n =>
    refine takeIndication_changes hP (fun s => ?_) h e
    simp
  case camped l n v =>
    exact takeIndication_changes hP (fun s => by split <;> simp [campedHere, recamped]) h e
  case level l v =>
    refine takeIndication_changes hP (fun s => ?_) h e
    simp
  case progress l =>
    refine takeIndication_changes hP (fun s => ?_) h e
    simp
  case answered l =>
    refine takeIndication_changes hP (fun s => ?_) h e
    simp
  case ended l r =>
    exact takeIndication_changes hP (fun s => by
      split <;> simp [callEnded_picture, hangUpEnded_picture, dialEnded_picture]) h e
  case reportSent l =>
    refine takeIndication_changes hP (fun s => ?_) h e
    simp
  case reportFailed l =>
    refine takeIndication_changes hP (fun s => ?_) h e
    dsimp only; split <;> simp
  case lost l =>
    refine takeIndication_changes hP (fun s => ?_) h e
    simp
  case fault l =>
    refine takeIndication_changes hP (fun s => ?_) h e
    simp
  case undecodableIndication l k p => exact takeIndication_changes hP (fun _ => rfl) h e
  case commandTimeout l =>
    exact takeExpiry_same hP (fun s => by split <;> simp [commandTimedOut_picture]) h e
  case dialAnswerLimitExpiry l =>
    refine takeExpiry_same hP (fun s => ?_) h e
    simp
  case rescanTimerExpiry l =>
    refine takeExpiry_same hP (fun s => ?_) h e
    simp
  case barExpiry l n =>
    refine takeExpiry_same hP (fun s => ?_) h e
    simp
  case recheckTimerExpiry l =>
    refine takeExpiry_same hP (fun s => ?_) h e
    simp [recheckClaim_picture]
  case failureWaitExpiry l =>
    refine takeExpiry_same hP (fun s => ?_) h e
    simp
  case settlingGuardExpiry l =>
    refine takeExpiry_same hP (fun s => ?_) h e
    simp [settled_picture]
  case offHook =>
    exact takeEvent_same hP (fun s => by
      repeat' split
      all_goals first | rfl | (rw [offHookAction_picture]; rfl)) h e
  case onHook =>
    exact takeEvent_same hP (fun s => by
      repeat' split
      all_goals first | rfl | (rw [onHookAction_picture]; rfl)) h e
  case buttonInputPressed =>
    refine takeEvent_same hP (fun s => ?_) h e
    split <;> rfl
  case buttonPressCounts =>
    exact takeEvent_same hP (fun s => by
      repeat' split
      all_goals first | exact pressInWindow_picture _ _ s | rfl) h e
  case buttonReleaseCounts =>
    exact takeEvent_same hP (fun s => by
      repeat' split
      all_goals rfl) h e
  case candidateFails =>
    exact takeEvent_same hP (fun s => by
      repeat' split
      all_goals first | rfl | (rw [singlePress_picture]; rfl)) h e
  case buttonWindowExpiry =>
    exact takeExpiry_same hP (fun s => by
      repeat' split
      all_goals first | rfl | (rw [singlePress_picture]; rfl)) h e
  case failedPeriodExpiry => exact takeExpiry_same hP (fun s => endFailed_picture s) h e
  case answerTimeoutExpiry => exact takeExpiry_same hP (fun s => passOverCarrier_picture _ s) h e
  case wakeAllowanceExpiry =>
    refine takeExpiry_same hP (fun s => ?_) h e
    exact picture_of_kept (by simp)
  case awaitingConnectExpiry => exact takeExpiry_same hP (fun s => passOverCarrier_picture _ s) h e
  case pauseExpiry =>
    exact takeExpiry_same hP (fun s => by split <;> simp) h e
  case setupDeadlineExpiry => exact takeExpiry_same hP unplaced_picture h e
  case partnerSilence => exact takeExpiry_same hP originSilent_picture h e
  case carrierPartnerSilence t =>
    exact takeExpiry_same hP (fun s => by split <;> simp [carrierSilent_picture]) h e
  case callStatusScheduleExpiry c => exact takeExpiry_same hP (statusDue_picture c) h e
  case recoveryLimitExpiry =>
    refine takeExpiry_same hP (fun s => ?_) h e
    exact picture_of_kept (by simp)
  case sample x y z =>
    refine takeEvent_same hP (fun s => ?_) h e
    simp
  case sensorSilence =>
    refine takeExpiry_same hP (fun s => ?_) h e
    simp
  case impactQuietLimitExpiry =>
    refine takeExpiry_same hP (fun s => ?_) h e
    simp
  case stallCheckExpiry =>
    refine takeExpiry_same hP (fun s => ?_) h e
    exact picture_of_kept (by simp)
  case reportAnswerTimerExpiry =>
    refine takeExpiry_same hP (fun s => picture_of_kept ?_) h e
    repeat' split
    all_goals simp
  case resultTimerExpiry =>
    refine takeExpiry_same hP (fun s => picture_of_kept ?_) h e
    split <;> simp
  case restTimerExpiry t =>
    refine takeExpiry_same hP (fun s => ?_) h e
    exact picture_of_kept (by simp)
  case relayRestTimerExpiry t =>
    refine takeExpiry_same hP (fun s => ?_) h e
    exact picture_of_kept (by simp)
  case relayLifetimeExpiry t => exact takeExpiry_same hP (relayExpired_picture t) h e
  case keepRailLost => exact takePin_pictured hP.pictured (fun s _ => hP.keepLost s) h e

theorem tick_picture (s : State) : (tick s).station.picture = s.station.picture := by
  unfold tick; dsimp only; repeat' split
  all_goals rfl

/-- Every step keeps what the operations of `Changes` keep. -/
theorem step_changes (hP : Changes P) {s t : State} (h : P s.station) (e : step s = .next t) : P t.station := by
  unfold step at e; split at e
  · rename_i c rest _
    exact exec_changes hP c (s := { s with pending := rest }) h e
  · simp only [Host.Outcome.next.injEq] at e
    subst e
    exact hP.pictured.1 _ _ (tick_picture s) h

end Sys2Proof.Machine
end

