-- ==== Sys2Proof/Laws/RouteEffects.lean ====
section
/-! SUPPORT. What the operations that choose and take a route do: the best bearer, a bearer record replaced, a phase
entered, a circuit asked for and released, the barred list, and the standby progress that no frame handed over touches. -/

namespace Sys2Proof.Machine

/-! ### The best bearer (R51-R53) -/

/-- A bearer that passes the test and is not outranked by another that does is the best one. -/
theorem bestBearer_of_best {s : Station} {q : Bearer → Bool} {l : Letter} (hf : s.fitted l = true)
    (hq : q (s.bearer l) = true)
    (hb : ∀ m, s.fitted m = true → q (s.bearer m) = true →
      (s.bearer m).grade < (s.bearer l).grade ∨ ((s.bearer m).grade = (s.bearer l).grade ∧ (l = .a ∨ m = .b))) :
    s.bestBearer q = some l := by
  have ha := hb .a; have hb := hb .b
  unfold Station.bestBearer Station.fittedBearers
  cases hfa : s.fitted .a <;> cases hfb : s.fitted .b <;> cases l <;>
    cases hqa : q (s.bearer .a) <;> cases hqb : q (s.bearer .b) <;>
    simp [hfa, hfb, hqa, hqb] at hf hq ha hb ⊢ <;> omega

/-- No bearer is the best where no fitted one passes the test. -/
theorem bestBearer_eq_none {s : Station} {q : Bearer → Bool}
    (h : ∀ l, s.fitted l = true → q (s.bearer l) = false) : s.bestBearer q = none := by
  have ha := h .a; have hb := h .b
  unfold Station.bestBearer Station.fittedBearers
  cases hfa : s.fitted .a <;> cases hfb : s.fitted .b <;>
    cases hqa : q (s.bearer .a) <;> cases hqb : q (s.bearer .b) <;>
    simp [hfa, hfb, hqa, hqb] at ha hb ⊢

/-! ### A bearer record replaced (R38, R41) -/

/-- A record replaced leaves the call contexts, the circuit view and every notice as they were. -/
theorem putBearer_frame (l : Letter) (r : Bearer) (s : Station) :
    (putBearer l r s).call = s.call ∧ (putBearer l r s).circuits = s.circuits ∧
      ∀ t ∈ s.work, t ∈ (putBearer l r s).work := by
  unfold putBearer; dsimp only
  generalize hu : (if (s.bearer l).state == .inCall && r.state != .inCall then removeBearerBridges l s else s) = u
  have hk : u.call = s.call ∧ u.circuits = s.circuits ∧ u.work = s.work := by
    rw [← hu]; split <;> exact ⟨rfl, rfl, rfl⟩
  have hs : (setBearer l r u).call = s.call ∧ (setBearer l r u).circuits = s.circuits ∧
      (setBearer l r u).work = s.work := by rw [← hk.1, ← hk.2.1, ← hk.2.2]; cases l <;> exact ⟨rfl, rfl, rfl⟩
  have hc : ∀ v : Station, (announceCause false v).call = v.call := fun v => core_call_eq (announceCause_core _ _)
  have hv : ∀ v : Station, (announceCause false v).circuits = v.circuits := fun v =>
    core_circuits_eq (announceCause_core _ _)
  have hw : ∀ (v : Station) (t : Task), t ∈ v.work → t ∈ (announceCause false v).work := by
    intro v t ht
    unfold announceCause; split
    · split
      · exact ht
      · exact ht
      all_goals
        unfold mergeAnnounce; split
        · dsimp only; split <;> exact ht
        · unfold handOver; dsimp only
          split; · exact ht
          split; · rw [addFrame_work]; exact ht
          split
          · rename_i hb; simp [TxBody.urgent] at hb
          · unfold reportDrop post; simp; left; exact ht
    · exact ht
  refine ⟨?_, ?_, ?_⟩
  · split <;> split <;> simp [hc, hk.1, postFirst, post]
  · split <;> split <;> simp [hv, hk.2.1, postFirst, post]
  · intro t ht
    have h2 : t ∈ (setBearer l r u).work := by rw [hs.2.2]; exact ht
    split <;> split
    · exact List.mem_cons_of_mem _ (List.mem_append_left _ (hw _ _ h2))
    · exact List.mem_cons_of_mem _ h2
    · exact List.mem_append_left _ (hw _ _ h2)
    · exact h2

/-- A frame but an ANNOUNCE that the line interface holds is still there after a record is replaced. -/
theorem putBearer_holds {l : Letter} {r : Bearer} {s : Station} {b : TxBody} {d : Nat} (hb : b.isAnnounce = false)
    (h : s.holdsFrame b d = true) : (putBearer l r s).holdsFrame b d = true := by
  unfold putBearer; dsimp only
  generalize hu : (if (s.bearer l).state == .inCall && r.state != .inCall then removeBearerBridges l s else s) = u
  have hk : u.holdsFrame b d = true := by rw [← hu]; split <;> exact h
  have hs : (setBearer l r u).holdsFrame b d = true := by cases l <;> exact hk
  split <;> split
  all_goals first | exact announceCause_keeps hb hs | exact hs

/-! ### The barred list (R42) -/

/-- The bar that a full list loses: none of the list expires earlier, and of those that expire with it none has a lower
network id. -/
theorem barToReplace_spec : ∀ {l : List (Nat × Stamp)} {old : Nat × Stamp}, barToReplace l = some old →
    old ∈ l ∧ ∀ b ∈ l, Stamp.before b.2 old.2 = false ∧ (b.2 = old.2 → old.1 ≤ b.1)
  | [], _, h => by simp [barToReplace] at h
  | x :: xs, old, h => by
    have same : ∀ a b : Stamp, a = b ↔ Stamp.ms a = Stamp.ms b := by
      refine fun a b => ⟨fun h => by rw [h], fun hm => ?_⟩
      obtain ⟨a1, a2⟩ := a; obtain ⟨b1, b2⟩ := b
      simp [Stamp.ms] at hm
      have := a2.isLt; have := b2.isLt
      congr 1
      · apply BitVec.eq_of_toNat_eq; omega
      · apply BitVec.eq_of_toNat_eq; omega
    unfold barToReplace at h
    cases hx : barToReplace xs with
    | none =>
      rw [hx] at h; simp at h; subst h
      cases xs with
      | nil => simp [Stamp.before]
      | cons y ys => exfalso; unfold barToReplace at hx; revert hx; split <;> (try split) <;> simp
    | some c =>
      rw [hx] at h; dsimp only at h
      obtain ⟨h1, h2⟩ := barToReplace_spec hx
      simp only [same, Stamp.before, decide_eq_false_iff_not] at h2 ⊢
      split at h
      · rename_i hb
        cases h
        simp [barGoesFirst, same, Stamp.before] at hb
        refine ⟨by simp, fun b hbm => ?_⟩
        rcases List.mem_cons.mp hbm with rfl | hbm
        · omega
        · have := h2 b hbm; omega
      · rename_i hb
        cases h
        simp [barGoesFirst, same, Stamp.before] at hb
        refine ⟨by simp [h1], fun b hbm => ?_⟩
        rcases List.mem_cons.mp hbm with rfl | hbm
        · omega
        · exact h2 b hbm

/-! ### Phases entered (R66) -/

/-- A phase entered leaves bearers, keep domain and circuits as they were. -/
theorem enterPhase_frame (p : Phase) (d : Timer) (s : Station) :
    (enterPhase p d s).bearers = s.bearers ∧ (enterPhase p d s).keep = s.keep ∧
      (enterPhase p d s).circuits = s.circuits := by
  unfold enterPhase showConnecting showNotice endFailed; dsimp only
  repeat' split
  all_goals exact ⟨rfl, rfl, rfl⟩

/-- The context once a phase is entered. -/
theorem enterPhase_origin {p : Phase} {d : Timer} {o : Origin} {s : Station} (h : s.call.origin = some o) :
    (enterPhase p d s).call.origin = some (o.enter p d) :=
  congrArg (fun k : StationCore => k.call.origin) (enterPhase_core h)

/-! ### Circuits asked for and released (R26, R30) -/

/-- The lowest circuit for which a test holds is the first of all circuits. -/
theorem allCircuits_find {P : Circuit → Bool} {c : Circuit} (hc : P c = true) (hm : ∀ d, d < c → P d = false) :
    allCircuits.find? P = some c := by
  have h0 := hm 0; have h1 := hm 1; have h2 := hm 2; have h3 := hm 3; have h4 := hm 4
  unfold allCircuits
  match c, hc with
  | 0, hc => simp [hc]
  | 1, hc => simp [hc, h0 (by decide)]
  | 2, hc => simp [hc, h0 (by decide), h1 (by decide)]
  | 3, hc => simp [hc, h0 (by decide), h1 (by decide), h2 (by decide)]
  | 4, hc => simp [hc, h0 (by decide), h1 (by decide), h2 (by decide), h3 (by decide)]
  | 5, hc => simp [hc, h0 (by decide), h1 (by decide), h2 (by decide), h3 (by decide), h4 (by decide)]

/-- The circuit that the station holds is HELD with the own flag. -/
theorem ownCircuit_held {s : Station} {c : Circuit} (h : s.ownCircuit = some c) :
    ∃ holder tag start, s.entry c = .heldOwn holder tag start := by
  have := List.find?_some h
  unfold CircuitEntry.own at this; revert this; split
  · intro _; exact ⟨_, _, _, by assumption⟩
  · simp

/-- A released circuit is FREE, and its CLEAR stands in the queue where there is room. -/
theorem releaseHeld_effect {s : Station} {c : Circuit} {h d : Nat} {tag : Tag} {start : Stamp} {r : ClearReason}
    (he : s.entry c = .heldOwn h tag start) (ht : s.line.total < 8) (ha : s.power.opState = .active) :
    (releaseHeld c r d s).entry c = .free ∧ (releaseHeld c r d s).holdsFrame (.clear tag (some c) r) d = true := by
  unfold releaseHeld; simp only [he]
  constructor
  · have h1 : ∀ v w : Station, v.core = w.core → v.entry c = w.entry c := by
      intro v w h; unfold Station.entry; rw [core_circuits_eq h]
    rw [h1 _ _ (announceCause_core _ _), h1 _ _ (handOver_core _ _ _)]
    refine Eq.trans (b := (setEntry c .free s).entry c) rfl ?_
    unfold setEntry; dsimp only; split <;> exact setView_entry_same _ _ _
  · have hk : (updOrigin (fun o => { o with schedule := none }) (dropCircuitBridge c (setEntry c .free s))).power =
        s.power ∧
        (updOrigin (fun o => { o with schedule := none }) (dropCircuitBridge c (setEntry c .free s))).line =
          s.line := by
      unfold dropCircuitBridge setEntry; dsimp only; split <;> exact ⟨rfl, rfl⟩
    refine announceCause_keeps rfl (handOver_holds ?_ ?_)
    · unfold Station.takesFrame; rw [hk.1, ha]
    · rw [hk.2]; exact ht

/-! ### The standby progress (R172) -/

/-- A frame handed over leaves the power unit as it was. -/
theorem handOver_power (b : TxBody) (d : Nat) (s : Station) : (handOver b d s).power = s.power := by
  have h1 : ∀ f (v : Station), (addFrame f v).power = v.power := by
    intro f v; unfold addFrame displace leaveService; dsimp only; repeat' split
    all_goals rfl
  have h2 : ∀ c (v : Station), (reportDrop c v).power = v.power := by
    intro c v; unfold reportDrop; split <;> rfl
  have h3 : ∀ g (v t : Station), takeRoutine v = some (g, t) → t.power = v.power := by
    intro g v t h; revert h; unfold takeRoutine; dsimp only
    repeat' split
    all_goals (intro h; simp at h; try (obtain ⟨_, rfl⟩ := h; rfl))
  unfold handOver; dsimp only
  split; · rfl
  split; · rw [h1]
  split
  · split
    · rename_i hq; rw [h1, h2, h3 _ _ _ hq]
    · rw [h2]
  · rw [h2]

/-- An ANNOUNCE merged or handed over leaves the power unit as it was. -/
theorem mergeAnnounce_power (b c : Bool) (s : Station) : (mergeAnnounce b c s).power = s.power := by
  unfold mergeAnnounce; split
  · dsimp only; split <;> rfl
  · rw [handOver_power]

/-- A standby entry abandoned has no progress. -/
theorem abandonStandby_progress (s : Station) : (abandonStandby s).power.progress = .none := by
  unfold abandonStandby
  cases h : s.power.progress <;> simp [h, mergeAnnounce_power]
  split <;> rfl

end Sys2Proof.Machine
end

