-- ==== Sys2Proof/Laws/CircuitEffects.lean ====
section
/-! SUPPORT. What the operations of the circuit unit do to the circuit view, the claim round and the notices: entries set, an
attempt begun, lost and won, the own holding released. -/

namespace Sys2Proof.Machine

/-! ### Entries -/

theorem entry_of_view {s t : Station} (h : s.circuits.view = t.circuits.view) (c : Circuit) : s.entry c = t.entry c := by
  unfold Station.entry; rw [h]

theorem handOver_circuits (b : TxBody) (d : Nat) (s : Station) : (handOver b d s).circuits = s.circuits :=
  core_circuits_eq (handOver_core _ _ _)

theorem announceCause_circuits (b : Bool) (s : Station) : (announceCause b s).circuits = s.circuits :=
  core_circuits_eq (announceCause_core _ _)

theorem announceCause_opState (b : Bool) (s : Station) : (announceCause b s).power.opState = s.power.opState :=
  congrArg StationCore.opState (announceCause_core b s)

theorem setEntry_circuits (c : Circuit) (e : CircuitEntry) (s : Station) :
    (setEntry c e s).circuits = (setView c e s).circuits := by
  unfold setEntry; dsimp only; split <;> rfl

theorem setEntry_entry (c : Circuit) (e : CircuitEntry) (s : Station) : (setEntry c e s).entry c = e := by
  unfold Station.entry; rw [setEntry_circuits]; exact setView_entry_same _ _ _

theorem setEntry_other {c d : Circuit} (h : d ≠ c) (e : CircuitEntry) (s : Station) :
    (setEntry c e s).entry d = s.entry d := by
  unfold Station.entry; rw [setEntry_circuits]; exact setView_entry_other h _ _

theorem setEntry_round (c : Circuit) (e : CircuitEntry) (s : Station) :
    (setEntry c e s).circuits.round = s.circuits.round := by
  rw [setEntry_circuits]; simp

theorem setEntry_request (c : Circuit) (e : CircuitEntry) (s : Station) :
    (setEntry c e s).circuits.request = s.circuits.request := by
  rw [setEntry_circuits]; simp

theorem setEntry_others (c : Circuit) (e : CircuitEntry) (s : Station) :
    (setEntry c e s).line = s.line ∧ (setEntry c e s).power = s.power ∧ (setEntry c e s).directory = s.directory := by
  unfold setEntry; dsimp only; split <;> exact ⟨rfl, rfl, rfl⟩

/-- An entry whose holder and tag stay as they were is set without a notice. -/
theorem setEntry_same_holding {c : Circuit} {e : CircuitEntry} {s : Station} (h : (s.entry c).holding = e.holding) :
    setEntry c e s = setView c e s := by
  unfold setEntry; dsimp only; rw [if_pos h]

/-! ### Attempts begun and lost (R26, R27, R29) -/

/-- The circuit that an attempt picks lies within the effective count, is FREE and has not been attempted. -/
theorem pickCircuit_spec {s : Station} {l : List Circuit} {c : Circuit} (h : s.pickCircuit l = some c) :
    circuitNumber c ≤ s.directory.effective ∧ s.entry c = .free ∧ c ∉ l := by
  have := List.find?_some h; simp at this; exact ⟨this.1.1, this.1.2, this.2⟩

theorem claimDraw_view (d : Nat) (s : Station) : (claimDraw d s).circuits.view = s.circuits.view := by
  unfold claimDraw; split
  · split
    · rw [handOver_circuits]
    · rfl
  · rfl

/-- An attempt that begins has picked a circuit, leaves the view as it was and stands in the round. -/
theorem beginAttempt_spec {r : Round} {s t : Station} (h : beginAttempt r s = some t) :
    ∃ c, s.pickCircuit r.attempted = some c ∧ t.circuits.view = s.circuits.view ∧
      ∃ stage, t.circuits.round = some { r with attempted := r.attempted ++ [c], circuit := c, stage := stage } := by
  unfold beginAttempt at h
  cases hp : s.pickCircuit r.attempted with
  | none => simp [hp] at h
  | some c =>
    simp only [hp] at h
    refine ⟨c, rfl, ?_⟩
    generalize hw : ({ s with
      circuits.round :=
        some { r with attempted := r.attempted ++ [c], circuit := c, stage := .waitingDraw } } : Station) = w at h
    have hv : w.circuits.view = s.circuits.view := by rw [← hw]
    have hr : w.circuits.round =
        some { r with attempted := r.attempted ++ [c], circuit := c, stage := .waitingDraw } := by rw [← hw]
    have hc := core_circuits_eq (requestDraw_core .circuit w)
    rcases hq : requestDraw .circuit w with ⟨_ | d, v⟩
    all_goals
      rw [hq] at h hc; dsimp only at hc; simp at h; subst h
    · rw [hc]; exact ⟨hv, _, hr⟩
    · rw [claimDraw_view, hc]
      refine ⟨hv, .claimSent d, ?_⟩
      unfold claimDraw; rw [hc, hr]; simp
      rw [handOver_circuits]

theorem beginAttempt_view {r : Round} {s t : Station} (h : beginAttempt r s = some t) :
    t.circuits.view = s.circuits.view := by
  obtain ⟨_, _, h, _⟩ := beginAttempt_spec h; exact h

theorem openRound_view (t : Tag) (s : Station) : (openRound t s).circuits.view = s.circuits.view := by
  unfold openRound; dsimp only; split
  · rename_i h; exact beginAttempt_view h
  · rfl

theorem takeHeldRequest_view (s : Station) : (takeHeldRequest s).circuits.view = s.circuits.view := by
  unfold takeHeldRequest; split
  · rw [openRound_view]
  · rfl

theorem endRound_view (r : Round) (e : RoundFailure) (s : Station) : (endRound r e s).circuits.view = s.circuits.view := by
  unfold endRound; dsimp only; rw [takeHeldRequest_view]; split <;> rfl

theorem continueRound_view (r : Round) (s : Station) : (continueRound r s).circuits.view = s.circuits.view := by
  unfold continueRound; split
  · rename_i h; exact beginAttempt_view h
  · exact endRound_view _ _ _

theorem attemptLost_view (s : Station) : (attemptLost s).circuits.view = s.circuits.view := by
  unfold attemptLost; split
  · dsimp only; split
    · exact endRound_view _ _ _
    · exact continueRound_view _ _
  · rfl

/-- The third attempt lost ends its round with ATTEMPTS_LOST. -/
theorem attemptLost_third {r : Round} {s : Station} (h : s.circuits.round = some r) (ha : r.abandoned = none)
    (hn : r.attempts = 2) (hq : s.circuits.request = none) :
    (attemptLost s).circuits.round = none ∧ .roundFailed r.tag .attemptsLost ∈ (attemptLost s).work := by
  unfold attemptLost; simp [h, ha, hn, endRound, takeHeldRequest, hq]

/-- An attempt lost before the third is followed by the next, or ends its round with NO_FREE_CIRCUIT. -/
theorem attemptLost_earlier {r : Round} {s : Station} (h : s.circuits.round = some r) (ha : r.abandoned = none)
    (hn : r.attempts < 2) (hq : s.circuits.request = none) :
    ((attemptLost s).circuits.round = none ∧ .roundFailed r.tag .noFreeCircuit ∈ (attemptLost s).work) ∨
      ∃ q, (attemptLost s).circuits.round = some q ∧ q.tag = r.tag ∧ q.attempts = r.attempts + 1 ∧
        q.circuit ∉ r.attempted ∧ circuitNumber q.circuit ≤ s.directory.effective ∧ s.entry q.circuit = .free := by
  unfold attemptLost; simp only [h]; rw [if_neg (by simp [ha]; omega)]
  unfold continueRound
  cases hb : beginAttempt { r with attempts := r.attempts + 1 } s with
  | none => left; simp [endRound, ha, takeHeldRequest, hq]
  | some t =>
    right
    obtain ⟨c, hp, -, _, hr⟩ := beginAttempt_spec hb
    have := pickCircuit_spec hp
    exact ⟨_, hr, rfl, rfl, this.2.2, this.1, this.2.1⟩

/-- An abandoned round ends with its lost attempt, without a report. -/
theorem attemptLost_abandoned {r : Round} {s : Station} {a : Abandonment} (h : s.circuits.round = some r)
    (ha : r.abandoned = some a) (hq : s.circuits.request = none) :
    (attemptLost s).circuits.round = none ∧ (attemptLost s).work = s.work := by
  unfold attemptLost; simp only [h]; rw [if_pos (by simp [ha])]
  simp [endRound, ha, takeHeldRequest, hq]

/-! ### Attempts won and holdings released (R27, R29, R30) -/

/-- A won attempt ends its round, is reported, and leaves the view as it was, where the round is not abandoned. -/
theorem attemptWon_kept_round {r : Round} {s : Station} (h : s.circuits.round = some r) (ha : r.abandoned = none) :
    (attemptWon s).circuits.round = none ∧ .roundWon r.tag ∈ (attemptWon s).work ∧
      (attemptWon s).circuits.view = s.circuits.view := by
  have hc := announceCause_circuits false { s with circuits.round := none }
  unfold attemptWon; simp only [h, ha]
  exact ⟨congrArg Circuits.round hc, by simp, (congrArg Circuits.view hc).trans rfl⟩

/-- A won attempt of an abandoned round releases its circuit and reports nothing. -/
theorem attemptWon_abandoned {r : Round} {s : Station} {a : Abandonment} (h : s.circuits.round = some r)
    (ha : r.abandoned = some a) :
    attemptWon s =
      takeHeldRequest
        (releaseHeld r.circuit a.reason a.dest (announceCause false { s with circuits.round := none })) := by
  unfold attemptWon; simp only [h, ha]

/-- A release leaves the claim round and the held request as they were. -/
theorem releaseHeld_round (c : Circuit) (r : ClearReason) (d : Nat) (s : Station) :
    (releaseHeld c r d s).circuits.round = s.circuits.round ∧
      (releaseHeld c r d s).circuits.request = s.circuits.request := by
  unfold releaseHeld; split
  · dsimp only; rw [announceCause_circuits, handOver_circuits]
    exact ⟨setEntry_round _ _ _, setEntry_request _ _ _⟩
  · exact ⟨rfl, rfl⟩

/-- A release frees its circuit and no other. -/
theorem releaseHeld_entries {c : Circuit} {r : ClearReason} {d h : Nat} {tag : Tag} {start : Stamp} {s : Station}
    (he : s.entry c = .heldOwn h tag start) :
    (releaseHeld c r d s).entry c = .free ∧ ∀ e, e ≠ c → (releaseHeld c r d s).entry e = s.entry e := by
  have hc : (releaseHeld c r d s).circuits = (setEntry c .free s).circuits := by
    unfold releaseHeld; simp only [he]
    rw [announceCause_circuits, handOver_circuits]; rfl
  have hv : ∀ e, (releaseHeld c r d s).entry e = (setEntry c .free s).entry e :=
    entry_of_view (congrArg Circuits.view hc)
  exact ⟨(hv c).trans (setEntry_entry _ _ _), fun e h => (hv e).trans (setEntry_other h _ _)⟩

/-- The release that the call engine asks for is that of the circuit held. -/
theorem releaseCircuit_held {c : Circuit} {s : Station} (h : s.ownCircuit = some c) (r : ClearReason) (d : Nat) :
    releaseCircuit r d s = releaseHeld c r d s := by
  unfold releaseCircuit; rw [h]

/-! ### Room in the transmit queue -/

theorem handOver_total {b : TxBody} {d : Nat} {s : Station} (h : s.line.total < 8) :
    (handOver b d s).line.total ≤ s.line.total + 1 := by
  by_cases ht : s.takesFrame b d = true
  · exact Nat.le_of_eq (by rw [handOver_room ht h, addFrame_total])
  · simp [handOver, ht]

/-- An ANNOUNCE cause takes one place in the queue at the most. -/
theorem announceCause_total {b : Bool} {s : Station} (h : s.line.total < 8) :
    (announceCause b s).line.total ≤ s.line.total + 1 := by
  have hm : ∀ f : TxBody → TxBody, (mapAnnounce f s).line.total ≤ s.line.total + 1 := by
    intro f; unfold mapAnnounce Line.total; simp
  have hs : (mergeAnnounce false b s).line.total ≤ s.line.total + 1 := by
    unfold mergeAnnounce; split
    · dsimp only; split <;> exact hm _
    · exact handOver_total (s := { s with announcing.period := none }) h
  unfold announceCause; split
  · split
    · exact Nat.le_succ _
    · exact Nat.le_succ _
    · exact hs
    · exact hs
  · exact Nat.le_succ _

end Sys2Proof.Machine
end

