-- ==== Sys2Proof/Laws/Entries.lean ====
section
/-! SUPPORT. What the whole-station transitions leave: the resets, entering ACTIVE and ISOLATED, a reload, and the peer
directory's own operations. -/

namespace Sys2Proof.Machine

/-- At START with nothing waiting and the line block at reset, what every event ends with changes nothing. -/
theorem finish_cleared {s : Station} (hw : s.work = []) (ho : s.power.opState = .start) (hp : s.power.progress = .none)
   (hr : s.power.reload = none) (hi : s.power.idleTimer = none) (hl : s.line = clearedLine) (hs : s.reports.stall = none) : finish s = s := by
  have hq : s.quiet = false := by simp [Station.quiet, ho]
  have hin : s.inService = false := by simp [Station.inService, ho]
  have h1 : keepStall s = s := by
    unfold keepStall; simp [hin]
    obtain ⟨k, p, d, an, c, l, dr, b, au, pa, ca, ⟨x, y, z⟩, cab, f, o, w⟩ := s
    simp at hs; simp [hs]
  have h2 : markReload s = s := by unfold markReload; rw [hr]
  have h3 : keepIdle s = s := by
    unfold keepIdle; rw [hp]; simp [hq]
    obtain ⟨k, p, d, an, c, l, dr, b, au, pa, ca, re, cab, f, o, w⟩ := s
    cases p; simp_all
  have h5 : standbyCheck s = s := by
    unfold standbyCheck; rw [hp]; exact h3
  have h4 : pump s = s := by
    unfold pump tryAttempt; rw [hl]; rfl
  simp [finish, hw, upkeep, h1, h2, h3, h4, h5]

/-- all fields but keep.dropped and free. -/
theorem countDropped_shape (s : Station) : ∃ n f, countDropped s = { s with keep.dropped := n, free := f } ∧
   (s.keep.dropped.toNat + 1 < 4294967296 → n.toNat = s.keep.dropped.toNat + 1) := by
  unfold countDropped countUp; dsimp only; split
  · rename_i h; refine ⟨_, _, rfl, fun h2 => ?_⟩
    rw [h] at h2; simp at h2
  · refine ⟨s.keep.dropped + 1#32, s.free, rfl, fun h2 => ?_⟩
    simp [BitVec.toNat_add]; omega

/-- Dropping a whole queue counts its length. -/
theorem dropAll_shape {α : Type} (l : List α) (s : Station) : ∃ n f, l.foldl (fun t _ => countDropped t) s = { s with keep.dropped := n, free := f } ∧
   (s.keep.dropped.toNat + l.length < 4294967296 → n.toNat = s.keep.dropped.toNat + l.length) := by
  induction l generalizing s with
  | nil => exact ⟨s.keep.dropped, s.free, rfl, fun _ => by simp⟩
  | cons x l ih =>
    obtain ⟨n, f, h, hn⟩ := countDropped_shape s
    obtain ⟨m, g, h', hm⟩ := ih (countDropped s)
    refine ⟨m, g, ?_, fun hl => ?_⟩
    · rw [List.foldl_cons, h', h]
    · simp at hl
      have h1 := hn (by omega)
      have h2 : (countDropped s).keep.dropped.toNat = s.keep.dropped.toNat + 1 := by rw [h]; exact h1
      have := hm (by omega)
      simp; omega

/-- What a reset writes before it clears: the keep domain alone. -/
theorem writeLast_shape (s : Station) : ∃ k f, writeLast s = { s with keep := k, free := f } ∧ s.KeepAfterReset k := by
  unfold writeLast; dsimp only
  have key : ∀ u : Station, (∃ t, u = { s with keep.tally := t } ∧ t = (if s.interruptible && !s.keep.tally.frozen then
            { s.keep.tally with interrupted := s.keep.tally.interrupted + 1 }
          else s.keep.tally)) → ∃ k f, s.reports.queue.foldl (fun t (_ : ReportEntry) => countDropped t) u = { s with keep := k, free := f } ∧ s.KeepAfterReset k := by
    rintro u ⟨t, rfl, ht⟩
    obtain ⟨n, f, h, hn⟩ := dropAll_shape s.reports.queue { s with keep.tally := t }
    rw [h]
    refine ⟨_, _, rfl, ?_, ?_⟩
    · rw [← ht]
    · simpa using hn
  have hq : ∀ (u : Station), u.reports = s.reports → u.reports.queue = s.reports.queue := fun u h => by rw [h]
  split
  · rename_i o ho
    split
    · rename_i hc
      have : s.interruptible = true := by simp [Station.interruptible, ho]; simpa using hc
      have hu : ∃ t, tallyUp (fun t => { t with interrupted := t.interrupted + 1 }) s = { s with keep.tally := t } ∧ t = (if s.interruptible && !s.keep.tally.frozen then
            { s.keep.tally with interrupted := s.keep.tally.interrupted + 1 }
          else s.keep.tally) := by
        unfold tallyUp; split
        · rename_i hf; exact ⟨s.keep.tally, rfl, by simp [hf]⟩
        · rename_i hf; exact ⟨_, rfl, by simp [hf, this]⟩
      have h2 := key _ hu
      obtain ⟨t, h1, -⟩ := hu
      rw [h1] at h2 ⊢; exact h2
    · rename_i hc
      refine key s ⟨s.keep.tally, rfl, ?_⟩
      have : s.interruptible = false := by simp [Station.interruptible, ho]; simpa using hc
      simp [this]
  · rename_i ho
    refine key s ⟨s.keep.tally, rfl, ?_⟩
    simp [Station.interruptible, ho]

/-- What the clearing at a reset leaves: POWER and the keep domain. -/
theorem clearBlocks_power (s : Station) : (clearBlocks s).power = s.power ∧ (clearBlocks s).keep = s.keep ∧ (clearBlocks s).Cleared ∧ (clearBlocks s).work = [] := by
  have hp : ∀ (l : Letter) (t : Station), (powerDownIfPowered l t).power = t.power ∧ (powerDownIfPowered l t).keep = t.keep := by
    intro l t; unfold powerDownIfPowered; split <;> exact ⟨rfl, rfl⟩
  have h1 : (clearBearers s).power = s.power := by simp [clearBearers, (hp _ _).1]
  have h2 : (clearBearers s).keep = s.keep := by simp [clearBearers, (hp _ _).2]
  refine ⟨by simp [clearBlocks, clearDirectory, h1], by simp [clearBlocks, clearDirectory, h2], ?_, rfl⟩
  unfold Station.Cleared
  refine ⟨?_, rfl, rfl, rfl, rfl, rfl, rfl, rfl, rfl, rfl⟩
  simp [clearBlocks, clearDirectory, Station.config, h2]

theorem clearBlocks_writeLast (s : Station) : ∃ u : Station, clearBlocks (writeLast s) = u ∧ u.power = s.power ∧ s.KeepAfterReset u.keep ∧
    u.keep.clock = s.keep.clock ∧ u.keep.reference = s.keep.reference ∧ u.Cleared ∧ u.work = [] := by
  obtain ⟨k, f, hw, hk⟩ := writeLast_shape s
  obtain ⟨h1, h2, h3, h4⟩ := clearBlocks_power (writeLast s)
  have hkc : k.clock = s.keep.clock ∧ k.reference = s.keep.reference := by rw [hk.1]; exact ⟨rfl, rfl⟩
  refine ⟨_, rfl, by rw [h1, hw], by rw [h2, hw]; exact hk, by rw [h2, hw]; exact hkc.1, by rw [h2, hw]; exact hkc.2, h3, h4⟩

/-- What a warm reset leaves (R23). -/
theorem warmReset_shape (s : Station) :
    (warmReset s).power = { s.power.cleared with startCause := .warm, wakeCause := none, held := false, configRead := some (s.within 500) } ∧
    (warmReset s).Cleared ∧ s.KeepAfterReset (warmReset s).keep ∧ (warmReset s).cabinet = clearedCabinet s.keep.reference (some (s.within 1000)) ∧ finish (warmReset s) = warmReset s := by
  obtain ⟨u, hu, hp, hk, hc, hr, h3, h4⟩ := clearBlocks_writeLast s
  have hwi : ∀ d, u.within d = s.within d := by intro d; simp [Station.within, Station.now, hc]
  simp only [warmReset, hu]
  refine ⟨?_, h3, hk, ?_, ?_⟩
  · simp [enterStart, emit, hwi, hp]
  · simp [enterStart, emit, hwi, hr]
  · refine finish_cleared h4 rfl rfl rfl rfl h3.2.2.2.1 ?_
    show u.reports.stall = none
    rw [h3.2.2.2.2.2.2.2.2.2]; rfl

/-- What a reset that is held leaves. -/
theorem holdReset_shape (s : Station) :
    (holdReset s).power = { s.power.cleared with held := true } ∧
    (holdReset s).Cleared ∧ s.KeepAfterReset (holdReset s).keep ∧ (holdReset s).cabinet = clearedCabinet s.keep.reference none := by
  obtain ⟨u, hu, hp, hk, hc, hr, h3, h4⟩ := clearBlocks_writeLast s
  simp only [holdReset, hu, hp, hr]
  exact ⟨trivial, h3, hk, trivial⟩

/-- A bearer that START or a wake has powered up (R39). -/
def startedAt (now : Stamp) : Bearer :=
  { clearedBearer with state := .starting, powered := true, inFlight := some ⟨.powerUp, some (Stamp.later now 20000)⟩ }

theorem putBearer_bearer_other {l m : Letter} (h : m ≠ l) (r : Bearer) (s : Station) : (putBearer l r s).bearer m = s.bearer m := by
  have key : ∀ t u : Station, t.bearers = u.bearers → t.bearer m = u.bearer m := by
    intro t u e; cases m <;> simp [Station.bearer, e]
  refine (key _ (setBearer l r s) ?_).trans (by simp [h])
  unfold putBearer; dsimp only
  split <;> split <;> split <;> cases l <;> simp [setBearer, removeBearerBridges]

theorem startBearer_cleared {l : Letter} {s : Station} (h : s.bearer l = clearedBearer) :
    (startBearer l s).kept = s.kept.withBearer l (startedAt s.now) := by
  rw [startBearer_kept_with, h]; rfl

theorem startBearer_other {l m : Letter} (h : m ≠ l) (s : Station) : (startBearer l s).bearer m = s.bearer m := by
  unfold startBearer sendCommand
  rw [putBearer_bearer_other h]
  cases m <;> rfl

theorem startFitted_kept {s : Station} (h : s.bearers = clearedBearers) :
    (startFitted s).kept =
      { s.kept with
        bearerA := (if s.fitted .a then startedAt s.now else clearedBearer).kept
        bearerB := (if s.fitted .b then startedAt s.now else clearedBearer).kept } := by
  have ha : s.bearer .a = clearedBearer := by simp [Station.bearer, h, clearedBearers]
  have hb : s.bearer .b = clearedBearer := by simp [Station.bearer, h, clearedBearers]
  have hoff : clearedBearer.state = .off := rfl
  have hka : s.kept.bearerA = clearedBearer.kept := by simp [Station.kept, h, clearedBearers]
  have hkb : s.kept.bearerB = clearedBearer.kept := by simp [Station.kept, h, clearedBearers]
  have ea : ∀ (r : Bearer), s.kept.withBearer .a r = { s.kept with bearerA := r.kept } := fun _ => rfl
  have eb : ∀ (k : Kept) (r : Bearer), k.withBearer .b r = { k with bearerB := r.kept } := fun _ _ => rfl
  have hcl : (startBearer .a s).now = s.now := congrArg Kept.clock (startBearer_cleared ha)
  have hb' : (startBearer .a s).bearer .b = clearedBearer := by rw [startBearer_other (by decide), hb]
  unfold startFitted Station.fittedBearers
  by_cases h1 : s.fitted .a = true <;> by_cases h2 : s.fitted .b = true
  · simp [h1, h2, ha, hb', hoff]
    rw [startBearer_cleared hb', startBearer_cleared ha, hcl]; rfl
  · simp [h1, h2, ha, hoff]
    rw [startBearer_cleared ha, ea, ← hkb]
  · simp [h1, h2, hb, hoff]
    rw [startBearer_cleared hb, eb, ← hka]
  · simp [h1, h2]
    cases hk : s.kept
    simp [hk] at hka hkb
    simp [hka, hkb]

theorem handRequest_kept (s : Station) : (handRequest s).kept = { s.kept with request := none } := by
  unfold handRequest; split
  · rw [createOrigin_kept]; rfl
  · rename_i h; simp [Station.kept, h]

theorem handPending_kept (s : Station) :
    (handPending s).kept = { s.kept with cabinet := { s.cabinet with pending := [] } } := by
  unfold handPending; dsimp only
  rw [foldl_kept _ (fun t e => handReport_kept e t)]; rfl

theorem enterActive_kept {s : Station} (h : s.bearers = clearedBearers) :
    (enterActive s).kept =
      { s.kept with
        opState := .active, configRead := none, request := none
        directory := { entries := [], effective := s.config.circuits }
        cabinet := { s.cabinet with pending := [] }
        bearerA := (if s.fitted .a then startedAt s.now else clearedBearer).kept
        bearerB := (if s.fitted .b then startedAt s.now else clearedBearer).kept } := by
  unfold enterActive; dsimp only
  generalize hu : clearDirectory { s with power.opState := .active, power.configRead := none } = u
  have hub : (announceCause true (emit (.sensorRate 100) u)).bearers = clearedBearers := by
    rw [announceCause_bearers, ← hu]; exact h
  have huk : (announceCause true (emit (.sensorRate 100) u)).kept = { s.kept with opState := .active, configRead := none, directory := { entries := [], effective := s.config.circuits } } := by
    rw [announceCause_kept, ← hu]; rfl
  generalize announceCause true (emit (.sensorRate 100) u) = v at hub huk ⊢
  have hf : ∀ l, v.fitted l = s.fitted l := by
    have hc : v.keep.config = s.keep.config := congrArg Kept.config huk
    have hcc : v.config = s.config := by unfold Station.config; rw [hc]
    intro l; cases l <;> simp only [Station.fitted, hcc]
  have hn : v.now = s.now := congrArg Kept.clock huk
  have hc : (startFitted v).cabinet = s.cabinet := by
    have := congrArg Kept.cabinet (startFitted_kept hub)
    exact this.trans (congrArg Kept.cabinet huk)
  rw [handPending_kept, handRequest_kept, startFitted_kept hub, huk]
  have hc2 : (handRequest (startFitted v)).cabinet = s.cabinet := by
    have := congrArg Kept.cabinet (handRequest_kept (startFitted v))
    exact this.trans hc
  rw [hc2]
  simp only [hf, hn]

theorem enterIsolatedFromStart_kept {s : Station} (h : s.bearers = clearedBearers) :
    (enterIsolatedFromStart s).kept =
      { s.kept with
        opState := .isolated, configRead := none, request := none
        directory := { entries := [], effective := s.config.circuits }
        cabinet := { s.cabinet with pending := [] }
        bearerA := (if s.fitted .a then startedAt s.now else clearedBearer).kept
        bearerB := (if s.fitted .b then startedAt s.now else clearedBearer).kept } := by
  unfold enterIsolatedFromStart; dsimp only
  generalize hu : clearDirectory { s with power.opState := .isolated, power.configRead := none } = u
  have hub : (emit (.sensorRate 100) u).bearers = clearedBearers := by
    rw [← hu]; exact h
  have huk : (emit (.sensorRate 100) u).kept = { s.kept with opState := .isolated, configRead := none, directory := { entries := [], effective := s.config.circuits } } := by
    rw [← hu]; rfl
  generalize emit (.sensorRate 100) u = v at hub huk ⊢
  have hf : ∀ l, v.fitted l = s.fitted l := by
    have hc : v.keep.config = s.keep.config := congrArg Kept.config huk
    have hcc : v.config = s.config := by unfold Station.config; rw [hc]
    intro l; cases l <;> simp only [Station.fitted, hcc]
  have hn : v.now = s.now := congrArg Kept.clock huk
  have hc : (startFitted v).cabinet = s.cabinet := by
    have := congrArg Kept.cabinet (startFitted_kept hub)
    exact this.trans (congrArg Kept.cabinet huk)
  rw [handPending_kept, handRequest_kept, startFitted_kept hub, huk]
  have hc2 : (handRequest (startFitted v)).cabinet = s.cabinet := by
    have := congrArg Kept.cabinet (handRequest_kept (startFitted v))
    exact this.trans hc
  rw [hc2]
  simp only [hf, hn]

theorem finish_kept_of {s : Station} {k : Kept} (hk : s.kept = k) (ho : k.opState ≠ .standby) (hw : k.waitingEntry = false) :
    (finish s).kept = k := by
  subst hk
  exact finish_kept ho (by intro h; simp [Station.kept, h] at hw)

theorem configInvalid_kept {s : Station} (h : s.bearers = clearedBearers) :
    (configInvalid s).kept =
      { s.kept.raised .configInvalid with
        config := some builtInSet
        opState := .isolated, configRead := none, request := none
        directory := { entries := [], effective := 4 }
        cabinet := { s.cabinet with pending := [] }
        bearerA := (startedAt s.now).kept
        bearerB := (startedAt s.now).kept } := by
  unfold configInvalid
  generalize hu : ({ raise .configInvalid s with keep.config := some builtInSet } : Station) = u
  have hk : u.kept = { s.kept.raised .configInvalid with config := some builtInSet } := by
    rw [← hu, ← raise_kept_raised]; rfl
  have hc : u.config = builtInSet := by rw [← hu]; rfl
  have hcab : u.cabinet = s.cabinet := by rw [← hu]; rfl
  have hn : u.now = s.now := by rw [← hu]; rfl
  have hf : ∀ l, u.fitted l = true := by intro l; cases l <;> simp [Station.fitted, hc, builtInSet]
  rw [enterIsolatedFromStart_kept (by rw [← hu]; exact h), hk, hc, hcab, hn, hf, hf]; rfl

theorem tallyUp_picture (f) (s : Station) : (tallyUp f s).picture = s.picture := by
  unfold tallyUp; split <;> rfl

theorem countDropped_picture (s : Station) : (countDropped s).picture = s.picture := picture_of_kept (by simp)

theorem writeLast_picture (s : Station) : (writeLast s).picture = s.picture := by
  unfold writeLast; dsimp only
  rw [foldl_picture _ (fun t e => countDropped_picture t)]
  split
  · split
    · exact tallyUp_picture _ _
    · rfl
  · rfl

theorem warmReset_picture (s : Station) : (warmReset s).picture = (s.keep.config, .start, ⟨[], s.config.circuits⟩) := by
  have h := clearBlocks_picture (writeLast s)
  have hc : (writeLast s).keep.config = s.keep.config := picture_config (writeLast_picture s)
  have h1 : (clearBlocks (writeLast s)).keep.config = s.keep.config := (congrArg (·.1) h).trans hc
  have hd : (clearBlocks (writeLast s)).directory = ⟨[], s.config.circuits⟩ := by
    refine (congrArg (·.2.2) h).trans ?_
    simp [Station.config, hc]
  simp [warmReset, enterStart, Station.picture, emit, h1, hd, Power.cleared]

theorem holdReset_picture (s : Station) : (holdReset s).picture = (s.keep.config, .start, ⟨[], s.config.circuits⟩) := by
  have h := clearBlocks_picture (writeLast s)
  have hc : (writeLast s).keep.config = s.keep.config := picture_config (writeLast_picture s)
  have h1 : (clearBlocks (writeLast s)).keep.config = s.keep.config := (congrArg (·.1) h).trans hc
  have hd : (clearBlocks (writeLast s)).directory = ⟨[], s.config.circuits⟩ := by
    refine (congrArg (·.2.2) h).trans ?_
    simp [Station.config, hc]
  simp [holdReset, Station.picture, h1, hd, Power.cleared]

theorem powerOnReset_picture (s : Station) : (powerOnReset s).picture = (none, .start, ⟨[], 4⟩) := by
  unfold powerOnReset; dsimp only; split
  · rw [holdReset_picture]; rfl
  · rfl

theorem keepLost_picture (s : Station) : (keepLost s).picture = (none, .start, ⟨[], 4⟩) := rfl

theorem refreshPeer_config (a : Nat) (s : Station) : (refreshPeer a s).keep = s.keep ∧ (refreshPeer a s).power = s.power := by
  unfold refreshPeer; split <;> exact ⟨rfl, rfl⟩

theorem recomputeCount_picture (b : Bool) (s : Station) :
    (recomputeCount b s).picture = (s.keep.config, s.power.opState, ⟨s.directory.entries, s.countOf⟩) := by
  unfold recomputeCount; dsimp only; (repeat' split) <;> rfl

theorem recount_picture (b : Bool) (s : Station) :
    (recount b s).picture = (s.keep.config, s.power.opState, ⟨s.directory.entries, s.countOf⟩) := by
  unfold recount
  exact (picture_of_kept (countChanged_kept _)).trans (recomputeCount_picture b s)

theorem fileAnnounce_config (a : Nat) (b) (s : Station) : (fileAnnounce a b s).keep.config = s.keep.config ∧ (fileAnnounce a b s).power.opState = s.power.opState := by
  unfold fileAnnounce; split
  · exact ⟨rfl, rfl⟩
  · split
    · have := recount_picture s.mismatched { s with directory.entries := fileEntry (b.entry a s.now) s.directory.entries }
      exact ⟨congrArg (·.1) this, congrArg (·.2.1) this⟩
    · have := refreshPeer_config a s
      exact ⟨by rw [this.1], by rw [this.2]⟩

theorem agePeer_picture (a : Nat) (s : Station) : (agePeer a s).picture = (s.keep.config, s.power.opState,
    ⟨s.directory.entries.filter fun e => e.address != a, Station.countOf { s with directory.entries := s.directory.entries.filter fun e => e.address != a }⟩) :=
  recount_picture _ _

theorem enterIsolated_picture (s : Station) : (enterIsolated s).picture = (s.keep.config, .isolated, ⟨[], s.config.circuits⟩) := by
  have hr : ∀ u : Station, (isolateReports u).picture = u.picture := by
    intro u; unfold isolateReports; dsimp only
    have : ∀ (l : List ReportEntry) (v : Station), (l.foldl (fun t e => returnWaiting e.record.tag t) v).picture = v.picture := fun l v =>
      foldl_picture _ (fun t e => picture_of_kept (by simp)) l v
    rw [post_picture]
    exact this _ u
  have hcar : ∀ u : Station, (isolateCarriers u).picture = u.picture := by
    intro u; unfold isolateCarriers
    exact foldl_picture _ (fun t e => picture_of_kept (by simp)) _ _
  have hor : ∀ u : Station, (isolateOrigin u).picture = u.picture := by
    intro u; refine picture_of_kept ?_
    unfold isolateOrigin; dsimp only; repeat' split
    all_goals simp
  have hl : ∀ u : Station, (isolateLine u).picture = u.picture := by
    intro u; unfold isolateLine; dsimp only; repeat' split
    all_goals rfl
  have hc : ∀ u : Station, (isolateCircuits u).picture = u.picture := by
    intro u; unfold isolateCircuits; dsimp only
    split
    · rfl
    · rfl
  unfold enterIsolated; dsimp only
  rw [hr, hcar, hor, emit_picture, clearDirectory_picture]
  have := hc (isolateLine (withdrawDraw .reply { s with power.opState := .isolated, power.progress := .none, power.idleTimer := none, announcing := clearedAnnouncing }))
  rw [hl, withdrawDraw_picture] at this
  have h1 := congrArg (·.1) this
  have h2 := congrArg (·.2.1) this
  simp only [Station.picture] at h1 h2
  rw [show (_ : Option Configuration) = _ from h1, h2]
  simp [Station.config, h1]

theorem freeHeldBy_picture (a : Option Nat) (s : Station) : (freeHeldBy a s).picture = s.picture := by
  unfold freeHeldBy
  exact foldl_picture _ (fun t c => by split; · split <;> rfl
                                       · rfl) _ _

@[simp] theorem dropRound_picture (s : Station) : (dropRound s).picture = s.picture :=
  picture_of_kept (withdrawAttempt_kept s)

theorem reloadAnnounce_picture (o n : Configuration) (s : Station) : (reloadAnnounce o n s).picture = s.picture := by
  unfold reloadAnnounce; dsimp only
  repeat' split
  all_goals simp

theorem applyReload_picture (c : Configuration) (s : Station) : ∃ d, (applyReload c s).picture = (some c, s.power.opState, d) ∧
   (d = ⟨[], c.circuits⟩ ∨ ∃ es, d = ⟨es, es.foldl (fun n e => min n e.circuits) c.circuits⟩ ∧ 
     ((s.config.address = c.address ∧ es = s.directory.entries) ∨ es = s.directory.entries.filter fun e => some e.address != c.address)) := by
  have hn : ∀ op : Station → Station, ∀ u, (notingLendReady op u).picture = (op u).picture := by
    intro op u; unfold notingLendReady; dsimp only; split <;> simp
  unfold applyReload; dsimp only
  rw [hn, startFitted_picture, unfit_picture, unfit_picture, reloadAnnounce_picture]
  unfold reloadPicture
  split
  · have hd := dropRound_picture { s with keep.config := some c }
    have h1 := picture_config hd
    have h2 := picture_opState hd
    exact ⟨_, (recomputeCount_picture s.mismatched
        { dropRound { s with keep.config := some c } with directory.entries := [] }).trans (by rw [h1, h2]),
      Or.inl (by simp [Station.countOf, Station.config, h1])⟩
  · split
    · generalize hv : ({ s with keep.config := some c, directory.entries := s.directory.entries.filter fun e => some e.address != c.address } : Station) = v
      generalize hu : dropRound v = u
      have hd : u.picture = v.picture := by rw [← hu]; exact dropRound_picture v
      have hp := freeHeldBy_picture c.address u
      have h1 : (freeHeldBy c.address u).keep.config = some c := by rw [picture_config hp, picture_config hd, ← hv]
      have h2 : (freeHeldBy c.address u).power.opState = s.power.opState := by rw [picture_opState hp, picture_opState hd, ← hv]
      have h3 : (freeHeldBy c.address u).directory.entries = s.directory.entries.filter fun e => some e.address != c.address := by rw [picture_directory hp, picture_directory hd, ← hv]
      refine ⟨⟨(freeHeldBy c.address u).directory.entries, (freeHeldBy c.address u).countOf⟩, ?_, Or.inr ⟨_, ?_, Or.inr rfl⟩⟩
      · rw [recount_picture, h1, h2]
      · simp only [Station.countOf, Station.config, h1, h3]; rfl
    · rename_i ha
      refine ⟨_, by rw [recount_picture]; rfl, Or.inr ⟨_, rfl, Or.inl ⟨by simpa using ha, rfl⟩⟩⟩

theorem judgeRecord_cases (bytes) (s : Station) : (∃ c, readConfiguration bytes = some c ∧ (judgeRecord bytes s).picture = (some c, .active, ⟨[], c.circuits⟩)) ∨
   (judgeRecord bytes s).picture = (some builtInSet, .isolated, ⟨[], builtInSet.circuits⟩) := by
  unfold judgeRecord; split
  · rename_i c hc
    exact Or.inl ⟨c, hc, enterActive_picture _⟩
  · exact Or.inr (enterIsolatedFromStart_picture _)

theorem putEntry_mem {e f : PeerEntry} {l : List PeerEntry} (h : f ∈ putEntry e l) : f = e ∨ f ∈ l := by
  induction l with
  | nil => simp [putEntry] at h; exact Or.inl h
  | cons g gs ih =>
    unfold putEntry at h
    split at h
    · simp at h ⊢; rcases h with h | h <;> simp [h]
    · split at h
      · simp at h ⊢; rcases h with h | h | h <;> simp [h]
      · simp at h ⊢; rcases h with h | h
        · simp [h]
        · rcases ih h with h | h <;> simp [h]

theorem putEntry_sorted {e : PeerEntry} {l : List PeerEntry} (h : List.Pairwise (fun e f => e.address < f.address) l) :
    List.Pairwise (fun e f => e.address < f.address) (putEntry e l) := by
  induction l with
  | nil => simp [putEntry]
  | cons g gs ih =>
    rw [List.pairwise_cons] at h
    unfold putEntry
    split
    · rename_i ha; rw [List.pairwise_cons]; exact ⟨fun f hf => by rw [← ha]; exact h.1 f hf, h.2⟩
    · split
      · rename_i hl
        rw [List.pairwise_cons]
        refine ⟨fun f hf => ?_, List.pairwise_cons.mpr h⟩
        simp at hf; rcases hf with rfl | hf
        · exact hl
        · have := h.1 f hf; omega
      · rename_i h1 h2
        rw [List.pairwise_cons]
        refine ⟨fun f hf => ?_, ih h.2⟩
        rcases putEntry_mem hf with rfl | hf
        · omega
        · exact h.1 f hf

theorem putEntry_length (e : PeerEntry) (l : List PeerEntry) : (putEntry e l).length ≤ l.length + 1 := by
  induction l with
  | nil => simp [putEntry]
  | cons g gs ih => unfold putEntry; split; · simp
                    · split; · simp
                      · simp; omega

theorem putEntry_length_of_any {e : PeerEntry} {l : List PeerEntry} (h : List.Pairwise (fun e f => e.address < f.address) l) (hi : (l.any fun f => f.address == e.address) = true) : (putEntry e l).length ≤ l.length := by
  induction l with
  | nil => simp at hi
  | cons g gs ih =>
    rw [List.pairwise_cons] at h
    unfold putEntry; split; · simp
    · rename_i hn
      have hi' : (gs.any fun f => f.address == e.address) = true := by simpa [hn] using hi
      split
      · rename_i hl
        simp at hi'
        obtain ⟨f, hf, he⟩ := hi'
        have := h.1 f hf; omega
      · have := ih h.2 hi'; simp; omega

theorem oldestEntry_mem {l : List PeerEntry} {e} (h : oldestEntry l = some e) : e ∈ l := by
  induction l generalizing e with
  | nil => simp [oldestEntry] at h
  | cons g gs ih =>
    unfold oldestEntry at h
    split at h
    · simp at h; simp [h]
    · rename_i f hf
      split at h <;> simp at h <;> subst h
      · simp [ih hf]
      · simp

theorem fileEntry_keeps {e : PeerEntry} {l : List PeerEntry} (h : List.Pairwise (fun e f => e.address < f.address) l) (hl : l.length ≤ 31) :
    (fileEntry e l).length ≤ 31 ∧ List.Pairwise (fun e f => e.address < f.address) (fileEntry e l) ∧ ∀ f ∈ fileEntry e l, f = e ∨ f ∈ l := by
  unfold fileEntry
  split
  · rename_i hc
    refine ⟨?_, putEntry_sorted h, fun f hf => putEntry_mem hf⟩
    rw [Bool.or_eq_true] at hc
    rcases hc with hc | hc
    · have := putEntry_length_of_any h hc; omega
    · have := putEntry_length e l; simp at hc; omega
  · split
    · rename_i old ho
      have hs : List.Pairwise (fun e f => e.address < f.address) (l.filter fun f => f.address != old.address) := h.sublist List.filter_sublist
      refine ⟨?_, putEntry_sorted hs, fun f hf => ?_⟩
      · have hlt : (l.filter fun f => f.address != old.address).length < l.length := by
          rw [List.length_filter_lt_length_iff_exists]
          exact ⟨old, oldestEntry_mem ho, by simp⟩
        have := putEntry_length e (l.filter fun f => f.address != old.address); omega
      · rcases putEntry_mem hf with h | h
        · exact Or.inl h
        · exact Or.inr (List.mem_filter.mp h).1
    · rename_i hn
      have : l = [] := by
        cases l with
        | nil => rfl
        | cons g gs => exfalso; revert hn; unfold oldestEntry; split
                       · simp
                       · split <;> simp
      subst this
      simp [putEntry]

end Sys2Proof.Machine
end

