-- ==== Sys2Proof/Laws/NoiseEffects.lean ====
section
/-! SUPPORT. What noise bits do to the draw source: bits without an event are counted and gathered, and windows that pass
leave a healthy source as it is. -/

namespace Sys2Proof.Machine

@[simp] theorem countBit_mode (b : Bool) (d : DrawSource) : (d.countBit b).mode = d.mode := rfl
@[simp] theorem countBit_pool (b : Bool) (d : DrawSource) : (d.countBit b).pool = d.pool := rfl
@[simp] theorem countBit_waiting (b : Bool) (d : DrawSource) : (d.countBit b).waiting = d.waiting := rfl
@[simp] theorem countBit_fallback (b : Bool) (d : DrawSource) : (d.countBit b).fallback = d.fallback := rfl
@[simp] theorem countBit_lastBit (b : Bool) (d : DrawSource) : (d.countBit b).lastBit = b := rfl
@[simp] theorem countBit_runLength (b : Bool) (d : DrawSource) : (d.countBit b).runLength = d.runAfter b := rfl
@[simp] theorem countBit_windowBits (b : Bool) (d : DrawSource) : (d.countBit b).windowBits = d.windowBits + 1 := rfl
@[simp] theorem countBit_ones (b : Bool) (d : DrawSource) :
    (d.countBit b).ones = if b then d.ones + 1 else d.ones := rfl
@[simp] theorem countBit_windowFailed (b : Bool) (d : DrawSource) : (d.countBit b).windowFailed = d.windowFailed := rfl

/-- One bit that completes neither a run nor a window is counted and gathered, and no more. -/
theorem takeBit_uneventful {s : Station} {b : Bool} (hr : (s.draw.countBit b).runLength ≠ 32)
    (hw : (s.draw.countBit b).windowBits ≠ 512) : takeBit s b = { s with draw := s.draw.countBit b } := by
  unfold takeBit; dsimp only
  rw [if_neg hr, if_neg hw]

/-- One bit that completes no run, and no window that fails, leaves a healthy source healthy. -/
theorem takeBit_sound {s : Station} {b : Bool} (hm : s.draw.mode = .healthy) (hr : (s.draw.countBit b).runLength ≠ 32)
    (hw : (s.draw.countBit b).windowBits = 512 → (s.draw.countBit b).windowPasses = true) :
    takeBit s b = { s with draw := s.draw.passBit b } := by
  unfold takeBit DrawSource.passBit; dsimp only
  rw [if_neg hr]
  by_cases h : (s.draw.countBit b).windowBits = 512
  · rw [if_pos h, if_pos h]
    unfold judgeWindow DrawSource.nextWindow; dsimp only
    rw [countBit_mode, hm, hw h]; rfl
  · rw [if_neg h, if_neg h]

theorem passBit_mode (d : DrawSource) (b : Bool) : (d.passBit b).mode = d.mode := by
  unfold DrawSource.passBit; dsimp only; split <;> rfl

/-- Bits without an event are counted and gathered in turn. -/
theorem takeBits_uneventful (bits : List Bool) (s : Station) (h : s.draw.uneventful bits = true) :
    bits.foldl takeBit s = { s with draw := bits.foldl (fun d b => d.countBit b) s.draw } := by
  induction bits generalizing s with
  | nil => rfl
  | cons b bits ih =>
    unfold DrawSource.uneventful at h
    simp only [Bool.and_eq_true, bne_iff_ne] at h
    rw [List.foldl_cons, List.foldl_cons, takeBit_uneventful h.1.1 h.1.2]
    exact ih { s with draw := s.draw.countBit b } h.2

/-- Bits that bring neither a run of 32 nor a failed window leave a healthy source healthy. -/
theorem takeBits_sound (bits : List Bool) (s : Station) (hm : s.draw.mode = .healthy) (h : s.draw.sound bits = true) :
    bits.foldl takeBit s = { s with draw := bits.foldl DrawSource.passBit s.draw } := by
  induction bits generalizing s with
  | nil => rfl
  | cons b bits ih =>
    unfold DrawSource.sound at h
    simp only [Bool.and_eq_true, bne_iff_ne, Bool.or_eq_true] at h
    rw [List.foldl_cons, List.foldl_cons, takeBit_sound hm h.1.1 fun hw => h.1.2.resolve_left fun hn => hn hw]
    exact ih { s with draw := s.draw.passBit b } ((passBit_mode _ _).trans hm) h.2

/-- A source that is on takes each bit of a chunk in turn. -/
theorem takeNoise_on {s : Station} (hm : s.draw.mode ≠ .off) (bits : List Bool) :
    takeNoise bits s = bits.foldl takeBit s := by
  unfold takeNoise; rw [if_neg hm]

/-- A draw that no request waits for joins a pool with room. -/
theorem conditionedDraw_pool {s : Station} (draw : Nat) (hw : s.draw.waiting = []) (hp : s.draw.pool.length < 8) :
    conditionedDraw draw s = (none, { s with draw.pool := s.draw.pool ++ [draw], draw.group := [] }) := by
  unfold conditionedDraw; rw [hw]; dsimp only; rw [if_pos hp]

theorem conditionedDraw_waiting {s : Station} {c : Consumer} {rest : List Consumer} (draw : Nat)
    (hw : s.draw.waiting = c :: rest) :
    conditionedDraw draw s = (some c, { s with draw.waiting := rest, draw.group := [] }) := by
  unfold conditionedDraw; rw [hw]

theorem foldCount_source (bits : List Bool) (d : DrawSource) :
    (bits.foldl (fun d b => d.countBit b) d).mode = d.mode ∧ (bits.foldl (fun d b => d.countBit b) d).pool = d.pool ∧
      (bits.foldl (fun d b => d.countBit b) d).waiting = d.waiting := by
  induction bits generalizing d with
  | nil => exact ⟨rfl, rfl, rfl⟩
  | cons b l ih => rw [List.foldl_cons]; exact ⟨(ih _).1, (ih _).2.1, (ih _).2.2⟩

theorem passBit_source (d : DrawSource) (b : Bool) :
    (d.passBit b).mode = d.mode ∧ (d.passBit b).pool = d.pool ∧ (d.passBit b).waiting = d.waiting := by
  unfold DrawSource.passBit; dsimp only; split <;> exact ⟨rfl, rfl, rfl⟩

theorem foldPass_source (bits : List Bool) (d : DrawSource) :
    (bits.foldl DrawSource.passBit d).mode = d.mode ∧ (bits.foldl DrawSource.passBit d).pool = d.pool ∧
      (bits.foldl DrawSource.passBit d).waiting = d.waiting := by
  induction bits generalizing d with
  | nil => exact ⟨rfl, rfl, rfl⟩
  | cons b l ih =>
    have h := passBit_source d b
    rw [List.foldl_cons]
    exact ⟨(ih _).1.trans h.1, (ih _).2.1.trans h.2.1, (ih _).2.2.trans h.2.2⟩

/-- The draw source replaced, its mode kept, shows in `kept` as its counts. -/
theorem draw_kept {s : Station} {d : DrawSource} (h : d.mode = s.draw.mode) :
    Station.kept { s with draw := d } = s.kept.counted d := by
  simp [Station.kept, Kept.counted, h]

/-! ### Draws delivered, LATCHED entered -/

/-- A frame handed over leaves the pool as it was. -/
theorem handOver_pool (b : TxBody) (d : Nat) (s : Station) : (handOver b d s).draw.pool = s.draw.pool := by
  have ha : ∀ f (v : Station), (addFrame f v).draw.pool = v.draw.pool := by
    intro f v; unfold addFrame displace leaveService; dsimp only; repeat' split
    all_goals rfl
  have hr : ∀ c (v : Station), (reportDrop c v).draw.pool = v.draw.pool := by
    intro c v; unfold reportDrop; split <;> rfl
  have ht : ∀ g (v t : Station), takeRoutine v = some (g, t) → t.draw.pool = v.draw.pool := by
    intro g v t h; revert h; unfold takeRoutine; dsimp only
    repeat' split
    all_goals (intro h; simp at h; try (obtain ⟨_, rfl⟩ := h; rfl))
  unfold handOver; dsimp only
  split; · rfl
  split; · exact ha _ _
  split
  · split
    · rename_i hq; exact ((ha _ _).trans (hr _ _)).trans (ht _ _ _ hq)
    · exact hr _ _
  · exact hr _ _

/-- A draw delivered shows neither in `kept` nor in the pool. -/
theorem deliverDraw_keeps (c : Consumer) (d : Nat) (s : Station) :
    (deliverDraw c d s).kept = s.kept ∧ (deliverDraw c d s).draw.pool = s.draw.pool := by
  cases c
  · refine ⟨lineDraw_kept _ _, ?_⟩
    unfold deliverDraw lineDraw; dsimp only; split <;> rfl
  · refine ⟨claimDraw_kept _ _, ?_⟩
    unfold deliverDraw claimDraw; dsimp only; split
    · split
      · exact handOver_pool _ _ _
      · rfl
    · rfl
  · unfold deliverDraw replyDraw; dsimp only; split <;> exact ⟨rfl, rfl⟩

theorem deliverDraws_keeps (l : List (Consumer × Nat)) (s : Station) :
    (deliverDraws l s).kept = s.kept ∧ (deliverDraws l s).draw.pool = s.draw.pool := by
  unfold deliverDraws
  induction l generalizing s with
  | nil => exact ⟨rfl, rfl⟩
  | cons x l ih =>
    rw [List.foldl_cons]
    exact ⟨(ih _).1.trans (deliverDraw_keeps _ _ _).1, (ih _).2.trans (deliverDraw_keeps _ _ _).2⟩

/-- LATCHED entered: DRAW_HEALTH raised, the group and the pool empty, and the seed in place where no request waited. -/
theorem latch_spec (s : Station) :
    (latch s).kept = { s.kept.raised .drawHealth with drawMode := .latched, group := [] } ∧
      (latch s).draw.pool = [] ∧
      (s.draw.waiting = [] →
        (latch s).draw.fallback = some ⟨s.tagOrigin, fallbackSeed s.now.clock.toNat s.tagOrigin⟩) := by
  have h := deliverDraws_keeps (enterLatched s).1 (enterLatched s).2
  refine ⟨h.1.trans ?_, h.2.trans rfl, fun hw => ?_⟩
  · unfold enterLatched; dsimp only; rw [raise_kept_raised]; rfl
  · unfold latch enterLatched; simp only [hw, serveWaiting]; rfl

end Sys2Proof.Machine
end

