-- ==== Sys2Proof/Laws/PerInstr.lean ====
section
/-! SUPPORT. The law made for each command: a well-formed command carries no frame that is longer than the line has
(R141). -/

namespace Sys2Proof.Laws.FrameFits

/-- The frame that a command brings, where it brings one. -/
def frameOf : Instr → Option RxFrame
  | .announce f => some f
  | .claim f => some f
  | .callStatus f => some f
  | .borrowVoice f => some f
  | .borrowReport f => some f
  | .lendCall f => some f
  | .lendReport f => some f
  | .declineCall f => some f
  | .declineReport f => some f
  | .connected f => some f
  | .clear f => some f
  | .wakeFrame f => some f
  | .reportResult f => some f
  | .status f => some f
  | .queryStation f => some f
  | .queryFaults f => some f
  | .queryDirectory f => some f
  | .queryCircuits f => some f
  | .queryBearer f => some f
  | .queryQueues f => some f
  | .unknownSelector f => some f
  | .clearFaults f => some f
  | .restart f => some f
  | .reload f => some f
  | .recapture f => some f
  | .unknownOrder f => some f
  | .unknownFrameKind _ f => some f
  | _ => none

/-- A well-formed command's frame has a body of at most 56 bytes: its count lies in 6 to 62. -/
def Statement (i : Instr) : Prop := i.wf = true → ∀ f, frameOf i = some f → f.body.length ≤ 56

/-- A command without a frame. -/
theorem of_none {i : Instr} (h : frameOf i = none) : Statement i := fun _ _ e => by rw [h] at e; cases e

/-- A command whose checks hold its frame to its length. -/
theorem of_wf {i : Instr} {f : RxFrame} (h : frameOf i = some f) (hw : i.wf = true → f.wf = true) : Statement i := by
  intro hi g e
  rw [h] at e
  cases e
  simpa [RxFrame.wf] using hw hi

theorem keepRailApplied : Statement .keepRailApplied := of_none rfl
theorem resetLineAsserted : Statement .resetLineAsserted := of_none rfl
theorem resetLineReleased : Statement .resetLineReleased := of_none rfl
theorem mainRailLost : Statement .mainRailLost := of_none rfl
theorem mainRailReturn : Statement .mainRailReturn := of_none rfl
theorem configReadComplete (bytes : List Byte) : Statement (.configReadComplete bytes) := of_none rfl
theorem configReadLimitExpiry : Statement .configReadLimitExpiry := of_none rfl
theorem reloadReadComplete (bytes : List Byte) : Statement (.reloadReadComplete bytes) := of_none rfl
theorem idleTimerExpiry : Statement .idleTimerExpiry := of_none rfl
theorem checkInTimerExpiry : Statement .checkInTimerExpiry := of_none rfl
theorem clockWrap : Statement .clockWrap := of_none rfl
theorem announce (f : RxFrame) : Statement (.announce f) :=
  of_wf rfl fun h => h
theorem peerAgeingExpiry (address : Nat) : Statement (.peerAgeingExpiry address) := of_none rfl
theorem announcePeriodExpiry : Statement .announcePeriodExpiry := of_none rfl
theorem solicitReplyDelayExpiry : Statement .solicitReplyDelayExpiry := of_none rfl
theorem claim (f : RxFrame) : Statement (.claim f) :=
  of_wf rfl fun h => h
theorem contestTimerExpiry (circuit : Fin 6) : Statement (.contestTimerExpiry circuit) := of_none rfl
theorem orphanLimitExpiry (circuit : Fin 6) : Statement (.orphanLimitExpiry circuit) := of_none rfl
theorem callStatus (f : RxFrame) : Statement (.callStatus f) :=
  of_wf rfl fun h => h
theorem borrowVoice (f : RxFrame) : Statement (.borrowVoice f) :=
  of_wf rfl fun h => ((Bool.and_eq_true _ _).mp h).1
theorem borrowReport (f : RxFrame) : Statement (.borrowReport f) :=
  of_wf rfl fun h => ((Bool.and_eq_true _ _).mp h).1
theorem lendCall (f : RxFrame) : Statement (.lendCall f) :=
  of_wf rfl fun h => ((Bool.and_eq_true _ _).mp h).1
theorem lendReport (f : RxFrame) : Statement (.lendReport f) :=
  of_wf rfl fun h => ((Bool.and_eq_true _ _).mp h).1
theorem declineCall (f : RxFrame) : Statement (.declineCall f) :=
  of_wf rfl fun h => ((Bool.and_eq_true _ _).mp h).1
theorem declineReport (f : RxFrame) : Statement (.declineReport f) :=
  of_wf rfl fun h => ((Bool.and_eq_true _ _).mp h).1
theorem connected (f : RxFrame) : Statement (.connected f) :=
  of_wf rfl fun h => h
theorem clear (f : RxFrame) : Statement (.clear f) :=
  of_wf rfl fun h => h
theorem wakeFrame (f : RxFrame) : Statement (.wakeFrame f) :=
  of_wf rfl fun h => h
theorem reportResult (f : RxFrame) : Statement (.reportResult f) :=
  of_wf rfl fun h => h
theorem status (f : RxFrame) : Statement (.status f) :=
  of_wf rfl fun h => h
theorem malformedFrame (count : Byte) : Statement (.malformedFrame count) := of_none rfl
theorem queryStation (f : RxFrame) : Statement (.queryStation f) :=
  of_wf rfl fun h => ((Bool.and_eq_true _ _).mp h).1
theorem queryFaults (f : RxFrame) : Statement (.queryFaults f) :=
  of_wf rfl fun h => ((Bool.and_eq_true _ _).mp h).1
theorem queryDirectory (f : RxFrame) : Statement (.queryDirectory f) :=
  of_wf rfl fun h => ((Bool.and_eq_true _ _).mp h).1
theorem queryCircuits (f : RxFrame) : Statement (.queryCircuits f) :=
  of_wf rfl fun h => ((Bool.and_eq_true _ _).mp h).1
theorem queryBearer (f : RxFrame) : Statement (.queryBearer f) :=
  of_wf rfl fun h => ((Bool.and_eq_true _ _).mp h).1
theorem queryQueues (f : RxFrame) : Statement (.queryQueues f) :=
  of_wf rfl fun h => ((Bool.and_eq_true _ _).mp h).1
theorem unknownSelector (f : RxFrame) : Statement (.unknownSelector f) :=
  of_wf rfl fun h => ((Bool.and_eq_true _ _).mp h).1
theorem clearFaults (f : RxFrame) : Statement (.clearFaults f) :=
  of_wf rfl fun h => ((Bool.and_eq_true _ _).mp h).1
theorem restart (f : RxFrame) : Statement (.restart f) :=
  of_wf rfl fun h => ((Bool.and_eq_true _ _).mp h).1
theorem reload (f : RxFrame) : Statement (.reload f) :=
  of_wf rfl fun h => ((Bool.and_eq_true _ _).mp h).1
theorem recapture (f : RxFrame) : Statement (.recapture f) :=
  of_wf rfl fun h => ((Bool.and_eq_true _ _).mp h).1
theorem unknownOrder (f : RxFrame) : Statement (.unknownOrder f) :=
  of_wf rfl fun h => ((Bool.and_eq_true _ _).mp h).1
theorem idleGap : Statement .idleGap := of_none rfl
theorem lineBusy : Statement .lineBusy := of_none rfl
theorem backoffSlot : Statement .backoffSlot := of_none rfl
theorem collision : Statement .collision := of_none rfl
theorem transmissionComplete : Statement .transmissionComplete := of_none rfl
theorem repetitionFailure : Statement .repetitionFailure := of_none rfl
theorem proportionWindowJudged (bits : List Bool) : Statement (.proportionWindowJudged bits) := of_none rfl
theorem drawConditioned (noise : ConditionedNoise) : Statement (.drawConditioned noise) := of_none rfl
theorem ready (bearer : Letter) : Statement (.ready bearer) := of_none rfl
theorem scanResult (bearer : Letter) (networks : List ScanItem) : Statement (.scanResult bearer networks) := of_none rfl
theorem camped (bearer : Letter) (network : BitVec 24) (level : Byte) : Statement (.camped bearer network level) := of_none rfl
theorem level (bearer : Letter) (level : Byte) : Statement (.level bearer level) := of_none rfl
theorem progress (bearer : Letter) : Statement (.progress bearer) := of_none rfl
theorem answered (bearer : Letter) : Statement (.answered bearer) := of_none rfl
theorem ended (bearer : Letter) (reason : EndReason) : Statement (.ended bearer reason) := of_none rfl
theorem reportSent (bearer : Letter) : Statement (.reportSent bearer) := of_none rfl
theorem reportFailed (bearer : Letter) : Statement (.reportFailed bearer) := of_none rfl
theorem lost (bearer : Letter) : Statement (.lost bearer) := of_none rfl
theorem fault (bearer : Letter) : Statement (.fault bearer) := of_none rfl
theorem undecodableIndication (bearer : Letter) (kind : Byte) (params : List Byte) : Statement (.undecodableIndication bearer kind params) := of_none rfl
theorem commandTimeout (bearer : Letter) : Statement (.commandTimeout bearer) := of_none rfl
theorem dialAnswerLimitExpiry (bearer : Letter) : Statement (.dialAnswerLimitExpiry bearer) := of_none rfl
theorem rescanTimerExpiry (bearer : Letter) : Statement (.rescanTimerExpiry bearer) := of_none rfl
theorem barExpiry (bearer : Letter) (network : Nat) : Statement (.barExpiry bearer network) := of_none rfl
theorem recheckTimerExpiry (bearer : Letter) : Statement (.recheckTimerExpiry bearer) := of_none rfl
theorem failureWaitExpiry (bearer : Letter) : Statement (.failureWaitExpiry bearer) := of_none rfl
theorem settlingGuardExpiry (bearer : Letter) : Statement (.settlingGuardExpiry bearer) := of_none rfl
theorem offHook : Statement .offHook := of_none rfl
theorem onHook : Statement .onHook := of_none rfl
theorem buttonInputPressed : Statement .buttonInputPressed := of_none rfl
theorem buttonPressCounts : Statement .buttonPressCounts := of_none rfl
theorem buttonReleaseCounts : Statement .buttonReleaseCounts := of_none rfl
theorem candidateFails : Statement .candidateFails := of_none rfl
theorem buttonWindowExpiry : Statement .buttonWindowExpiry := of_none rfl
theorem failedPeriodExpiry : Statement .failedPeriodExpiry := of_none rfl
theorem answerTimeoutExpiry : Statement .answerTimeoutExpiry := of_none rfl
theorem wakeAllowanceExpiry : Statement .wakeAllowanceExpiry := of_none rfl
theorem awaitingConnectExpiry : Statement .awaitingConnectExpiry := of_none rfl
theorem pauseExpiry : Statement .pauseExpiry := of_none rfl
theorem setupDeadlineExpiry : Statement .setupDeadlineExpiry := of_none rfl
theorem partnerSilence : Statement .partnerSilence := of_none rfl
theorem carrierPartnerSilence (tag : Tag) : Statement (.carrierPartnerSilence tag) := of_none rfl
theorem callStatusScheduleExpiry (context : ContextRef) : Statement (.callStatusScheduleExpiry context) := of_none rfl
theorem recoveryLimitExpiry : Statement .recoveryLimitExpiry := of_none rfl
theorem sample (x : Int) (y : Int) (z : Int) : Statement (.sample x y z) := of_none rfl
theorem sensorSilence : Statement .sensorSilence := of_none rfl
theorem impactQuietLimitExpiry : Statement .impactQuietLimitExpiry := of_none rfl
theorem stallCheckExpiry : Statement .stallCheckExpiry := of_none rfl
theorem reportAnswerTimerExpiry : Statement .reportAnswerTimerExpiry := of_none rfl
theorem resultTimerExpiry : Statement .resultTimerExpiry := of_none rfl
theorem restTimerExpiry (tag : Tag) : Statement (.restTimerExpiry tag) := of_none rfl
theorem relayRestTimerExpiry (tag : Tag) : Statement (.relayRestTimerExpiry tag) := of_none rfl
theorem relayLifetimeExpiry (tag : Tag) : Statement (.relayLifetimeExpiry tag) := of_none rfl
theorem keepRailLost : Statement .keepRailLost := of_none rfl
theorem unknownFrameKind (kind : Byte) (f : RxFrame) : Statement (.unknownFrameKind kind f) :=
  of_wf rfl fun h => ((Bool.and_eq_true _ _).mp h).1

end Sys2Proof.Laws.FrameFits
end

