-- ==== Sys2Proof/Tests/Slice0.lean ====
section
/-! SUPPORT. Tests: ill-formed commands, worked values of the spec, one small step for each command, and for each statement
a state that meets its hypotheses. -/

namespace Sys2Proof.Tests

open Sys2Proof.Machine

set_option Elab.async false

/-! ### A small station -/

/-- A configuration: station 9 of segment 258, six circuits, both bearers. -/
def cfg : Configuration :=
  { builtInSet with
    address := some 9, segment := some 258, circuits := 6, standbyEnable := true, label := [65]
    destination := [49, 49, 50] }

/-- A station in ACTIVE that has assembled a frame, its draw source healthy. -/
def base : Station :=
  { Station.reset with
    keep := { clearedKeep with clock := ⟨0, 100000⟩, config := some cfg }
    power := { Station.reset.power with opState := .active, configRead := none }
    directory := { entries := [], effective := 6 }
    line := { clearedLine with assembly := .assembling }
    draw := { startedDraw with mode := .healthy, pool := [21] }
    panel := { clearedPanel with hook := .onHook }
    cabinet := { Station.reset.cabinet with silence := some ⟨0, 100900⟩ } }

/-- The state of a station with nothing waiting. -/
def on (s : Station) : State := { pending := [], station := s }

/-- The station after a command. -/
def after (c : Instr) (s : Station) : Station :=
  match exec c (on s) with
  | .next t => t.station
  | _ => s

/-- A frame of the segment with its check value. -/
def rx (kind source dest : Nat) (body : List Byte) : RxFrame :=
  { segment := 258, source := byte source, dest := byte dest, body := body
    check := crc16 (byte (6 + body.length) :: byte kind :: (be16 258 ++ [byte source, byte dest] ++ body)) }

/-- A powered bearer camped on a network of grade 3. -/
def up (state : BearerState) : Bearer :=
  { clearedBearer with state := state, powered := true, camped := some (20801, 40), networks := [(20801, 40)] }

/-- The tag of the station's own call. -/
def own : Tag := ⟨9, 1⟩

/-- A peer's tag. -/
def peer : Tag := ⟨4, 7⟩

/-- A voice allocation. -/
def holds (who : Claimant) : Option Allocation := some (voiceAllocation who false)

/-- An origin context. -/
def origin (phase : Phase) : Origin :=
  { tag := own, mode := .handset, phase := phase, carrier := .absent, tried := [], localTried := false, recoveries := 0
    step := .none, stepDeadline := none, releasing := none, setupDeadline := some ⟨0, 190000⟩, phaseDeadline := none
    lastPartner := none, connected := false, woken := 0, schedule := none }

/-- The station with an origin context. -/
def calling (o : Origin) : Station := { base with call := { origin := some o, carriers := [] } }

/-- The station with circuit 1 held for its call. -/
def holding (o : Origin) : Station := setView 0 (.heldOwn 9 own ⟨0, 50000⟩) (calling o)

/-- A peer that may lend. -/
def lender (address : Nat) : PeerEntry :=
  { address := address, power := .active, lendReady := true, period := 20, circuits := 6
    summaries := [{ letter := .a, cls := .available, grade := 3, network := 20801 }], held := none
    lastHeard := ⟨0, 90000⟩ }

/-- The directory with lenders. -/
def withLenders (l : List Nat) (s : Station) : Station :=
  { s with directory := { entries := l.map lender, effective := 6 } }

/-- A report record. -/
def record (tag : Tag) : Record :=
  { tag := tag, kind := .tilt, first := ⟨0, 1⟩, last := ⟨0, 1⟩, repeats := 1, peak := 0, axis := none, label := [] }

/-- A report entry. -/
def entry (number : Nat) (state : Delivery) (route : Route) (timer : Timer) : ReportEntry :=
  { newEntry (record ⟨9, number⟩) 0 with state := state, route := route, timer := timer }

/-- The station with a report queue. -/
def reporting (l : List ReportEntry) : Station := { base with reports := { clearedReports with queue := l } }

/-- A relay entry. -/
def relayed (number : Nat) (state : Delivery) : RelayEntry :=
  { record := record ⟨4, number⟩, state := state, attempts := 0, rest := none, lifetime := some ⟨0, 150000⟩
    expired := false }

/-- The station with a relay queue. -/
def relaying (l : List RelayEntry) : Station := { base with reports := { clearedReports with relay := l } }

/-- The station with a frame in service. -/
def serving (body : TxBody) (dest attempts : Nat) (b : Backoff) : Station :=
  { base with
    line :=
      { clearedLine with
        service := some ⟨{ body := body, dest := dest, attempts := attempts, begun := true }, b⟩, gap := true } }

/-- A deadline that has just come. -/
def due : Stamp := ⟨0, 100000⟩

/-! ### Ill-formed commands -/

/-- A body of 57 bytes. -/
def long : RxFrame := { segment := 0, source := 0, dest := 0, body := List.replicate 57 0, check := 0 }

theorem test_wf_frame_length :
    ([Instr.announce long, .claim long, .callStatus long, .connected long, .clear long, .wakeFrame long
      , .reportResult long, .status long, .unknownFrameKind 99 long].all fun c => !c.wf) = true := by decide
theorem test_wf_subkind :
    ([Instr.borrowVoice (rx 5 4 9 [2]), .borrowReport (rx 5 4 9 [1]), .lendCall (rx 6 4 9 [2])
      , .lendReport (rx 6 4 9 [1]), .declineCall (rx 7 4 9 [2]), .declineReport (rx 7 4 9 [1])].all fun c => !c.wf) =
      true := by decide
theorem test_wf_selector :
    ([Instr.queryStation (rx 11 0 9 [2, 0]), .queryFaults (rx 11 0 9 [1, 0]), .queryDirectory (rx 11 0 9 [4, 0])
      , .queryCircuits (rx 11 0 9 [3, 0]), .queryBearer (rx 11 0 9 [6, 0]), .queryQueues (rx 11 0 9 [])
      , .unknownSelector (rx 11 0 9 [6, 0])].all fun c => !c.wf) = true := by decide
theorem test_wf_order :
    ([Instr.clearFaults (rx 13 0 9 [2, 0]), .restart (rx 13 0 9 [1, 0]), .reload (rx 13 0 9 [4, 0])
      , .recapture (rx 13 0 9 [3, 0]), .unknownOrder (rx 13 0 9 [4, 0])].all fun c => !c.wf) = true := by decide
theorem test_wf_numbers :
    ([Instr.peerAgeingExpiry 0, .peerAgeingExpiry 33, .malformedFrame 6, .malformedFrame 62
      , .proportionWindowJudged (List.replicate 513 true), .drawConditioned ⟨List.replicate 513 true, 0⟩
      , .scanResult .a (List.replicate 7 ⟨1, 0, 0⟩), .barExpiry .a 0
      , .barExpiry .b 1000000, .unknownFrameKind 13 (rx 13 0 9 [])].all fun c => !c.wf) = true := by
  decide +kernel
theorem test_wf_tags :
    ([Instr.carrierPartnerSilence ⟨33, 0⟩, .carrierPartnerSilence ⟨1, 4096⟩
      , .callStatusScheduleExpiry (.carrier ⟨33, 0⟩), .restTimerExpiry ⟨33, 0⟩, .relayRestTimerExpiry ⟨1, 4096⟩
      , .relayLifetimeExpiry ⟨33, 1⟩].all fun c => !c.wf) = true := by decide
theorem test_wf_indication :
    ([Instr.undecodableIndication .a 129 [], .undecodableIndication .a 130 [0], .undecodableIndication .a 131 [0, 0, 1, 9]
      , .undecodableIndication .a 134 [3], .undecodableIndication .a 137 [63]].all fun c => !c.wf) = true := by decide
theorem test_wf_good :
    ([Instr.announce (rx 1 4 63 []), .borrowVoice (rx 5 4 9 [1]), .borrowReport (rx 5 4 9 [2]), .malformedFrame 5
      , .malformedFrame 63, .undecodableIndication .a 128 [], .undecodableIndication .a 134 [4]
      , .unknownSelector (rx 11 0 9 [7, 0]), .unknownOrder (rx 13 0 9 [0, 0]), .peerAgeingExpiry 32
      , .proportionWindowJudged (List.replicate 512 true), .barExpiry .a 999999
      , .unknownFrameKind 14 (rx 14 4 9 [])].all fun c => c.wf) = true := by decide +kernel

/-! ### Worked values -/

theorem test_crc_check_string : crc16 [49, 50, 51, 52, 53, 54, 55, 56, 57] = 0x29B1 := by decide +kernel
theorem test_fallback_address_9 :
    fallbackDraw (fallbackNext { address := 9, state := fallbackSeed 21 9 }) = 3169 := by decide
theorem test_fallback_address_10 :
    fallbackDraw (fallbackNext { address := 10, state := fallbackSeed 21 10 }) = 41313 := by decide
theorem test_backoff_worked : 16387 % backoffRange true 0 = 3 := by decide
theorem test_backoff_top : backoffRange false 7 = 256 ∧ backoffRange true 5 = 256 ∧ backoffRange true 4 = 128 := by
  decide
theorem test_grade_bounds : (gradeOfLevel 9, gradeOfLevel 10, gradeOfLevel 29, gradeOfLevel 30) = (1, 2, 2, 3) := by
  decide
theorem test_clock_tick : Stamp.tick ⟨65535, 4294967295⟩ = ⟨0, 0⟩ := by decide
theorem test_reset_waits : (tick (State.reset)).station.keep.clock = ⟨0, 1⟩ := by decide +kernel
theorem test_ranking :
    (withLenders [4, 8, 10, 20] base).ranking [8] = [10, 4, 20] := by decide

/-! ### One small step for each command -/

theorem test_keepRailApplied :
    after .keepRailApplied { base with power.keepRail := false } = { Station.reset with out := [.sensorRate 100] } := by
  decide +kernel
theorem test_keepRailLost : (after .keepRailLost base).keep = clearedKeep := by decide +kernel
theorem test_resetLineAsserted :
    ((after .resetLineAsserted (calling (origin .paused))).power.held
    , (after .resetLineAsserted (calling (origin .paused))).keep.tally.interrupted) = (true, 1) := by decide +kernel
theorem test_resetLineReleased :
    (after .resetLineReleased { base with power.held := true, power.resetLine := true }).power.startCause = .warm := by
  decide +kernel
theorem test_mainRailLost : (after .mainRailLost base).running = false := by decide +kernel
theorem test_mainRailReturn :
    (after .mainRailReturn { base with power.held := true, power.mainRail := false }).power.configRead =
      some ⟨0, 100500⟩ := by decide +kernel
theorem test_configReadComplete :
    (after (.configReadComplete []) Station.reset).power.opState = .isolated := by decide +kernel
theorem test_configReadLimitExpiry :
    ((after .configReadLimitExpiry Station.reset).keep.clock, (after .configReadLimitExpiry Station.reset).faultLamp) =
      (⟨0, 500⟩, true) := by decide +kernel
theorem test_reload :
    (after (.reload (rx 13 0 9 [3, 0])) base).power.reload = some ⟨⟨0, 100500⟩, 258, false⟩ := by decide +kernel
theorem test_reloadReadComplete :
    ((after (.reloadReadComplete []) { base with power.reload := some ⟨due, 258, false⟩ }).keep.faults.counter
      .configRejected) = 1 := by decide +kernel
theorem test_idleTimerExpiry :
    ((after .idleTimerExpiry { base with power.idleTimer := some due }).power.progress
    , (after .idleTimerExpiry { base with power.idleTimer := some due }).announceQueued) = (.announcing, true) := by
  decide +kernel
theorem test_checkInTimerExpiry :
    (after .checkInTimerExpiry { base with power := { base.power with opState := .standby, checkIn := some due } }
      ).power.wakeCause = some .checkIn := by decide +kernel
theorem test_clockWrap : (after .clockWrap base).keep.clock = ⟨1, 0⟩ := by decide +kernel
theorem test_restart : (after (.restart (rx 13 0 9 [2, 0])) base).power.startCause = .warm := by decide +kernel
theorem test_announce :
    (after (.announce (rx 1 4 63 [2, 20, 5, 1, 1, 1, 3, 0, 81, 65])) base).directory =
      { entries :=
          [{ address := 4, power := .active, lendReady := true, period := 20, circuits := 5
             summaries := [⟨.a, .available, 3, 20801⟩], held := none, lastHeard := ⟨0, 100000⟩ }]
        effective := 5 } := by decide +kernel
theorem test_peerAgeingExpiry :
    (after (.peerAgeingExpiry 4) (withLenders [4, 8] base)).directory.entries.map (·.address) = [8] := by decide +kernel
theorem test_announcePeriodExpiry :
    (after .announcePeriodExpiry { base with announcing.period := some due }).announceQueued = true := by decide +kernel
theorem test_solicitReplyDelayExpiry :
    (after .solicitReplyDelayExpiry { base with announcing.reply := .delay due }).announceQueued = true := by
  decide +kernel
theorem test_claim :
    (after (.claim (rx 3 4 63 [1, 4, 0, 7, 1, 0])) base).entry 0 = .contested ⟨4, peer, 256⟩ ⟨0, 100000⟩ := by
  decide +kernel
theorem test_contestTimerExpiry :
    (after (.contestTimerExpiry 0) (setView 0 (.contested ⟨4, peer, 256⟩ ⟨0, 99750⟩) base)).entry 0 =
      .heldByPeer 4 peer due due := by decide +kernel
theorem test_orphanLimitExpiry :
    (after (.orphanLimitExpiry 0) (setView 0 (.heldByPeer 4 peer due ⟨0, 80000⟩) base)).entry 0 = .free := by
  decide +kernel
theorem test_callStatus :
    (after (.callStatus (rx 4 4 63 [4, 0, 7, 1, 1, 7, 0, 10])) base).entry 0 =
      .heldByPeer 4 peer ⟨0, 90000⟩ ⟨0, 100000⟩ := by decide +kernel
theorem test_borrowVoice :
    ((after (.borrowVoice (rx 5 4 9 [1, 4, 0, 7, 1])) (setBearer .a (up .available) base)).bearer .a).state =
      .dialing := by decide +kernel
theorem test_borrowReport :
    (after (.borrowReport (rx 5 4 9 (2 :: recordBytes (record peer)))) (setBearer .a (up .dialing) base)
      ).reports.relay.length = 1 := by decide +kernel
theorem test_lendCall :
    ((after (.lendCall (rx 6 4 9 [1, 9, 0, 1, 1, 0, 81, 65]))
      (holding { origin .asking with carrier := .asked 4 })).call.origin.map (·.phase)) = some .awaitingConnect := by
  decide +kernel
theorem test_lendReport :
    ((after (.lendReport (rx 6 4 9 [2, 9, 0, 1])) (reporting [entry 1 .inFlight (.asking 4) none])
      ).reports.queue.map (·.route)) = [.relayed 4] := by decide +kernel
theorem test_declineCall :
    ((after (.declineCall (rx 7 4 9 [1, 9, 0, 1, 1]))
      (withLenders [8] (holding { origin .asking with carrier := .asked 4 }))).call.origin.map (·.carrier)) =
      some (.asked 8) := by decide +kernel
theorem test_declineReport :
    ((after (.declineReport (rx 7 4 9 [2, 9, 0, 1, 1]))
      (withLenders [8] (reporting [entry 1 .inFlight (.asking 4) none]))).reports.queue.map (·.route)) =
      [.asking 8] := by decide +kernel
theorem test_connected :
    (after (.connected (rx 8 4 9 [9, 0, 1]))
      (holding { origin .awaitingConnect with carrier := .lent 4 (some .a), lastPartner := some due })).audio =
      [⟨.handset, .callerSide 0, .origin own⟩] := by decide +kernel
theorem test_clear :
    (after (.clear (rx 9 4 63 [4, 0, 7, 1, 1])) (setView 0 (.heldByPeer 4 peer due due) base)).entry 0 = .free := by
  decide +kernel
theorem test_wakeFrame :
    (after (.wakeFrame (rx 2 4 9 [])) { base with power := { base.power with opState := .standby } }).power.opState =
      .active := by decide +kernel
theorem test_reportResult :
    ((after (.reportResult (rx 10 4 9 [9, 0, 1, 1])) (reporting [entry 1 .inFlight (.relayed 4) none])).reports.queue
    , (after (.reportResult (rx 10 4 9 [9, 0, 1, 1])) (reporting [entry 1 .inFlight (.relayed 4) none])
        ).keep.delivered) = ([], 1) := by decide +kernel
theorem test_status :
    ((after (.status (rx 12 4 9 [130, 0, 0, 0, 0, 0, 0, 0, 0])) (withLenders [4] base)).directory.entries.map
      (·.lastHeard)) = [⟨0, 100000⟩] := by decide +kernel
theorem test_unknownFrameKind : (after (.unknownFrameKind 14 (rx 14 4 9 [])) base).line.assembly = .skipping := by
  decide +kernel
theorem test_malformedFrame : (after (.malformedFrame 3) base).line.assembly = .skipping := by decide +kernel
theorem test_queryStation :
    (after (.queryStation (rx 11 0 9 [1, 0])) base).line.total = 1 := by decide +kernel
theorem test_queryFaults :
    (after (.queryFaults (rx 11 0 9 [2, 0])) base).holdsFrame
      (.status ([2, 0, 0, 0, 0, 0, 1, 134, 160] ++ List.replicate 22 0) 258) 0 = true := by decide +kernel
theorem test_queryDirectory :
    (after (.queryDirectory (rx 11 0 9 [3, 0])) base).holdsFrame (.status [3, 0, 1, 0, 0, 0, 1, 134, 160, 0] 258) 0 =
      true := by decide +kernel
theorem test_queryCircuits :
    (after (.queryCircuits (rx 11 0 9 [4, 0])) base).holdsFrame
      (.status
        ([4, 0, 0, 0, 0, 0, 1, 134, 160, 6] ++ (List.replicate 6 ([1, 0, 0, 0, 0, 0, 0] : List Byte)).flatten) 258)
      0 = true := by decide +kernel
theorem test_queryBearer :
    (after (.queryBearer (rx 11 0 9 [5, 0])) (setBearer .a (up .available) base)).holdsFrame
      (.status [5, 0, 0, 0, 0, 0, 1, 134, 160, 230, 0, 81, 65, 0, 0, 1, 0, 20, 80, 104] 258) 0 = true := by
  decide +kernel
theorem test_queryQueues :
    (after (.queryQueues (rx 11 0 9 [6, 2])) base).holdsFrame (.status [6, 2, 1, 0, 0, 0, 1, 134, 160] 258) 0 = true := by
  decide +kernel
theorem test_unknownSelector :
    (after (.unknownSelector (rx 11 0 9 [7, 3])) base).holdsFrame (.status [7, 3, 5, 0, 0, 0, 1, 134, 160] 258) 0 =
      true := by decide +kernel
theorem test_clearFaults :
    (after (.clearFaults (rx 13 0 9 [1, 2])) (raise .partnerLost base)).faultLamp = false := by decide +kernel
theorem test_recapture :
    (after (.recapture (rx 13 0 9 [4, 0])) { base with cabinet.capture := .off }).cabinet.capture = .armed := by
  decide +kernel
theorem test_unknownOrder :
    (after (.unknownOrder (rx 13 0 9 [9, 3])) base).holdsFrame (.status [9, 0, 5, 0, 0, 0, 1, 134, 160] 258) 0 =
      true := by decide +kernel
theorem test_idleGap : (after .idleGap base).line = { clearedLine with assembly := .seeking, gap := true } := by
  decide +kernel
theorem test_lineBusy : (after .lineBusy { base with line.gap := true }).line.gap = false := by decide +kernel
theorem test_backoffSlot :
    (after .backoffSlot (serving .wake 4 0 (.slots 1))).out = [.frame (frameBytes 2 258 9 4 [])] := by decide +kernel
theorem test_collision :
    (after .collision (serving .wake 4 1 (.attempting [] false))).line.service.map (·.backoff) = some (.slots 5) := by
  decide +kernel
theorem test_transmissionComplete :
    (after .transmissionComplete (serving .wake 4 1 (.attempting [] false))).line.total = 0 := by decide +kernel
theorem test_long_label_is_delivered :
    let r : Record := { record peer with label := List.replicate 25 65 }
    readRecord (recordBytes r) = some r := by decide +kernel
theorem test_repetitionFailure :
    (after .repetitionFailure base).draw.fallback = some ⟨9, 100000 + 9 * 16777216⟩ := by decide +kernel
/-- Noise in which no bit equals the one before. -/
def alternating (n : Nat) : List Bool := (List.replicate n [true, false]).flatten
theorem test_proportionWindowJudged :
    (after (.proportionWindowJudged (alternating 32))
      { base with draw := { startedDraw with runLength := 1, windowBits := 448, ones := 224 } }).draw =
      { startedDraw with mode := .healthy, runLength := 1 } := by decide +kernel
theorem test_proportion_bounds :
    let judged (ones : Nat) (bit : Bool) : DrawMode :=
      (after (.proportionWindowJudged [bit])
        { base with draw := { startedDraw with runLength := 1, windowBits := 511, ones := ones } }).draw.mode
    [judged 179 false, judged 179 true, judged 332 false, judged 332 true] = [.latched, .healthy, .healthy, .latched] := by
  decide +kernel
theorem test_drawConditioned :
    (after (.drawConditioned ⟨alternating 32, 7⟩) base).draw =
      { base.draw with pool := [21, 7], runLength := 1, windowBits := 64, ones := 32 } := by decide +kernel
theorem test_full_pool_keeps_group :
    let d : DrawSource := { base.draw with pool := List.replicate 8 1, group := [true] }
    (after (.drawConditioned ⟨alternating 32, 7⟩) { base with draw := d }).draw =
      { d with runLength := 1, windowBits := 64, ones := 32 } := by decide +kernel
theorem test_ready :
    ((after (.ready .a) (setBearer .a (up .starting) base)).bearer .a).state = .searching := by decide +kernel
theorem test_scanResult :
    ((after (.scanResult .a [⟨20801, 9, 1⟩, ⟨20802, 30, 0⟩]) (setBearer .a (up .searching) base)).bearer .a).inFlight =
      some ⟨.camp 20801, some ⟨0, 115000⟩⟩ := by decide +kernel
theorem test_camped :
    ((after (.camped .a 20801 63)
      (setBearer .a { up .camping with inFlight := some ⟨.camp 20801, none⟩ } base)).bearer .a).recheck =
      some ⟨0, 220000⟩ := by decide +kernel
theorem test_level :
    ((after (.level .a 5) (setBearer .a { up .checking with inFlight := some ⟨.status, none⟩ } base)).bearer
      .a).grade = 1 := by decide +kernel
theorem test_progress :
    ((after (.progress .a) (setBearer .a { up .dialing with inFlight := some ⟨.dial, none⟩ } base)).bearer .a).state =
      .ringing := by decide +kernel
theorem test_answered :
    (after (.answered .a)
      (setBearer .a { up .ringing with inFlight := some ⟨.dial, none⟩, alloc := holds (.origin own) }
        (calling { origin .dialingLocal with carrier := .own .a }))).audio =
      [⟨.handset, .bearer .a, .origin own⟩] := by decide +kernel
theorem test_ended :
    ((after (.ended .a .remoteHangup) (setBearer .a (up .inCall) base)).bearer .a).settle = some ⟨0, 103000⟩ := by
  decide +kernel
theorem test_reportSent :
    ((after (.reportSent .a)
      (setBearer .a { up .sending with alloc := holds (.report ⟨9, 1⟩) }
        (reporting [entry 1 .inFlight .ownBearer none]))).keep.delivered) = 1 := by decide +kernel
theorem test_reportFailed :
    ((after (.reportFailed .a)
      (setBearer .a { up .sending with alloc := holds (.report ⟨9, 1⟩) }
        (reporting [entry 1 .inFlight .ownBearer none]))).reports.queue.map (·.attempts)) = [1] := by decide +kernel
theorem test_lost : ((after (.lost .a) (setBearer .a (up .available) base)).bearer .a).camped = none := by
  decide +kernel
theorem test_fault :
    ((after (.fault .a) (setBearer .a { up .available with powerCycles := 3 } base)).bearer .a).state = .failedHeld := by
  decide +kernel
theorem test_undecodableIndication :
    after (.undecodableIndication .a 200 []) (after .idleGap base) = after .idleGap base := by decide +kernel
theorem test_commandTimeout :
    ((after (.commandTimeout .a)
      (setBearer .a { up .starting with inFlight := some ⟨.powerUp, some due⟩, timeouts := 1 } base)).bearer .a).state =
      .failed := by decide +kernel
theorem test_dialAnswerLimitExpiry :
    ((after (.dialAnswerLimitExpiry .a) (setBearer .a { up .ringing with dialLimit := some due } base)).bearer
      .a).state = .ending := by decide +kernel
theorem test_rescanTimerExpiry :
    ((after (.rescanTimerExpiry .a) (setBearer .a { up .noService with rescan := some due } base)).bearer .a).state =
      .searching := by decide +kernel
theorem test_barExpiry :
    ((after (.barExpiry .a 20801) (setBearer .a { up .available with barred := [(20801, due)] } base)).bearer
      .a).barred = [] := by decide +kernel
theorem test_recheckTimerExpiry :
    ((after (.recheckTimerExpiry .a) (setBearer .a { up .available with recheck := some due } base)).bearer .a).state =
      .checking := by decide +kernel
theorem test_failureWaitExpiry :
    ((after (.failureWaitExpiry .a) (setBearer .a { up .failed with failureWait := some due } base)).bearer
      .a).powerCycles = 1 := by decide +kernel
theorem test_settlingGuardExpiry :
    ((after (.settlingGuardExpiry .a) (setBearer .a { up .settling with settle := some due, owed := 2 } base)).bearer
      .a).state = .checking := by decide +kernel
theorem test_offHook :
    ((after .offHook base).call.origin.map fun o => (o.tag, o.mode, o.phase)) = some (own, .handset, .paused) := by
  decide +kernel
theorem test_onHook :
    (after .onHook { calling (origin .paused) with panel.hook := .offHook }).keep.tally.withdrawn = 1 := by
  decide +kernel
theorem test_buttonInputPressed :
    (after .buttonInputPressed { base with panel.classifier := .window due false none }).panel.classifier =
      .window due false (some due) := by decide +kernel
theorem test_buttonPressCounts : (after .buttonPressCounts base).panel.classifier = .firstHeld := by decide +kernel
theorem test_buttonReleaseCounts :
    (after .buttonReleaseCounts { base with panel.classifier := .firstHeld }).panel.classifier =
      .window ⟨0, 100600⟩ false none := by decide +kernel
theorem test_candidateFails :
    (after .candidateFails { base with panel.classifier := .window due true (some due) }).call.origin.isSome = true := by
  decide +kernel
theorem test_buttonWindowExpiry :
    ((after .buttonWindowExpiry { base with panel.classifier := .window due false none }).call.origin.map (·.mode)) =
      some .handsFree := by decide +kernel
theorem test_failedPeriodExpiry :
    (after .failedPeriodExpiry
      { base with panel.failed := some due, audio := [⟨.tone, .handset, .panel⟩] }).audio = [] := by decide +kernel
theorem test_answerTimeoutExpiry :
    ((after .answerTimeoutExpiry
      (withLenders [8] (holding { origin .asking with carrier := .asked 4, phaseDeadline := some due }))).call.origin.map
      (·.carrier)) = some (.asked 8) := by decide +kernel
theorem test_wakeAllowanceExpiry :
    ((after .wakeAllowanceExpiry
      (holding { origin .waking with woken := 4, phaseDeadline := some due })).call.origin.map (·.phase)) =
      some .paused := by decide +kernel
theorem test_awaitingConnectExpiry :
    ((after .awaitingConnectExpiry
      (withLenders [8]
        (holding { origin .awaitingConnect with carrier := .lent 4 none, phaseDeadline := some due }))).call.origin.map
      (·.tried)) = some [4] := by decide +kernel
theorem test_pauseExpiry :
    ((after .pauseExpiry
      (setBearer .a (up .available) (calling { origin .paused with phaseDeadline := some due }))).call.origin.map
      (·.phase)) = some .dialingLocal := by decide +kernel
theorem test_setupDeadlineExpiry :
    (after .setupDeadlineExpiry (calling { origin .paused with setupDeadline := some due })).keep.tally.unplaced = 1 := by
  decide +kernel
theorem test_partnerSilence :
    ((after .partnerSilence
      (holding
        { origin .connected with
          carrier := .lent 4 none, lastPartner := some ⟨0, 85000⟩, connected := true })).keep.faults.counter
      .partnerLost) = 1 := by decide +kernel
theorem test_carrierPartnerSilence :
    ((after (.carrierPartnerSilence peer)
      { base with
        call.carriers := [⟨peer, 0, .a, .dialing, ⟨0, 85000⟩, none⟩] }).call.carriers.map (·.phase)) = [.ending] := by
  decide +kernel
theorem test_callStatusScheduleExpiry :
    (after (.callStatusScheduleExpiry .origin)
      (holding { origin .asking with carrier := .asked 4, schedule := some due })).holdsFrame
      (.callStatusOrigin own) 4 = true := by decide +kernel
theorem test_recoveryLimitExpiry :
    ((after .recoveryLimitExpiry
      (calling
        { origin .recovering with
          recoveries := 2, connected := true, phaseDeadline := some due })).reports.queue.map (·.record.kind)) =
      [.callDropped] := by decide +kernel
theorem test_sample :
    (after (.sample 100 (-200) 1000) { base with cabinet.baseline := some ⟨500, 200, 1000⟩ }).cabinet.baseline =
      some ⟨499, 199, 1000⟩ := by decide +kernel
theorem test_sample_impact :
    (after (.sample 2500 0 0) { base with cabinet.baseline := some ⟨0, 0, 0⟩ }).cabinet.impact =
      .opened due 6250000 .x ⟨0, 102000⟩ := by decide +kernel
theorem test_sensorSilence :
    (after .sensorSilence { base with cabinet.silence := some due }).cabinet.silent = true := by decide +kernel
theorem test_impactQuietLimitExpiry :
    ((after .impactQuietLimitExpiry { base with cabinet.impact := .opened due 6250000 .x due }).reports.queue.map
      (·.record.peak)) = [50] := by decide +kernel
theorem test_stallCheckExpiry :
    ((after .stallCheckExpiry
      (withLenders [4]
        { reporting [entry 1 .waiting .absent none] with reports.stall := some due })).reports.queue.map
      (·.route)) = [.asking 4] := by decide +kernel
theorem test_reportAnswerTimerExpiry :
    ((after .reportAnswerTimerExpiry
      (withLenders [4, 8] (reporting [entry 1 .inFlight (.asking 4) (some due)]))).reports.queue.map (·.route)) =
      [.asking 8] := by decide +kernel
theorem test_resultTimerExpiry :
    ((after .resultTimerExpiry (reporting [entry 1 .inFlight (.relayed 4) (some due)])).reports.queue.map
      fun e => (e.state, e.attempts)) = [(.resting, 1)] := by decide +kernel
theorem test_restTimerExpiry :
    ((after (.restTimerExpiry ⟨9, 1⟩) (reporting [entry 1 .resting .absent (some due)])).reports.queue.map (·.state)) =
      [.waiting] := by decide +kernel
theorem test_relayRestTimerExpiry :
    ((after (.relayRestTimerExpiry ⟨4, 1⟩)
      (relaying [{ relayed 1 .resting with rest := some due }])).reports.relay.map (·.state)) = [.inFlight] := by
  decide +kernel
theorem test_relayLifetimeExpiry :
    (after (.relayLifetimeExpiry ⟨4, 1⟩) (relaying [{ relayed 1 .waiting with lifetime := some due }])).holdsFrame
      (.reportResult ⟨4, 1⟩ false) 4 = true := by decide +kernel

/-! ### States that meet the hypotheses of the statements -/

theorem awake {s : Station}
    (h : (s.running && s.power.opState != .standby && s.power.progress != .waitingEntry) = true) : s.Awake := by
  simpa [Station.Awake, and_assoc] using h

theorem hears {s : Station} {kind : Nat} {f : RxFrame}
    (h : (s.running && s.power.progress != .waitingEntry && s.power.opState == .active && !s.transmitting &&
      s.line.assembly != .skipping && frameCheckOk kind f && s.config.segment == some f.segment &&
      s.isPeer f.source.toNat && addressDefined f.dest) = true) : s.Hears kind f := by
  simp only [Bool.and_eq_true, bne_iff_ne, beq_iff_eq, Bool.not_eq_true'] at h
  obtain ⟨⟨⟨⟨⟨⟨⟨⟨h1, h2⟩, h3⟩, h4⟩, h5⟩, h6⟩, h7⟩, h8⟩, h9⟩ := h
  exact ⟨⟨h1, by rw [h3]; decide, h2⟩, h3, h4, h5, h6, h7, h8, h9⟩

theorem serves {s : Station} {kind : Nat} {f : RxFrame}
    (h : (s.running && s.power.opState != .standby && s.power.progress != .waitingEntry && !s.transmitting &&
      s.line.assembly != .skipping && frameCheckOk kind f && s.segmentOk kind f && !s.isOwn 0 &&
      addressDefined f.dest && s.servesFrame f.source f.dest) = true) : s.Serves kind f := by
  simp only [Bool.and_eq_true, bne_iff_ne, Bool.not_eq_true'] at h
  obtain ⟨⟨⟨⟨⟨⟨⟨⟨⟨h1, h2⟩, h3⟩, h4⟩, h5⟩, h6⟩, h7⟩, h8⟩, h9⟩, h10⟩ := h
  exact ⟨⟨h1, h2, h3⟩, h4, h5, h6, h7, h8, h9, h10⟩

theorem test_meets_IdleStep :
    (base.dueExpiry = none ∧ base.power.keepRail = true) ∧
      { base with announcing.period := some due }.dueExpiry = some .announcePeriodExpiry := by decide +kernel
theorem test_meets_KeepRailClearsAll :
    let s : Station := { base with power.keepRail := false }
    s.power.keepRail = false ∧ s.power.mainRail = true ∧ s.power.resetLine = false := by decide +kernel
theorem test_meets_KeepRailHeld :
    let s : Station := { base with power := { base.power with keepRail := false, resetLine := true } }
    s.power.keepRail = false ∧ (s.power.mainRail = false ∨ s.power.resetLine = true) ∧
      (after .keepRailApplied s).running = false := by decide +kernel
theorem test_meets_ResetHolds :
    (base.power.keepRail = true ∧ base.power.held = false ∧ base.power.opState ≠ .standby) ∧
      (let s : Station := { base with power := { base.power with held := true, mainRail := false } }
      s.power.keepRail = true ∧ s.power.held = true ∧ s.power.resetLine = false ∧ s.power.heldWake = none) ∧
      (let s : Station := { base with power := { base.power with held := true, resetLine := true } }
      s.power.keepRail = true ∧ s.power.held = true ∧ s.power.mainRail = true) := by decide +kernel
theorem test_meets_Restart :
    base.Serves 13 (rx 13 0 9 [2, 0]) ∧ readService (rx 13 0 9 [2, 0]).body = some (2, 0) :=
  ⟨serves (by decide +kernel), by decide +kernel⟩

/-- A station isolated on the built-in set. -/
def builtIn : Station :=
  { base with keep := { base.keep with config := some builtInSet }, power := { base.power with opState := .isolated } }

theorem test_meets_ReloadOnBuiltIn :
    builtIn.Serves 13 (rx 13 0 63 [3, 0]) ∧ readService (rx 13 0 63 [3, 0]).body = some (3, 0) ∧
      builtIn.power.reload = none ∧ builtIn.reloadIdle = true ∧ builtIn.onBuiltIn = true :=
  ⟨serves (by decide +kernel), by decide +kernel⟩

/-- A station in STANDBY. -/
def asleep : Station := { base with power := { base.power with opState := .standby, checkIn := some due } }

theorem test_meets_Wake :
    asleep.running = true ∧ asleep.power.opState = .standby ∧ asleep.power.progress = .none ∧
      asleep.power.mainRail = true ∧ asleep.power.checkIn = some due ∧ asleep.transmitting = false ∧
      asleep.line.assembly ≠ .skipping ∧ frameCheckOk 2 (rx 2 4 63 []) = true ∧
      asleep.config.segment = some (rx 2 4 63 []).segment ∧ frameAddressesDefined (rx 2 4 63 []) = true ∧
      (rx 2 4 63 []).source ≠ 0 ∧ (rx 2 4 63 []).body = [] ∧
      (asleep.isOwn (rx 2 4 63 []).dest.toNat = true ∨ (rx 2 4 63 []).dest.toNat = 63) := by decide +kernel
theorem test_meets_HeldWake :
    let s : Station := { asleep with power := { asleep.power with mainRail := false, heldWake := some .offHook } }
    s.running = true ∧ s.power.opState = .standby ∧ s.power.progress = .none ∧
      s.power.heldWake = some .offHook := by decide +kernel

/-- A station with a reference, still at 1 g, whose tilt detector stands as given. -/
def tilting (tilt : Tilt) (s : Station) : Station :=
  { s with
    keep.reference := some ⟨0, 0, 1000⟩
    cabinet := { s.cabinet with baseline := some ⟨1000, 0, 0⟩, capture := .off, tilt := tilt } }

theorem test_meets_WakeImpact :
    let s := tilting .armed asleep
    s.cabinet.baseline = some ⟨1000, 0, 0⟩ ∧ s.cabinet.capture = .off ∧ s.cabinet.impact = .quiet ∧
      (after (.sample 8000 (-8000) 0) s).power.wakeCause = some .impact := by decide +kernel
theorem test_meets_WakeTilt :
    let since (eligible : Bool) : Tilt := .sustaining ⟨0, 95000⟩ (some ⟨0, 95000⟩) eligible
    (after (.sample 1000 0 0) (tilting (since true) asleep)).power.wakeCause = some .knockdown ∧
      (after (.sample 1000 0 0) (tilting (since false) asleep)).power.wakeCause = some .tilt ∧
      QVec.testable ⟨1000, 0, 0⟩ = true ∧ (IVec.exact ⟨0, 0, 1000⟩).testable = true ∧
      angleAbove (1 / 4) ⟨1000, 0, 0⟩ (IVec.exact ⟨0, 0, 1000⟩) = true := by decide +kernel

/-- A configuration record, its check value right. -/
def goodRecord : List Byte :=
  let fields : List Byte :=
    [9, 1, 2, 2, 6, 20, 2, 30, 2, 1, 90, 1, 1, 44, 0, 20, 20, 1, 65] ++ List.replicate 23 0 ++ [3, 49, 49, 50] ++
      List.replicate 13 0
  fields ++ be16 (crc16 fields).toNat

theorem test_record_reads : (readConfiguration goodRecord).map (·.address) = some (some 9) := by decide +kernel
theorem test_record_without_byte_fails : readConfiguration goodRecord.dropLast = none := by decide +kernel
/-- A station in START that holds a call request and a pending TILT. -/
def starting : Station :=
  { Station.reset with
    panel := { clearedPanel with hook := .offHook, request := some .handset }
    cabinet :=
      { Station.reset.cabinet with
        pending := [{ kind := .tilt, first := ⟨0, 1⟩, last := ⟨0, 1⟩, repeats := 1, peakSq := 0, axis := none }] } }

theorem test_meets_ConfigurationRead :
    starting.Awake ∧ starting.power.opState = .start ∧ starting.power.configRead = some ⟨0, 500⟩ ∧
      starting.bearers = clearedBearers ∧ starting.call.origin = none ∧ starting.reports.queue = [] ∧
      (starting.cabinet.pending.map (·.kind)).Nodup :=
  ⟨awake (by decide +kernel), by decide +kernel⟩
theorem test_start_hands_on :
    let s := after (.configReadComplete goodRecord) starting
    (s.power.opState, s.call.origin.map (·.mode), s.reports.queue.map (·.record.kind)) =
      (.active, some .handset, [.tilt]) := by decide +kernel
theorem test_meets_EntryAnnounced :
    starting.line = clearedLine ∧ starting.power.progress = .none ∧
      (after (.configReadComplete goodRecord) starting).holdsFrame (.announce false true) 63 = true ∧
      (after .offHook asleep).holdsFrame (.announce false true) 63 = true ∧
      (takeTask (.wake .button) asleep).holdsFrame (.announce false true) 63 = true := by decide +kernel
theorem test_meets_ReloadOrder :
    base.Serves 13 (rx 13 0 9 [3, 0]) ∧ readService (rx 13 0 9 [3, 0]).body = some (3, 0) ∧
      base.power.reload = none ∧ base.reloadIdle = true ∧ base.onBuiltIn = false ∧ base.line.total < 7 :=
  ⟨serves (by decide +kernel), by decide +kernel⟩
theorem test_meets_ReloadOrderBusy :
    (calling (origin .paused)).Serves 13 (rx 13 0 9 [3, 0]) ∧ (calling (origin .paused)).reloadIdle = false :=
  ⟨serves (by decide +kernel), by decide +kernel⟩
theorem test_meets_ReloadRead :
    let s : Station := { base with power.reload := some ⟨due, 258, false⟩ }
    s.Awake ∧ s.line.total < 7 ∧ s.inService = true ∧ s.power.configRead = none ∧ s.reloadIdle = true ∧
      (readConfiguration goodRecord).isSome = true ∧ readConfiguration [] = none :=
  ⟨awake (by decide +kernel), by decide +kernel⟩
/-- A station with a reload's read in progress whose old record had another segment or another address. -/
def reloading (c : Configuration) : Station :=
  { withLenders [9, 4] base with
    keep := { base.keep with config := some c }, power.reload := some ⟨due, 258, false⟩ }

theorem test_meets_ReloadDone :
    let s := reloading { cfg with segment := some 7 }
    let t := setView 0 (.heldByPeer 9 peer due due) (reloading { cfg with address := some 10 })
    (s.reloadIdle = true ∧ s.line.total < 6 ∧ t.reloadIdle = true ∧ (t.entry 0).holding = some (9, peer)) ∧
      (after (.reloadReadComplete goodRecord) s).directory.entries = [] ∧
      (after (.reloadReadComplete goodRecord) t).directory.entries.map (·.address) = [4] ∧
      (after (.reloadReadComplete goodRecord) t).entry 0 = .free := by decide +kernel
theorem test_reload_raises_mismatch :
    let s (n : Nat) : Station :=
      { reloading { cfg with circuits := n } with
        directory := { entries := [{ lender 4 with circuits := 2 }, { lender 8 with circuits := 5 }], effective := 2 } }
    let changes (c : Configuration) (s : Station) : Nat :=
      (applyReload { c with segment := some 258 } s).keep.faults.counter .circuitMismatch
    changes { cfg with circuits := 2 } (s 6) = 0 ∧ changes { cfg with circuits := 6 } (s 2) = 1 ∧
      changes { cfg with circuits := 1 } (s 6) = 1 ∧ (after (.reloadReadComplete goodRecord) (s 6)).directory.effective = 2 := by
  decide +kernel
theorem test_meets_IdleTimer :
    let s : Station := { base with power.idleTimer := some due }
    let t : Station := setBearer .a { up .searching with inFlight := some ⟨.scan, none⟩ } s
    (s.Awake ∧ s.quiet = true ∧ s.line.total < 8 ∧ s.noCommand = true) ∧
      t.Awake ∧ t.quiet = true ∧ t.line.total < 8 ∧ t.noCommand = false :=
  ⟨⟨awake (by decide +kernel), by decide +kernel⟩, awake (by decide +kernel), by decide +kernel⟩
theorem test_meets_StandbyEntry :
    let s : Station :=
      { serving (.announce true false) 63 1 (.attempting [] true) with power.progress := .announcing }
    s.Awake ∧ s.quiet = true ∧ s.power.progress = .announcing ∧ s.announcing.mark = false ∧ s.noCommand = true :=
  ⟨awake (by decide +kernel), by decide +kernel⟩
theorem test_meets_StandbyAnswers :
    let s (p : Progress) : Station :=
      setBearer .a { up .checking with inFlight := some ⟨.status, some due⟩ } { base with power.progress := p }
    (s .waitingCommand).quiet = true ∧ (s .waitingCommand).bearers.waiting = [] ∧
      ((s .waitingCommand).bearer .b).inFlight = none ∧
      (after (.level .a 63) (s .waitingCommand)).power.progress = .announcing ∧
      (after (.level .a 63) (s .waitingEntry)).power.opState = .standby := by decide +kernel
theorem test_meets_StandbyAbandoned_wake :
    let f := rx 2 4 63 []
    let s (p : Progress) : Station := { base with power.progress := p }
    let queued : Station :=
      { s .announcing with
        line.queue := [{ body := .announce true false, dest := 63, attempts := 0, begun := false }]
        announcing.heldBack := some true }
    (queued.running = true ∧ queued.quiet = true ∧ queued.transmitting = false) ∧ frameCheckOk 2 f = true ∧
      queued.isOwn f.source.toNat = false ∧ frameAddressesDefined f = true ∧ f.source ≠ 0 ∧
      queued.holdsFrame (.announce true false) 63 = true ∧
      (after (.wakeFrame f) queued).holdsFrame (.announce false true) 63 = true ∧
      (after (.wakeFrame f) queued).power.progress = .none ∧
      (after (.wakeFrame f) (s .waitingEntry)).holdsFrame (.announce false false) 63 = true ∧
      (after (.wakeFrame f) (s .waitingCommand)).power.idleTimer = some ⟨0, 400000⟩ ∧
      (s .waitingEntry).announceQueued = false := by decide +kernel
theorem test_meets_StandbyAbandoned_quiet :
    let s : Station :=
      { serving (.announce true true) 63 1 (.attempting [] true) with
        power.progress := .announcing, panel.hook := .offHook, announcing.heldBack := some false }
    s.quiet = false ∧ s.announcingNow = true ∧ (upkeep s).holdsFrame (.announce false true) 63 = true ∧
      (upkeep s).announcing.mark = true ∧ (after .offHook { base with power.progress := .announcing }).power.progress = .none := by
  decide +kernel
theorem test_meets_StandbyAbandoned_drop :
    let s (held : Option Bool) : Station :=
      { serving (.announce true false) 63 8 (.attempting [] true) with
        power.progress := .announcing, announcing.heldBack := held }
    (s none).quiet = true ∧ (after .collision (s none)).power.progress = .none ∧
      (after .collision (s none)).announceQueued = false ∧
      (after .collision (s (some true))).holdsFrame (.announce false true) 63 = true := by decide +kernel
theorem test_standby_is_entered :
    (after .transmissionComplete
      { serving (.announce true false) 63 1 (.attempting [] true) with power.progress := .announcing }).power.opState =
      .standby := by decide +kernel
theorem test_invariant_base :
    (base.keep.config.map (·.address)) = some (some 9) ∧ base.directory.effective = base.countOf ∧
      base.line.total ≤ 8 := by decide +kernel

theorem test_meets_FrameChecks :
    (base.Awake ∧ base.transmitting = false ∧ base.line.assembly ≠ .skipping) ∧
      frameCheckOk 1 { rx 1 4 63 [] with check := 0 } = false ∧
      (frameCheckOk 1 { rx 1 4 63 [] with segment := 7, check := crc16 [6, 1, 0, 7, 4, 63] } = true ∧
        base.segmentOk 1 { rx 1 4 63 [] with segment := 7, check := crc16 [6, 1, 0, 7, 4, 63] } = false) ∧
      frameCheckOk 1 (rx 1 9 63 []) = true ∧ base.segmentOk 1 (rx 1 9 63 []) = true ∧
      base.isOwn (rx 1 9 63 []).source.toNat = true :=
  ⟨⟨awake (by decide +kernel), by decide +kernel⟩, by decide +kernel⟩
theorem test_meets_FrameChecks_standby :
    (asleep.running = true ∧ asleep.power.opState = .standby ∧ asleep.power.progress = .none) ∧
      (after (.announce { rx 1 4 63 [] with check := 0 }) asleep).keep.faults.counter .frameCheck = 1 ∧
      (after (.restart (rx 13 0 9 [2, 0])) asleep).power.opState = .standby := by decide +kernel
theorem test_address_clash :
    ((after (.announce (rx 1 9 63 [])) base).power.opState, (after (.announce (rx 1 9 63 [])) base).power.clash) =
      (.isolated, true) := by decide +kernel
theorem test_meets_Refresh_wake : base.Hears 2 (rx 2 4 9 []) ∧ (readWake (rx 2 4 9 []).body).isSome = true :=
  ⟨hears (by decide +kernel), by decide +kernel⟩
theorem test_meets_Refresh_bodies :
    (readClaim [1, 4, 0, 7, 1, 0]).isSome ∧ (readCallStatus [4, 0, 7, 1, 1, 7, 0, 10]).isSome ∧
      (readBorrowVoice [1, 4, 0, 7, 1]).isSome ∧ (readBorrowReport (2 :: recordBytes (record peer))).isSome ∧
      (readLendCall [1, 9, 0, 1, 1, 0, 81, 65]).isSome ∧ (readLendReport [2, 9, 0, 1]).isSome ∧
      (readDecline 1 [1, 9, 0, 1, 1]).isSome ∧ (readDecline 2 [2, 9, 0, 1, 1]).isSome ∧
      (readConnected [9, 0, 1]).isSome ∧ (readClear [4, 0, 7, 1, 1]).isSome ∧ (readResult [9, 0, 1, 1]).isSome ∧
      (readStatus [130, 0, 0, 0, 0, 0, 0, 0, 0]).isSome := by decide +kernel
theorem test_meets_Silent_unknown : base.Hears (14 : Byte).toNat (rx 14 4 9 []) := hears (by decide +kernel)
theorem test_meets_Silent_status :
    base.Hears 12 (rx 12 4 9 [130, 0, 0, 0, 0, 0, 0, 0, 0]) := hears (by decide +kernel)
theorem test_meets_DirectoryFiles :
    base.Hears 1 (rx 1 4 63 [0, 20, 6, 0]) ∧ base.Hears 1 (rx 1 4 63 [0, 9, 6, 0]) ∧
      (readAnnounce [0, 20, 6, 0]).map (·.fileable) = some true ∧
      (readAnnounce [0, 9, 6, 0]).map (·.fileable) = some false :=
  ⟨hears (by decide +kernel), hears (by decide +kernel), by decide +kernel⟩
theorem test_meets_DirectoryFull :
    let s := withLenders ((List.range 31).map (· + 10)) base
    s.directory.entries.length = 31 ∧ s.Hears 1 (rx 1 4 63 [0, 20, 6, 0]) ∧
      ((after (.announce (rx 1 4 63 [0, 20, 6, 0])) s).directory.entries.map (·.address)) =
        4 :: (List.range 30).map (· + 11) :=
  ⟨by decide +kernel, hears (by decide +kernel), by decide +kernel⟩
theorem test_meets_DirectoryAges :
    (withLenders [4, 8] base).Awake ∧
      ((withLenders [4, 8] base).directory.entries.find? fun e => e.address == 8) = some (lender 8) :=
  ⟨awake (by decide +kernel), by decide +kernel⟩
theorem test_meets_AnnounceTimers :
    let s : Station := { base with announcing := { clearedAnnouncing with period := some due, reply := .delay due } }
    s.Awake ∧ s.power.opState = .active ∧ s.power.progress = .none ∧ s.line.total < 8 ∧
      s.announcing.period = some due ∧ s.announcing.reply = .delay due :=
  ⟨awake (by decide +kernel), by decide +kernel⟩
/-- A station that takes an ANNOUNCE with solicit, its draw source and its reply as given. -/
def solicited (d : DrawSource) (r : Reply) : Station :=
  after (.announce (rx 1 4 63 [4, 20, 6, 0])) { base with draw := d, announcing.reply := r }

theorem test_meets_Solicit :
    (readAnnounce [4, 20, 6, 0]).map (·.solicit) = some true ∧ base.Hears 1 (rx 1 4 63 [4, 20, 6, 0]) ∧
      (solicited base.draw .none).announcing.reply = .delay ⟨0, 100021⟩ ∧
      (solicited { startedDraw with mode := .latched, fallback := some ⟨9, 100000⟩ } .none).announcing.reply =
        .delay (Stamp.later ⟨0, 100000⟩ ((100000 * 1597334677 + 19) % 4294967296 / 65536 % 500)) ∧
      (solicited startedDraw .none).draw.waiting = [.reply] ∧
      (solicited base.draw (.delay ⟨0, 100300⟩)).announcing.reply = .delay ⟨0, 100300⟩ :=
  ⟨by decide +kernel, hears (by decide +kernel), by decide +kernel⟩
theorem test_meets_Solicit_drawn :
    let s : Station :=
      { base with draw := { startedDraw with mode := .healthy, waiting := [.reply] }, announcing.reply := .waitingDraw }
    s.Awake ∧ s.draw.sound (alternating 32) = true ∧
      ((alternating 32).foldl DrawSource.passBit s.draw).group.length = 64 ∧
      (after (.drawConditioned ⟨alternating 32, 1234⟩) s).announcing.reply = .delay ⟨0, 100234⟩ :=
  ⟨awake (by decide +kernel), by decide +kernel⟩
theorem test_meets_Claim :
    base.Hears 3 (rx 3 4 63 [6, 4, 0, 7, 255, 255]) ∧
      readClaim [6, 4, 0, 7, 255, 255] = some ⟨circuitNumber 5, peer, 65535⟩ ∧ base.entry 5 = .free ∧
      (setView 5 (.contested ⟨8, peer, 65535⟩ due) base).entry 5 = .contested ⟨8, peer, 65535⟩ due ∧
      ((setView 5 (.heldOwn 9 own due) base).entry 5).holding.isSome = true :=
  ⟨hears (by decide +kernel), by decide +kernel⟩
theorem test_meets_ContestWonByPeer :
    let s := setView 0 (.contested ⟨4, peer, 256⟩ ⟨0, 99750⟩) base
    s.Awake ∧ s.isOwn 4 = false :=
  ⟨awake (by decide +kernel), by decide +kernel⟩

/-- A round whose claim stands in the contest of circuit 1. -/
def round : Round :=
  { tag := own, attempts := 0, attempted := [0], circuit := 0, stage := .contesting 7, abandoned := none }

/-- The station with its own claim in the contest of circuit 1. -/
def contending : Station :=
  setView 0 (.contested ⟨9, own, 7⟩ ⟨0, 99750⟩)
    { calling (origin .claiming) with circuits := { clearedCircuits with round := some round } }

theorem test_meets_ContestWonByOwn :
    contending.Awake ∧ contending.isOwn 9 = true ∧ contending.circuits.round = some round ∧ round.abandoned = none ∧
      contending.entry 0 = .contested ⟨9, own, 7⟩ ⟨0, 99750⟩ :=
  ⟨awake (by decide +kernel), by decide +kernel⟩
theorem test_meets_ContestLost :
    let s (n : Nat) : Station :=
      setView 0 (.contested ⟨4, peer, 256⟩ ⟨0, 99750⟩)
        { contending with circuits.round := some { round with attempts := n } }
    (s 2).Awake ∧ (s 2).circuits.request = none ∧
      ((after (.contestTimerExpiry 0) (s 0)).circuits.round.map fun r => (r.attempts, r.circuit)) = some (1, 1) ∧
      (after (.contestTimerExpiry 0) (s 2)).circuits.round = none ∧
      (after (.contestTimerExpiry 0) (s 0)).entry 0 = .heldByPeer 4 peer due due :=
  ⟨awake (by decide +kernel), by decide +kernel⟩
theorem test_meets_ContestElsewhere :
    let r : Round := { round with circuit := 1, stage := .claimSent 7 }
    let s := setView 0 (.contested ⟨9, own, 7⟩ ⟨0, 99750⟩) { contending with circuits.round := some r }
    (after (.contestTimerExpiry 0) s).circuits.round = some r ∧
      (after (.contestTimerExpiry 0) s).entry 0 = .heldOwn 9 own due := by decide +kernel
theorem test_meets_ContestAbandonedWins :
    let s : Station := { contending with circuits.round := some { round with abandoned := some ⟨.callerEnded, 63⟩ } }
    let t := after (.contestTimerExpiry 0) s
    s.Awake ∧ s.entry 0 = .contested ⟨9, own, 7⟩ ⟨0, 99750⟩ ∧ s.power.opState = .active ∧ s.line.total < 7 ∧
      t.entry 0 = .free ∧ t.circuits.round = none ∧ t.holdsFrame (.clear own (some 0) .callerEnded) 63 = true :=
  ⟨awake (by decide +kernel), by decide +kernel⟩
theorem test_meets_ContestAbandonedLost :
    let s : Station :=
      setView 0 (.contested ⟨4, peer, 256⟩ ⟨0, 99750⟩)
        { contending with circuits.round := some { round with abandoned := some ⟨.callerEnded, 63⟩ } }
    let t := after (.contestTimerExpiry 0) s
    s.Awake ∧ s.circuits.request = none ∧ t.entry 0 = .heldByPeer 4 peer due due ∧ t.circuits.round = none ∧
      t.holdsFrame (.clear own (some 0) .callerEnded) 63 = false :=
  ⟨awake (by decide +kernel), by decide +kernel⟩
theorem test_meets_AnnounceHolds :
    let body : List Byte := [8, 20, 6, 0, 1, 4, 0, 7, 0, 10]
    base.Hears 1 (rx 1 4 63 body) ∧
      ((readAnnounce body).map fun b => (b.fileable, b.held)) = some (true, some ⟨circuitNumber 0, peer, 10⟩) ∧
      (after (.announce (rx 1 4 63 body)) base).entry 0 = .heldByPeer 4 peer ⟨0, 90000⟩ ⟨0, 100000⟩ :=
  ⟨hears (by decide +kernel), by decide +kernel⟩
theorem test_own_contest_is_won :
    (after (.contestTimerExpiry 0) (withLenders [8] contending)).ownCircuit = some 0 := by decide +kernel
theorem test_meets_Holding :
    base.Hears 4 (rx 4 4 63 [4, 0, 7, 1, 1, 7, 0, 10]) ∧
      readCallStatus [4, 0, 7, 1, 1, 7, 0, 10] = some ⟨peer, circuitNumber 0, .origin, 7, 10⟩ ∧
      (setView 0 (.heldByPeer 8 ⟨8, 1⟩ due due) base).entry 0 = .heldByPeer 8 ⟨8, 1⟩ due due ∧
      (setView 0 (.heldOwn 9 own ⟨0, 50000⟩) base).entry 0 = .heldOwn 9 own ⟨0, 50000⟩ ∧
      holdAge ⟨0, 100000⟩ ⟨0, 50000⟩ = 50 :=
  ⟨hears (by decide +kernel), by decide +kernel⟩
theorem test_meets_ClearFrees :
    let s := setView 0 (.heldByPeer 4 peer due due) base
    s.Hears 9 (rx 9 4 63 [4, 0, 7, 1, 1]) ∧ readClear [4, 0, 7, 1, 1] = some ⟨peer, circuitNumber 0, .callerEnded⟩ ∧
      (s.entry 0).holding = some (4, peer) ∧ s.isOwn (rx 9 4 63 []).dest.toNat = false :=
  ⟨hears (by decide +kernel), by decide +kernel⟩
theorem test_meets_ClearFreesAddressed :
    let s := setView 0 (.heldByPeer 4 peer due due) base
    s.Hears 9 (rx 9 4 9 [4, 0, 7, 1, 1]) ∧ peer.origin = (rx 9 4 9 []).source.toNat ∧
      (after (.clear (rx 9 4 9 [4, 0, 7, 1, 1])) s).entry 0 = .free :=
  ⟨hears (by decide +kernel), by decide +kernel⟩
theorem test_meets_ClearEndsCarrier :
    let s : Station := { base with call.carriers := [⟨peer, 0, .a, .dialing, due, none⟩] }
    s.Hears 9 (rx 9 4 9 [4, 0, 7, 1, 1]) ∧ s.isOwn (rx 9 4 9 []).dest.toNat = true ∧
      s.carrier? peer = some ⟨peer, 0, .a, .dialing, due, none⟩ :=
  ⟨hears (by decide +kernel), by decide +kernel⟩
theorem test_meets_ClearEndsOrigin :
    let s := holding { origin .connected with carrier := .lent 4 none, connected := true }
    s.Hears 9 (rx 9 4 9 [9, 0, 1, 0, 2]) ∧ readClear [9, 0, 1, 0, 2] = some ⟨own, 0, .farEnd⟩ ∧
      s.isOwn (rx 9 4 9 []).dest.toNat = true ∧ s.isOwn own.origin = true ∧
      (s.call.origin.map fun o => (o.carrier.lender, o.releasing)) = some (some 4, none) :=
  ⟨hears (by decide +kernel), by decide +kernel⟩

theorem test_meets_Relayed_frames :
    let f := rx 5 4 9 (2 :: recordBytes (record peer))
    let s := setBearer .a (up .dialing) base
    (base.Hears 5 f ∧ s.Hears 5 f) ∧ base.isOwn f.dest.toNat = true ∧ readBorrowReport f.body = some (record peer) ∧
      base.relay? peer = none ∧ base.anyGrade = false ∧ s.anyGrade = true ∧ s.line.total < 7 ∧
      s.reports.relay.length < 4 ∧
      4 ≤ { s with reports.relay := [relayed 1 .waiting, relayed 2 .waiting, relayed 3 .waiting, relayed 5 .waiting]
        }.reports.relay.length :=
  ⟨⟨hears (by decide +kernel), hears (by decide +kernel)⟩, by decide +kernel⟩
theorem test_meets_Relayed_timers :
    let s := relaying [{ relayed 1 .resting with rest := some due }, relayed 2 .inFlight]
    s.Awake ∧ s.power.opState = .active ∧ s.line.total < 7 ∧
      s.relay? ⟨4, 1⟩ = some { relayed 1 .resting with rest := some due } ∧
      s.relay? ⟨4, 2⟩ = some (relayed 2 .inFlight) ∧ s.claimWaits (.relay ⟨4, 2⟩) = false ∧
      (s.reports.relay.any fun g => g.state == .inFlight && g.record.tag != ⟨4, 1⟩) = true :=
  ⟨awake (by decide +kernel), by decide +kernel⟩
theorem test_meets_Lenders_lend :
    let s := reporting [entry 1 .inFlight (.asking 4) none]
    s.Hears 6 (rx 6 4 9 [2, 9, 0, 1]) ∧ s.isOwn (rx 6 4 9 []).dest.toNat = true ∧
      readLendReport [2, 9, 0, 1] = some ⟨9, 1⟩ ∧ s.report? ⟨9, 1⟩ = some (entry 1 .inFlight (.asking 4) none) :=
  ⟨hears (by decide +kernel), by decide +kernel⟩
theorem test_meets_Lenders_next :
    let e := entry 1 .inFlight (.asking 4) (some due)
    let s := withLenders [4, 8] (reporting [e])
    (s.Awake ∧ s.Hears 7 (rx 7 4 9 [2, 9, 0, 1, 1])) ∧ readDecline 2 [2, 9, 0, 1, 1] = some ⟨9, 1⟩ ∧
      s.report? ⟨9, 1⟩ = some e ∧ s.flying = some e ∧ s.ranking [4] = [8] ∧ s.line.total < 7 :=
  ⟨⟨awake (by decide +kernel), hears (by decide +kernel)⟩, by decide +kernel⟩
theorem test_meets_Lenders_stall :
    let e := entry 1 .waiting .absent none
    let s := withLenders [4] { reporting [e] with reports.stall := some due }
    s.Awake ∧ s.report? ⟨9, 1⟩ = some e ∧ s.flying = none ∧ s.reports.stall = some due ∧
      (s.reports.queue.find? fun g => g.state == .waiting) = some e ∧ s.anyGrade = false ∧ s.ranking [] = [4] :=
  ⟨awake (by decide +kernel), by decide +kernel⟩
theorem test_meets_Reports_own :
    let e := entry 1 .waiting .absent none
    let s (r : Bearer) (c : Configuration) : Station :=
      setBearer .a r
        { reporting [e] with reports.stall := some due, keep := { base.keep with config := some c } }
    let none' : Configuration := { cfg with destination := [] }
    ((s (up .available) cfg).Awake ∧ (s (up .dialing) cfg).Awake) ∧ (s (up .dialing) cfg).anyGrade = true ∧
      ((after .stallCheckExpiry (s (up .available) cfg)).bearer .a).inFlight = some ⟨.sendReport, some ⟨0, 130000⟩⟩ ∧
      ((after .stallCheckExpiry (s (up .available) none')).reports.queue.map (·.attempts)) = [1] ∧
      (after .stallCheckExpiry (s (up .dialing) cfg)).bearers.waiting = [⟨.report ⟨9, 1⟩, e.record⟩] :=
  ⟨⟨awake (by decide +kernel), awake (by decide +kernel)⟩, by decide +kernel⟩
theorem test_meets_Reports_own_notices :
    let e := entry 1 .inFlight .ownBearer none
    let s (n : Nat) : Station := reporting [entry 2 .resting .absent (some ⟨0, 190000⟩), { e with attempts := n }]
    let taken (n : Nat) (k : Notice) : Station := takeTask (.notice (.report ⟨9, 1⟩) .a k) (s n)
    ((s 0).Awake ∧ (s 4).Awake) ∧ (taken 0 .reportSent).keep.delivered = 1 ∧ (s 0).reports.queue.length = 2 ∧
      ((s 4).reports.queue.find? fun g =>
        g.waits && g.record.tag != ⟨9, 1⟩ && g.record.kind == .knockdown) = none ∧
      (taken 4 .reportFailed).keep.dropped = 1 ∧
      ((takeTask (.notice (.report ⟨9, 1⟩) .a .preempted) (reporting [e])).reports.queue.map (·.state)) = [.waiting] ∧
      ((takeTask (.notice (.report ⟨9, 1⟩) .a .reportFailed) (reporting [e])).reports.queue.map fun g =>
        (g.state, g.attempts)) = [(.resting, 1)] :=
  ⟨⟨awake (by decide +kernel), awake (by decide +kernel)⟩, by decide +kernel⟩
theorem test_meets_Attempts_result :
    let e := entry 1 .inFlight (.relayed 4) (some due)
    let last := { e with attempts := 4 }
    ((reporting [e]).Hears 10 (rx 10 4 9 [9, 0, 1, 2]) ∧ (reporting [last]).Hears 10 (rx 10 4 9 [9, 0, 1, 2])) ∧
      readResult [9, 0, 1, 2] = some ⟨⟨9, 1⟩, false⟩ ∧ (reporting [e]).report? ⟨9, 1⟩ = some e ∧
      (reporting [last]).report? ⟨9, 1⟩ = some last ∧ (reporting [e]).flying = some e ∧
      ((reporting [e]).reports.queue.find? fun g =>
        g.waits && g.record.tag != ⟨9, 1⟩ && g.record.kind == e.record.kind) = none :=
  ⟨⟨hears (by decide +kernel), hears (by decide +kernel)⟩, by decide +kernel⟩
theorem test_meets_Attempts_rest :
    let e := entry 1 .resting .absent (some due)
    let g := entry 2 .inFlight (.asking 4) none
    (reporting [e, g]).Awake ∧ (reporting [e, g]).report? ⟨9, 1⟩ = some e ∧ (reporting [e, g]).flying = some g ∧
      g.record.tag ≠ ⟨9, 1⟩ ∧ g.route ≠ .ownBearer :=
  ⟨awake (by decide +kernel), by decide +kernel⟩
theorem test_meets_Queries :
    base.Serves 11 (rx 11 0 9 [1, 255]) ∧ base.line.total < 7 ∧ readService [1, 255] = some (1, 255) ∧
      base.directory.entries[0]? = none ∧ (withLenders [4] base).directory.entries[0]? = some (lender 4) :=
  ⟨serves (by decide +kernel), by decide +kernel⟩
theorem test_meets_Orders :
    base.Serves 13 (rx 13 0 9 [1, 7]) ∧ base.Serves 13 (rx 13 0 9 [4, 0]) ∧ base.Serves 13 (rx 13 0 9 [255, 0]) :=
  ⟨serves (by decide +kernel), serves (by decide +kernel), serves (by decide +kernel)⟩
theorem test_clear_faults_leaves_other_classes :
    let s := raise .frameCheck (raise .partnerLost base)
    let t := after (.clearFaults (rx 13 0 9 [1, 2])) s
    (t.keep.faults.counter .frameCheck, t.keep.faults.counter .partnerLost, t.keep.faults.flags) =
      (1, 0, { correctable := true, nonFatal := false, fatal := false }) := by decide +kernel

theorem test_meets_LineEdges :
    (base.Awake ∧ base.transmitting = false) ∧
      (let s := serving .wake 4 0 (.slots 1)
      s.Awake ∧ s.line.gap = true) :=
  ⟨⟨awake (by decide +kernel), by decide +kernel⟩, awake (by decide +kernel), by decide +kernel⟩
theorem test_meets_AttemptsEnd :
    let s := serving .wake 4 7 (.attempting [] false)
    (s.Awake ∧ s.draw.mode = .healthy ∧ s.draw.pool = [21]) ∧ (TxBody.claim 0 own 7).isClaim = true ∧
      (TxBody.announce false false).isAnnounce = true ∧ base.entry 0 = .free :=
  ⟨⟨awake (by decide +kernel), by decide +kernel⟩, by decide +kernel⟩
theorem test_own_claim_contests :
    (after .transmissionComplete
      { serving (.claim 0 own 7) 63 1 (.attempting [] false) with
        circuits := { clearedCircuits with round := some { round with stage := .claimSent 7 } } }).entry 0 =
      .contested ⟨9, own, 7⟩ due := by decide +kernel
/-- The station whose own CLAIM is transmitted; its round has lost some attempts, and circuit 1 stands as given. -/
def claiming (attempts : Nat) (e : CircuitEntry) : Station :=
  setView 0 e
    { serving (.claim 0 own 7) 63 1 (.attempting [] false) with
      circuits := { clearedCircuits with round := some { round with stage := .claimSent 7, attempts := attempts } } }

theorem test_meets_OwnClaim :
    let held : CircuitEntry := .heldByPeer 4 peer due due
    let lost := after .transmissionComplete (claiming 2 held)
    (claiming 0 .free).Awake ∧ (claiming 2 held).circuits.request = none ∧
      (after .transmissionComplete (claiming 0 (.contested ⟨4, peer, 7⟩ due))).entry 0 = .contested ⟨9, own, 7⟩ due ∧
      (after .transmissionComplete (claiming 0 (.contested ⟨10, peer, 7⟩ due))).entry 0 =
        .contested ⟨10, peer, 7⟩ due ∧
      (lost.circuits.round, lost.entry 0) = (none, held) ∧
      (takeTask (.claimDropped (.claim 0 own 7)) (claiming 2 .free)).circuits.round = none :=
  ⟨awake (by decide +kernel), by decide +kernel⟩
theorem test_foreign_claim_leaves_round :
    let s : Station := { claiming 2 .free with circuits.round := some { round with circuit := 1, stage := .claimSent 9 } }
    (after .transmissionComplete s).circuits = s.circuits ∧ takeTask (.claimDropped (.claim 0 own 7)) s = s := by
  decide +kernel
theorem test_meets_Noise_bits :
    let d : DrawSource := { base.draw with runLength := 30, lastBit := true, windowBits := 510, ones := 200, group := [true] }
    d.uneventful [true] = true ∧ d.sound [false] = true ∧
      (after (.proportionWindowJudged [true]) { base with draw := d }).draw =
        { d with runLength := 31, windowBits := 511, ones := 201, group := [true, true] } ∧
      (after (.proportionWindowJudged [true, false]) { base with draw := d }).draw =
        { d with lastBit := false, runLength := 1, windowBits := 0, ones := 0, group := [true, true, false] } ∧
      (after (.proportionWindowJudged [true, true]) { base with draw := d }).draw.mode = .latched ∧
      (after .repetitionFailure { base with draw := { d with windowBits := 509 } }).draw.fallback =
        some ⟨9, 100000 + 9 * 16777216⟩ := by decide +kernel
theorem test_meets_Noise :
    (base.Awake ∧ base.draw.mode = .healthy ∧ base.draw.waiting = []) ∧
      { base with draw := { startedDraw with mode := .latched, fallback := some ⟨9, 0⟩ } }.Awake ∧
      { base with draw := startedDraw }.Awake :=
  ⟨⟨awake (by decide +kernel), by decide +kernel⟩, awake (by decide +kernel), awake (by decide +kernel)⟩
theorem test_waiting_draw_is_served :
    (after (.drawConditioned ⟨alternating 32, 13⟩)
      { serving .wake 4 1 .waitingDraw with
        draw := { startedDraw with mode := .healthy, waiting := [.line] } }).line.service.map (·.backoff) =
      some (.slots 13) := by decide +kernel
theorem test_meets_Sample :
    let s : Station :=
      { base with
        cabinet.baseline := some ⟨0, 0, 0⟩
        cabinet.capture := .window ⟨0, 90000⟩ 999 ⟨0, 0, 0⟩ ⟨0, 0, 0⟩ ⟨0, 0, 0⟩ }
    s.Awake ∧ s.cabinet.impact = .quiet ∧ 10000 ≤ Stamp.elapsed ⟨0, 90000⟩ s.now ∧
      (after (.sample 8000 (-8000) 49) s).cabinet.baseline = some ⟨20, -20, 49 / 400⟩ ∧
      (after (.sample 8001 0 0) s).cabinet.baseline = some ⟨0, 0, 0⟩ ∧
      (after (.sample 49 (-49) 1) s).keep.reference = some ⟨0, 0, 0⟩ :=
  ⟨awake (by decide +kernel), by decide +kernel⟩
theorem test_meets_Silence :
    let s : Station := { base with cabinet.silence := some due }
    let t : Station := { base with cabinet.impact := .opened due 1 .y due }
    (s.Awake ∧ s.cabinet.impact = .quiet) ∧ t.Awake ∧ t.inService = true ∧ t.reports.queue.length < 8 ∧
      { t with power.opState := .start }.Awake :=
  ⟨⟨awake (by decide +kernel), by decide +kernel⟩, awake (by decide +kernel), by decide +kernel, by decide +kernel
  , awake (by decide +kernel)⟩
theorem test_meets_ImpactCloses :
    let opened (s : Station) : Station := { s with cabinet.impact := .opened ⟨0, 98000⟩ 6250000 .y due }
    let knock : ReportEntry := newEntry { record ⟨9, 1⟩ with kind := .impact } 1
    let merged := (after .impactQuietLimitExpiry (opened (reporting [knock]))).reports.queue.map (·.record)
    let s := opened (reporting ((List.range 8).map fun n => newEntry (record ⟨9, n⟩) 0))
    let start : Station := { opened starting with keep.clock := ⟨0, 100000⟩, cabinet.silence := some due }
    merged.map (fun r => (r.repeats, r.peak, r.axis)) = [(2, 50, some .y)] ∧
      (after .impactQuietLimitExpiry s).keep.dropped = 1 ∧
      ((after .impactQuietLimitExpiry s).reports.queue.map (·.record.tag.number)) = [1, 2, 3, 4, 5, 6, 7, 1] ∧
      ((after .sensorSilence start).cabinet.pending.map (·.kind)) = [.tilt, .impact] := by decide +kernel
theorem test_meets_Tilt :
    let s := tilting (.sustaining ⟨0, 95000⟩ (some ⟨0, 95000⟩) true) base
    s.Awake ∧ s.cabinet.capture = .off ∧ s.reports.queue.length < 8 ∧ s.inService = true ∧
      ((after (.sample 1000 0 0) s).reports.queue.map (·.record.kind)) = [.knockdown] ∧
      (after (.sample 1000 0 0) s).cabinet.tilt = .raised ∧
      (after (.sample 1000 0 0) (tilting .armed base)).cabinet.tilt = .sustaining due (some due) false :=
  ⟨awake (by decide +kernel), by decide +kernel⟩
theorem test_meets_TiltShort :
    let s : Station := { tilting .raised base with keep.reference := some ⟨0, 0, 199⟩ }
    (IVec.exact ⟨0, 0, 199⟩).testable = false ∧ (after (.sample 1000 0 0) s).cabinet.tilt = .raised := by
  decide +kernel
theorem test_meets_FaultLamp :
    (base.power.keepRail = true ∧ base.power.held = false ∧ base.power.opState ≠ .standby) ∧
      asleep.power.opState = .standby ∧ asleep.power.mainRail = true := by decide +kernel

theorem test_meets_Ready :
    (setBearer .a (up .starting) base).Awake ∧ (setBearer .a (up .starting) base).fitted .a = true ∧
      ((setBearer .a (up .starting) base).bearer .a).state = .starting :=
  ⟨awake (by decide +kernel), by decide +kernel⟩
theorem test_meets_EndOfWork :
    let r : Bearer := { up .ringing with inFlight := some ⟨.dial, none⟩ }
    (setBearer .b r base).Awake ∧ (setBearer .b r base).fitted .b = true ∧ r.dialInFlight = true ∧
      (up .inCall).state = .inCall ∧ (up .sending).state = .sending :=
  ⟨awake (by decide +kernel), by decide +kernel⟩
/-- A bearer with DIAL in flight for the station's own call, its networks and its barred list as given. -/
def rejecting (networks : List (Nat × Nat)) (barred : List (Nat × Stamp)) (redialUsed : Bool) : Station :=
  setBearer .a
    { up .dialing with
      networks := networks, barred := barred, inFlight := some ⟨.dial, none⟩
      alloc := some { voiceAllocation (.origin own) false with redialUsed := redialUsed } }
    base

/-- The bearer after the network has rejected the call. -/
def rejected (networks : List (Nat × Nat)) (barred : List (Nat × Stamp)) (redialUsed : Bool) : Bearer :=
  (after (.ended .a .rejected) (rejecting networks barred redialUsed)).bearer .a

theorem test_meets_Rejected :
    let two : List (Nat × Nat) := [(20801, 40), (20802, 30)]
    let full : List (Nat × Stamp) := [(1, ⟨0, 7⟩), (3, ⟨0, 5⟩), (2, ⟨0, 5⟩), (4, ⟨0, 9⟩)]
    (rejecting two [] false).Awake ∧ (rejecting two [] false).fitted .a = true ∧
      (rejected two [] false).inFlight = some ⟨.camp 20802, some ⟨0, 115000⟩⟩ ∧
      (rejected two [] false).barred = [(20801, ⟨0, 700000⟩)] ∧ (rejected two [] true).state = .settling ∧
      (rejected [(20801, 40)] [(20801, due)] false).barred = [(20801, ⟨0, 700000⟩)] ∧
      (rejected two full false).barred = [(1, ⟨0, 7⟩), (3, ⟨0, 5⟩), (20801, ⟨0, 700000⟩), (4, ⟨0, 9⟩)] :=
  ⟨awake (by decide +kernel), by decide +kernel⟩
theorem test_meets_EndOfWork_ending :
    let s (preempt kept : Bool) : Station :=
      setBearer .a
        { up .ending with
          inFlight := some ⟨.hangup, some ⟨0, 105000⟩⟩
          alloc := some { voiceAllocation (.carrier peer) preempt with keptDial := kept } }
        base
    let state (i : Instr) (preempt kept : Bool) : BearerState := ((after i (s preempt kept)).bearer .a).state
    (s true true).Awake ∧ state (.ended .a .rejected) false false = .settling ∧
      state (.reportFailed .a) true false = .reserved ∧ state (.ended .a .remoteHangup) true true = .dialing ∧
      state (.ended .a .networkLost) true true = .settling :=
  ⟨awake (by decide +kernel), by decide +kernel⟩
theorem test_meets_Lost :
    let s (state : BearerState) (c : Option InFlight) : Station :=
      setBearer .a { up state with inFlight := c, alloc := holds (.carrier peer) } base
    let lost (state : BearerState) (c : Option InFlight) : Bearer := (after (.lost .a) (s state c)).bearer .a
    (s .dialing none).Awake ∧ (s .dialing none).fitted .a = true ∧ (lost .dialing (some ⟨.dial, none⟩)).state = .ending ∧
      (lost .dialing (some ⟨.camp 7, none⟩)).state = .settling ∧
      ([BearerState.ringing, .inCall, .sending, .ending].map fun x => ((lost x none).state, (lost x none).camped)) =
        List.replicate 4 (.ending, none) ∧
      (lost .settling none).state = .settling ∧ (lost .reserved none).state = .searching :=
  ⟨awake (by decide +kernel), by decide +kernel⟩
theorem test_meets_Fault :
    let s := setBearer .a { up .available with powerCycles := 3 } base
    s.Awake ∧ s.fitted .a = true ∧ (s.bearer .a).powerCycles = 3 ∧ ((base.bearer .a).powerCycles ≠ 3) :=
  ⟨awake (by decide +kernel), by decide +kernel⟩
theorem test_meets_CommandTimeout :
    let s := setBearer .a { up .camping with inFlight := some ⟨.camp 7, some due⟩, timeouts := 1 } base
    s.Awake ∧ (s.bearer .a).inFlight = some ⟨.camp 7, some due⟩ ∧ 1 ≤ (s.bearer .a).timeouts ∧
      (s.bearer .a).powerCycles ≠ 3 :=
  ⟨awake (by decide +kernel), by decide +kernel⟩
theorem test_meets_CommandTimeout_first :
    let s (r : Bearer) (c : Command) : Station := setBearer .a { r with inFlight := some ⟨c, some due⟩ } base
    let then_ (r : Bearer) (c : Command) : Bearer := (after (.commandTimeout .a) (s r c)).bearer .a
    let kept : Allocation := { voiceAllocation (.origin own) true with keptDial := true }
    (s (up .checking) .status).Awake ∧ (then_ (up .checking) .status).state = .available ∧
      (then_ (up .ending) .hangup).state = .settling ∧ (then_ { up .sending with alloc := holds (.report own) }
        .sendReport).state = .ending ∧ (then_ (up .dialing) (.camp 7)).camped = none ∧
      (then_ { up .ending with alloc := some kept } .hangup).state = .dialing ∧
      (then_ { up .available with powerCycles := 3, timeouts := 1 } .status).state = .failedHeld :=
  ⟨awake (by decide +kernel), by decide +kernel⟩
theorem test_meets_BearerWaits :
    let r : Bearer := { up .failed with rescan := some due, failureWait := some due, barred := [(7, due)] }
    (setBearer .a r base).Awake ∧ (r.barred.find? fun b => b.1 == 7) = some (7, due) :=
  ⟨awake (by decide +kernel), by decide +kernel⟩
theorem test_meets_Camped :
    let s := setBearer .a { up .camping with inFlight := some ⟨.camp (20801 : BitVec 24).toNat, none⟩ } base
    s.Awake ∧ s.fitted .a = true ∧ (63 : Byte).toNat ≤ 63 ∧ (s.bearer .a).state = .camping :=
  ⟨awake (by decide +kernel), by decide +kernel⟩
theorem test_meets_Level :
    let s := setBearer .a { up .checking with inFlight := some ⟨.status, none⟩ } base
    s.Awake ∧ s.fitted .a = true ∧ (s.bearer .a).state = .checking :=
  ⟨awake (by decide +kernel), by decide +kernel⟩
theorem test_meets_Dial :
    let s :=
      setBearer .a
        { up .dialing with inFlight := some ⟨.dial, none⟩, dialLimit := some due, alloc := holds (.carrier peer) } base
    s.Awake ∧ s.fitted .a = true ∧ (s.bearer .a).dialInFlight = true ∧ (s.bearer .a).state = .dialing ∧
      (s.bearer .a).alloc = holds (.carrier peer) :=
  ⟨awake (by decide +kernel), by decide +kernel⟩
theorem test_meets_AnsweredCarrier :
    let k : Carrier := ⟨peer, 0, .a, .ringing, due, none⟩
    let s : Station :=
      setView 0 (.heldByPeer 4 peer due due)
        (setBearer .a { up .ringing with inFlight := some ⟨.dial, none⟩, alloc := holds (.carrier peer) }
          { base with call.carriers := [k] })
    let t := after (.answered .a) s
    s.Awake ∧ s.carrier? peer = some k ∧ s.entry 0 = .heldByPeer 4 peer due due ∧ s.keep.tally.frozen = false ∧
      s.line.total < 7 ∧ t.audio = [⟨.bearer .a, .farSide 0, .carrier peer⟩] ∧ t.keep.tally.lent = 1 ∧
      t.holdsFrame (.connected peer) 4 = true ∧ t.call.carriers.map (·.phase) = [.connected] :=
  ⟨awake (by decide +kernel), by decide +kernel⟩
theorem test_answered_during_recamp :
    ((after (.answered .a)
      (setBearer .a { up .dialing with inFlight := some ⟨.camp 7, some due⟩, alloc := holds (.carrier peer) } base)
      ).bearer .a).state = .inCall := by decide +kernel
theorem test_meets_Recheck :
    let s := setBearer .b { up .inCall with recheck := some due, owed := 4 } (setBearer .a
      { up .available with recheck := some due } base)
    s.Awake ∧ (s.bearer .a).recheck = some due ∧ (s.bearer .b).recheck = some due ∧
      ((after (.recheckTimerExpiry .b) s).bearer .b).owed = 4 :=
  ⟨awake (by decide +kernel), by decide +kernel⟩
theorem test_meets_SettlingGuard :
    let s := setBearer .a { up .settling with settle := some due, barred := [(20801, ⟨0, 200000⟩)] } base
    s.Awake ∧ (s.bearer .a).settle = some due ∧
      ((after (.settlingGuardExpiry .a) s).bearer .a).state = .noService :=
  ⟨awake (by decide +kernel), by decide +kernel⟩
theorem test_meets_AnsweredLocal :
    let o : Origin := { origin .dialingLocal with carrier := .own .a }
    let s : Station :=
      { setBearer .a { up .ringing with inFlight := some ⟨.dial, none⟩, alloc := holds (.origin own) } (calling o) with
        audio := [⟨.tone, .handset, .origin own⟩] }
    s.Awake ∧ s.fitted .a = true ∧ (s.bearer .a).dialInFlight = true ∧ s.keep.tally.frozen = false ∧
      s.call.origin = some o :=
  ⟨awake (by decide +kernel), by decide +kernel⟩
theorem test_meets_CallRequest :
    let s : Station := { base with panel := { clearedPanel with classifier := .window due false none } }
    (base.Awake ∧ base.inService = true ∧ base.call.origin = none ∧ base.panel.hook = .onHook) ∧ s.Awake ∧
      s.inService = true ∧ s.call.origin = none ∧ s.panel.hook ≠ .offHook :=
  ⟨⟨awake (by decide +kernel), by decide +kernel⟩, awake (by decide +kernel), by decide +kernel⟩
theorem test_meets_Route_local :
    let s (r : Bearer) (c : Configuration) : Station :=
      setBearer .a r { calling (origin .selecting) with keep := { base.keep with config := some c } }
    let u (r : Bearer) (c : Configuration) : Station := takeTask (.select own) (s r c)
    let modes (v : Station) : Option (Phase × CarrierRef) × BearerState :=
      (v.call.origin.map fun o => (o.phase, o.carrier), (v.bearer .a).state)
    let third : Configuration := { cfg with localPreference := 3 }
    (s (up .available) cfg).inService = true ∧ (origin .selecting).activity = .selecting ∧
      modes (u (up .available) cfg) = (some (.dialingLocal, .own .a), .dialing) ∧
      modes (u (up .sending) third) = (some (.dialingLocal, .own .a), .ending) ∧
      modes (u { up .checking with camped := some (20801, 5) } third) = (some (.dialingLocal, .own .a), .dialing) := by
  decide +kernel
theorem test_meets_Route_borrowed :
    let select (s : Station) : Station := takeTask (.select own) s
    let phase (s : Station) : Option (Phase × CarrierRef) := s.call.origin.map fun o => (o.phase, o.carrier)
    let claims := select (withLenders [4] (calling (origin .selecting)))
    let sleeper : Station :=
      { holding (origin .selecting) with
        directory := { entries := [{ lender 4 with power := .standby }], effective := 6 } }
    let isolated : Station := { calling (origin .selecting) with power.opState := .isolated }
    (claims.circuits.round.map (·.circuit)) = some 0 ∧ phase claims = some (.claiming, .absent) ∧
      phase (select (withLenders [8, 4] (holding (origin .selecting)))) = some (.asking, .asked 8) ∧
      phase (select sleeper) = some (.waking, .absent) ∧ (select sleeper).holdsFrame .wake 4 = true ∧
      phase (select (holding (origin .selecting))) = some (.paused, .absent) ∧
      (select (holding (origin .selecting))).holdsFrame (.clear own (some 0) .noAnswer) 63 = true ∧
      phase (select isolated) = some (.paused, .absent) := by decide +kernel
theorem test_meets_Route_fallback :
    let o := { origin .asking with tried := [1, 2, 3, 4] }
    let s := setBearer .b (up .sending) (holding o)
    let u := takeTask (.borrow own) s
    s.ownCircuit = some 0 ∧ s.entry 0 = .heldOwn 9 own ⟨0, 50000⟩ ∧ u.entry 0 = .free ∧
      u.holdsFrame (.clear own (some 0) .noAnswer) 63 = true ∧
      (u.call.origin.map fun o => (o.phase, o.carrier, o.localTried)) = some (.dialingLocal, .own .b, true) := by
  decide +kernel
theorem test_meets_Route_round :
    let s := withLenders [4] (holding { origin .claiming with phaseDeadline := none })
    let won := takeTask (.roundWon own) s
    (won.call.origin.map fun o => (o.phase, o.schedule)) = some (.asking, some ⟨0, 105000⟩) ∧
      (calling (origin .claiming)).ownCircuit = none ∧
      ((takeTask (.roundFailed own .attemptsLost) (calling (origin .claiming))).call.origin.map (·.phase)) =
        some .paused := by decide +kernel
theorem test_meets_SecondPress :
    let s : Station := { base with panel.classifier := .window ⟨0, 100600⟩ true (some ⟨0, 100600⟩) }
    s.Awake ∧ s.panel.disregard = false ∧ s.power.opState ≠ .start ∧
      Stamp.before ⟨0, 100600⟩ ⟨0, 100600⟩ = false ∧ s.call.origin = none :=
  ⟨awake (by decide +kernel), by decide +kernel⟩
theorem test_meets_PressNotNoted :
    let s : Station := { base with panel.classifier := .window ⟨0, 99950⟩ false none }
    s.Awake ∧ Stamp.before ⟨0, 99950⟩ (Stamp.earlier s.now 50) = false ∧
      (after .buttonPressCounts s).panel.classifier = .secondHeld :=
  ⟨awake (by decide +kernel), by decide +kernel⟩
theorem test_meets_CallerEnds :
    let s : Station := { calling (origin .paused) with panel.hook := .offHook }
    s.Awake ∧ s.power.opState ≠ .start ∧ (origin .paused).phase ≠ .ending ∧ s.panel.hook = .offHook :=
  ⟨awake (by decide +kernel), by decide +kernel⟩
theorem test_meets_DoublePress :
    let s : Station :=
      { calling { origin .connected with mode := .handsFree } with
        panel.classifier := .window due false (some due) }
    s.Awake ∧ s.power.opState ≠ .start ∧ s.panel.disregard = false ∧ Stamp.before due due = false ∧
      (after .buttonPressCounts s).call.origin = none :=
  ⟨awake (by decide +kernel), by decide +kernel⟩
theorem test_meets_FailedPeriod :
    let s : Station := { base with panel.failed := some due, audio := [⟨.tone, .handset, .panel⟩] }
    s.Awake ∧ s.panel.failed = some due := ⟨awake (by decide +kernel), by decide +kernel⟩
theorem test_meets_FailedPeriod_onHook :
    let s : Station :=
      { calling { origin .ending with mode := .handsFree, carrier := .own .a } with
        panel := { clearedPanel with hook := .offHook, failed := some due, tone := .failed }
        audio := [⟨.tone, .speaker, .panel⟩] }
    s.Awake ∧ s.power.opState ≠ .start ∧ (after .onHook s).panel.failed = none ∧ (after .onHook s).audio = [] ∧
      (after .onHook s).call.origin = s.call.origin :=
  ⟨awake (by decide +kernel), by decide +kernel⟩
theorem test_meets_OffHookMoves :
    let s := calling { origin .connected with mode := .handsFree }
    s.Awake ∧ s.panel.hook = .onHook ∧ s.power.opState ≠ .start :=
  ⟨awake (by decide +kernel), by decide +kernel⟩
theorem test_meets_StartHolds :
    let s : Station :=
      { Station.reset with panel := { clearedPanel with classifier := .window due false none } }
    (s.Awake ∧ s.panel.hook = .unadopted ∧ s.power.opState = .start ∧ s.panel.request = none) ∧
      { s with panel := { s.panel with hook := .offHook, request := some .handset } }.Awake :=
  ⟨⟨awake (by decide +kernel), by decide +kernel⟩, awake (by decide +kernel)⟩
theorem test_meets_NextLender :
    let o : Origin := { origin .asking with carrier := .asked 4, phaseDeadline := some due }
    let s := withLenders [4, 8] (holding o)
    (s.Awake ∧ s.Hears 7 (rx 7 4 9 [1, 9, 0, 1, 1])) ∧ s.ownCircuit = some 0 ∧ s.line.total < 7 ∧
      s.ranking [4] = [8] ∧ o.activity = .asking ∧ o.activityDeadline = some due ∧ o.carrier.lender = some 4 :=
  ⟨⟨awake (by decide +kernel), hears (by decide +kernel)⟩, by decide +kernel⟩
theorem test_meets_NextLender_later :
    let w := { origin .waking with woken := 4, phaseDeadline := some due }
    let o := { origin .awaitingConnect with carrier := .lent 4 none, phaseDeadline := some due }
    let s := withLenders [4, 8] (holding o)
    s.Awake ∧ w.activity = .waking ∧ w.activityDeadline = some due ∧ o.activity = .awaitingConnect ∧
      o.activityDeadline = some due ∧
      (after .awaitingConnectExpiry s).holdsFrame (.clear own none .noAnswer) 4 = true :=
  ⟨awake (by decide +kernel), by decide +kernel⟩
theorem test_meets_Lend :
    let o : Origin := { origin .asking with carrier := .asked 4 }
    (holding o).Hears 6 (rx 6 4 9 [1, 9, 0, 1, 1, 0, 81, 65]) ∧ (holding o).isOwn own.origin = true ∧
      readLendCall [1, 9, 0, 1, 1, 0, 81, 65] = some ⟨own, some .a, 20801⟩ ∧ o.activity = .asking :=
  ⟨hears (by decide +kernel), by decide +kernel⟩
theorem test_meets_Connected :
    let o : Origin := { origin .awaitingConnect with carrier := .lent 4 none }
    let s : Station := { holding o with audio := [⟨.tone, .handset, .origin own⟩] }
    s.Hears 8 (rx 8 4 9 [9, 0, 1]) ∧ readConnected [9, 0, 1] = some own ∧ s.ownCircuit = some 0 ∧
      s.entry 0 = .heldOwn 9 own ⟨0, 50000⟩ ∧ s.keep.tally.frozen = false :=
  ⟨hears (by decide +kernel), by decide +kernel⟩
theorem test_meets_Borrow :
    let s := setBearer .a (up .available) base
    s.Hears 5 (rx 5 4 9 [1, 4, 0, 7, 6]) ∧ readBorrowVoice [1, 4, 0, 7, 6] = some ⟨peer, circuitNumber 5⟩ ∧
      s.carrier? peer = none ∧ circuitNumber 5 ≤ s.directory.effective ∧ s.recordable 5 4 peer = true ∧
      s.contesting 5 = false ∧ (s.bearer .a).state = .available ∧ s.config.lendMinimum ≤ (s.bearer .a).grade ∧
      (s.entry 5).own = false ∧
      (after (.borrowVoice (rx 5 4 9 [1, 4, 0, 7, 6])) (setView 5 (.heldByPeer 4 peer ⟨0, 7⟩ ⟨0, 90000⟩) s)).entry 5 =
        .heldByPeer 4 peer ⟨0, 7⟩ due :=
  ⟨hears (by decide +kernel), by decide +kernel⟩
theorem test_meets_BorrowContested :
    let r : Round := { round with circuit := 5, attempted := [5] }
    let s :=
      setBearer .a (up .checking)
        (setView 5 (.contested ⟨9, own, 7⟩ ⟨0, 99950⟩)
          { calling (origin .claiming) with circuits := { clearedCircuits with round := some r } })
    s.contesting 5 = true ∧ s.line.total < 6 ∧
      (after (.borrowVoice (rx 5 4 9 [1, 4, 0, 7, 6])) s).entry 5 = .heldByPeer 4 peer due due := by decide +kernel
theorem test_meets_BorrowDeclined :
    let f (n : Byte) : RxFrame := rx 5 4 9 [1, 4, 0, 7, n]
    let answer (n : Byte) (reason : DeclineReason) (s : Station) : Bool :=
      (after (.borrowVoice (f n)) s).holdsFrame (.declineCall peer reason) 4
    let k (n : Nat) : Carrier := ⟨⟨4, n⟩, 3, .b, .dialing, due, none⟩
    let five : Station := { base with directory.effective := 5 }
    base.Hears 5 (f 6) ∧ answer 6 .badCircuit five = true ∧
      answer 1 .circuitConflict (setView 0 (.heldByPeer 4 ⟨4, 8⟩ due due) base) = true ∧
      answer 1 .circuitConflict (setView 0 (.heldOwn 9 own due) base) = true ∧
      answer 1 .busy { base with call.carriers := [k 1, k 2] } = true ∧ answer 1 .noBearer base = true :=
  ⟨hears (by decide +kernel), by decide +kernel⟩
theorem test_meets_BorrowRepeated :
    let f (n : Byte) : RxFrame := rx 5 4 9 [1, 4, 0, 7, n]
    let s (p : CarrierPhase) : Station :=
      setBearer .a { up .dialing with inFlight := some ⟨.dial, none⟩, alloc := holds (.carrier peer) }
        { base with call.carriers := [⟨peer, 0, .a, p, ⟨0, 90000⟩, none⟩] }
    let declined (n : Byte) (p : CarrierPhase) : Bool :=
      (after (.borrowVoice (f n)) (s p)).holdsFrame (.declineCall peer .busy) 4
    (s .dialing).Hears 5 (f 1) ∧ ((s .dialing).carrier? peer).isSome = true ∧
      (after (.borrowVoice (f 1)) (s .dialing)).holdsFrame (.lendCall peer .a 20801) 4 = true ∧
      ((after (.borrowVoice (f 1)) (s .dialing)).call.carriers.map (·.lastPartner)) = [due] ∧
      declined 2 .dialing = true ∧ ((after (.borrowVoice (f 2)) (s .dialing)).call.carriers.map (·.phase)) = [.ending] ∧
      declined 1 .ending = true :=
  ⟨hears (by decide +kernel), by decide +kernel⟩
theorem test_meets_BorrowPreempts :
    let s := setBearer .b { up .sending with alloc := holds (.report ⟨9, 1⟩) } base
    let t := after (.borrowVoice (rx 5 4 9 [1, 4, 0, 7, 1])) s
    s.fitted .b = true ∧ s.config.lendMinimum ≤ (s.bearer .b).grade ∧
      ((t.bearer .b).state, (t.bearer .b).alloc) =
        (.ending, some { voiceAllocation (.carrier peer) true with keptDial := true }) ∧
      t.holdsFrame (.lendCall peer .b 20801) 4 = true := by decide +kernel
theorem test_meets_CallStatus :
    let k : Carrier := ⟨peer, 0, .a, .connected, due, some due⟩
    let s : Station := { base with call := { origin := some { origin .asking with schedule := some due }, carriers := [k] } }
    s.Awake ∧ s.line.total < 8 ∧ s.carrier? peer = some k ∧
      (after (.callStatusScheduleExpiry (.carrier peer)) s).holdsFrame (.callStatusCarrier peer 0) 4 = true :=
  ⟨awake (by decide +kernel), by decide +kernel⟩
theorem test_meets_SetupDeadline :
    (calling { origin .paused with setupDeadline := some due }).Awake ∧
      (calling { origin .paused with setupDeadline := some due }).reports.queue.length < 8 :=
  ⟨awake (by decide +kernel), by decide +kernel⟩
theorem test_meets_SetupDeadline_full :
    let s := reporting ((List.range 8).map fun n => newEntry (record ⟨9, n⟩) 0)
    let t : Station := { s with call := { origin := some { origin .paused with setupDeadline := some due }, carriers := [] } }
    (t.reports.queue.any fun e => e.waits) = true ∧
      ((after .setupDeadlineExpiry t).reports.queue.any fun e => e.record.kind == .callUnplaced) = true := by
  decide +kernel
theorem test_meets_PartnerSilence_other :
    let o := { origin .connected with carrier := .lent 4 none, lastPartner := some ⟨0, 85000⟩, recoveries := 2 }
    let w := { origin .awaitingConnect with carrier := .lent 4 none, lastPartner := some ⟨0, 85000⟩ }
    let s := withLenders [4, 8] (holding w)
    (holding o).Awake ∧ ((after .partnerSilence (holding o)).reports.queue.map (·.record.kind)) = [.callDropped] ∧
      w.activity = .awaitingConnect ∧ s.ranking [4] = [8] ∧ s.ownCircuit = some 0 ∧
      ((after .partnerSilence s).call.origin.map (·.carrier)) = some (.asked 8) :=
  ⟨awake (by decide +kernel), by decide +kernel⟩
theorem test_meets_PartnerSilence :
    let s := holding { origin .connected with carrier := .lent 4 none, lastPartner := some ⟨0, 85000⟩ }
    (s.Awake ∧ Stamp.later ⟨0, 85000⟩ 15000 = due) ∧
      { base with call.carriers := [⟨peer, 0, .a, .ringing, ⟨0, 85000⟩, none⟩] }.Awake :=
  ⟨⟨awake (by decide +kernel), by decide +kernel⟩, awake (by decide +kernel)⟩
theorem test_meets_PausesAndRecoveries :
    (calling { origin .paused with phaseDeadline := some due }).Awake ∧
      (calling { origin .recovering with phaseDeadline := some due, recoveries := 2 }).Awake ∧
      (origin .recovering).recoveries < 2 :=
  ⟨awake (by decide +kernel), awake (by decide +kernel), by decide +kernel⟩

end Sys2Proof.Tests
end

/-! PROOFS. The best claim of a contest ranks highest, whatever the order in which the claims arrive (O58). -/

namespace Sys2Proof.Machine

/-! ### The ranking of claims -/

/-- A claim ranks no higher than another: by its draw first, by its claimant's address second, by its tag not at all
(R19). -/
def Claim.RanksWithin (k best : Claim) : Prop :=
  k.draw < best.draw ∨ (k.draw = best.draw ∧ k.claimant ≤ best.claimant)

theorem Claim.ranksWithin_refl (k : Claim) : k.RanksWithin k :=
  .inr ⟨rfl, Nat.le_refl _⟩

theorem Claim.RanksWithin.trans {i j k : Claim} (hij : i.RanksWithin j) (hjk : j.RanksWithin k) : i.RanksWithin k := by
  unfold Claim.RanksWithin at *
  omega

theorem Claim.outranks_iff (a b : Claim) :
    a.outranks b = true ↔ b.draw < a.draw ∨ (a.draw = b.draw ∧ b.claimant < a.claimant) := by
  simp only [Claim.outranks, Bool.or_eq_true, Bool.and_eq_true, decide_eq_true_eq, beq_iff_eq]

theorem Claim.ranksWithin_of_outranks {a b : Claim} (h : a.outranks b = true) : b.RanksWithin a := by
  have := (a.outranks_iff b).mp h
  unfold Claim.RanksWithin
  omega

theorem Claim.ranksWithin_of_not_outranks {a b : Claim} (h : ¬ a.outranks b = true) : a.RanksWithin b := by
  rw [Claim.outranks_iff] at h
  unfold Claim.RanksWithin
  omega

/-! ### One claim joins a contest -/

theorem joinContest_of_free {c : Circuit} {s : Station} (k : Claim) (h : s.entry c = .free) :
    joinContest c k s = setEntry c (.contested k s.now) s := by
  simp only [joinContest, h]

theorem joinContest_of_contested {c : Circuit} {s : Station} {best : Claim} {start : Stamp} (k : Claim)
    (h : s.entry c = .contested best start) :
    joinContest c k s = if k.outranks best then setEntry c (.contested k start) s else s := by
  simp only [joinContest, h]

theorem joinContest_entry_of_free {c : Circuit} {s : Station} (k : Claim) (h : s.entry c = .free) :
    (joinContest c k s).entry c = .contested k s.now := by
  rw [joinContest_of_free k h, setEntry_entry]

/-- The best claim after a join is one of the two, and neither of them ranks above it; the contest's start stays. -/
theorem joinContest_entry_of_contested {c : Circuit} {s : Station} {best : Claim} {start : Stamp} (k : Claim)
    (h : s.entry c = .contested best start) :
    ∃ b, (joinContest c k s).entry c = .contested b start ∧ (b = best ∨ b = k) ∧
      best.RanksWithin b ∧ k.RanksWithin b := by
  rw [joinContest_of_contested k h]
  by_cases hk : k.outranks best = true
  · rw [if_pos hk]
    exact ⟨k, setEntry_entry _ _ _, .inr rfl, Claim.ranksWithin_of_outranks hk, k.ranksWithin_refl⟩
  · rw [if_neg hk]
    exact ⟨best, h, .inl rfl, best.ranksWithin_refl, Claim.ranksWithin_of_not_outranks hk⟩

/-! ### A list of claims joins a contest -/

/-- In an open contest that a list of claims joins in turn, the best claim ends as one of the list or the one that stood
before, none of them ranks above it, and the contest's start stays. -/
theorem foldl_joinContest_entry_of_contested (c : Circuit) (ks : List Claim) {s : Station} {best : Claim} {start : Stamp}
    (h : s.entry c = .contested best start) :
    ∃ b, b ∈ best :: ks ∧ (ks.foldl (fun t k => joinContest c k t) s).entry c = .contested b start ∧
      ∀ k, k ∈ best :: ks → k.RanksWithin b := by
  induction ks generalizing s best with
  | nil =>
    refine ⟨best, List.mem_cons_self, h, fun k hk => ?_⟩
    rw [List.mem_singleton.mp hk]
    exact best.ranksWithin_refl
  | cons k ks ih =>
    obtain ⟨one, hone, hwhich, hbest, hk⟩ := joinContest_entry_of_contested k h
    obtain ⟨b, hb, hentry, htop⟩ := ih hone
    have hone_le : one.RanksWithin b := htop one List.mem_cons_self
    refine ⟨b, ?_, hentry, fun j hj => ?_⟩
    · obtain rfl | hb := List.mem_cons.mp hb
      · obtain rfl | rfl := hwhich
        · exact List.mem_cons_self
        · exact List.mem_cons_of_mem _ List.mem_cons_self
      · exact List.mem_cons_of_mem _ (List.mem_cons_of_mem _ hb)
    · obtain rfl | hj := List.mem_cons.mp hj
      · exact hbest.trans hone_le
      · obtain rfl | hj := List.mem_cons.mp hj
        · exact hk.trans hone_le
        · exact htop j (List.mem_cons_of_mem _ hj)

/-- Settles O58, by induction on the claims that join after the first one has opened the contest. -/
theorem contestBestClaimRanksHighest : Obligations.ContestBestClaimRanksHighest := by
  intro c first more s hfree
  obtain ⟨best, hmem, hentry, htop⟩ :=
    foldl_joinContest_entry_of_contested c more (joinContest_entry_of_free first hfree)
  exact ⟨best, hmem, hentry, htop⟩

end Sys2Proof.Machine

/-! PROOFS. The fault lamp follows the NON_FATAL and the FATAL flag wherever it is lit at all: outside STANDBY, on the keep
rail, not held in reset (O59). -/

namespace Sys2Proof.Machine

/-! ### The lamp and the flags -/

/-- The lamp shows the flags: not in STANDBY, not without the keep rail, not while held in reset (R118, R165, R177). -/
structure Station.ShowsFlags (s : Station) : Prop where
  keepRail : s.power.keepRail = true
  notHeld : s.power.held = false
  awake : s.power.opState ≠ .standby

theorem faultLamp_of_standby {s : Station} (h : s.power.opState = .standby) : s.faultLamp = false := by
  simp [Station.faultLamp, h]

theorem Station.ShowsFlags.faultLamp_eq {s : Station} (h : s.ShowsFlags) :
    s.faultLamp = (s.keep.faults.flags.nonFatal || s.keep.faults.flags.fatal) := by
  obtain ⟨hrail, hheld, hstate⟩ := h
  simp [Station.faultLamp, hrail, hheld, hstate]

/-- A class added to the flags lights the lamp unless it is CORRECTABLE. -/
theorem ClassSet.add_nonFatal_or_fatal (flags : ClassSet) (c : FaultClass) :
    ((flags.add c).nonFatal || (flags.add c).fatal) =
      (flags.nonFatal || flags.fatal || c == .nonFatal || c == .fatal) := by
  cases c with
  | correctable =>
    have hn : (FaultClass.correctable == .nonFatal) = false := rfl
    have hf : (FaultClass.correctable == .fatal) = false := rfl
    simp [ClassSet.add, hn, hf]
  | nonFatal => simp [ClassSet.add]
  | fatal => simp [ClassSet.add]

theorem showsFlags_raise {s : Station} (h : s.ShowsFlags) (k : FaultKind) : (raise k s).ShowsFlags :=
  ⟨h.keepRail, h.notHeld, h.awake⟩

theorem showsFlags_clearClasses {s : Station} (h : s.ShowsFlags) (set : ClassSet) :
    (clearClasses set s).ShowsFlags :=
  ⟨h.keepRail, h.notHeld, h.awake⟩

/-- The lamp follows a raise (R118, R179). -/
theorem faultLamp_raise {s : Station} (h : s.ShowsFlags) (k : FaultKind) :
    (raise k s).faultLamp = (s.faultLamp || k.faultClass == .nonFatal || k.faultClass == .fatal) := by
  rw [(showsFlags_raise h k).faultLamp_eq, h.faultLamp_eq, raise_faults]
  exact ClassSet.add_nonFatal_or_fatal s.keep.faults.flags k.faultClass

/-! ### What the lamp hangs on, in `kept`

The NON_FATAL flag is not in `kept`, since a notice may raise it; the rest is. -/

/-- Operating state, keep rail, hold and FATAL flag. -/
def Kept.lampInputs (k : Kept) : OpState × Bool × Bool × Bool := (k.opState, k.keepRail, k.held, k.fatal)

theorem showsFlags_of_lampInputs {s : Station} {o : OpState} {fatal : Bool}
    (h : s.kept.lampInputs = (o, true, false, fatal)) (ho : o ≠ .standby) : s.ShowsFlags where
  keepRail := congrArg (·.2.1) h
  notHeld := congrArg (·.2.2.1) h
  awake := fun hs => ho ((congrArg (·.1) h).symm.trans hs)

theorem faultLamp_of_lampInputs {s : Station} {o : OpState} (h : s.kept.lampInputs = (o, true, false, true))
    (ho : o ≠ .standby) : s.faultLamp = true := by
  have hfatal : s.keep.faults.flags.fatal = true := congrArg (·.2.2.2) h
  rw [(showsFlags_of_lampInputs h ho).faultLamp_eq, hfatal, Bool.or_true]

theorem withBearer_lampInputs (k : Kept) (l : Letter) (r : Bearer) : (k.withBearer l r).lampInputs = k.lampInputs := by
  cases l <;> rfl

theorem startFitted_lampInputs (s : Station) : (startFitted s).kept.lampInputs = s.kept.lampInputs := by
  refine List.foldlRecOn (motive := fun t : Station => t.kept.lampInputs = s.kept.lampInputs) _ _ rfl ?_
  intro t ht l _
  split
  · rw [startBearer_kept_with, withBearer_lampInputs, ht]
  · exact ht

/-- The bearers started, the held call request and the pending events handed on: what ends each entry into an operating
state. -/
theorem handPending_handRequest_startFitted_lampInputs (s : Station) :
    (handPending (handRequest (startFitted s))).kept.lampInputs = s.kept.lampInputs := by
  rw [handPending_kept, handRequest_kept]
  exact startFitted_lampInputs s

/-! ### ACTIVE entered by a wake -/

theorem enterActive_lampInputs (s : Station) :
    (enterActive s).kept.lampInputs = (.active, s.kept.lampInputs.2) := by
  unfold enterActive
  rw [handPending_handRequest_startFitted_lampInputs, announceCause_kept, emit_kept]
  rfl

theorem deliverWake_lampInputs (c : WakeCause) (s : Station) :
    (deliverWake c s).kept.lampInputs = s.kept.lampInputs := by
  cases c with
  | offHook => exact (congrArg Kept.lampInputs (createOrigin_kept .handset _)).trans rfl
  | button => exact congrArg Kept.lampInputs (createOrigin_kept .handsFree s)
  | _ => rfl

/-- A wake cause taken in STANDBY with the main rail present leads to ACTIVE (R174). -/
theorem takeWake_lampInputs {s : Station} (c : WakeCause) (ho : s.power.opState = .standby)
    (hm : s.power.mainRail = true) : (takeWake c s).kept.lampInputs = (.active, s.kept.lampInputs.2) := by
  obtain ⟨hpower, hkeep, -, -⟩ := clearBlocks_power s
  rw [takeWake, if_neg (not_not_intro ho), if_neg (by simp [hm])]
  dsimp only
  rw [deliverWake_lampInputs, enterActive_lampInputs]
  simp [Kept.lampInputs, Station.kept, hpower, hkeep]

/-! ### ISOLATED entered by a FATAL fault -/

theorem enterIsolatedFromStart_lampInputs (s : Station) :
    (enterIsolatedFromStart s).kept.lampInputs = (.isolated, s.kept.lampInputs.2) := by
  unfold enterIsolatedFromStart
  rw [handPending_handRequest_startFitted_lampInputs, emit_kept]
  rfl

theorem isolateLine_kept (s : Station) : (isolateLine s).kept = s.kept := by
  unfold isolateLine
  dsimp only
  repeat' split
  all_goals rfl

theorem isolateCircuits_kept (s : Station) : (isolateCircuits s).kept = s.kept := by
  unfold isolateCircuits
  dsimp only
  split <;> rfl

theorem isolateOrigin_kept (s : Station) : (isolateOrigin s).kept = s.kept := by
  unfold isolateOrigin
  dsimp only
  repeat' split
  all_goals simp

theorem isolateCarriers_kept (s : Station) : (isolateCarriers s).kept = s.kept :=
  foldl_kept _ (fun t k => originCleared_kept k t) _ s

theorem isolateReports_kept (s : Station) : (isolateReports s).kept = s.kept :=
  foldl_kept (fun t (e : ReportEntry) => returnWaiting e.record.tag t) (fun t e => returnWaiting_kept e.record.tag t) _ s

/-- What an entry into ISOLATED from ACTIVE changes of `kept`. -/
theorem enterIsolated_kept (s : Station) :
    (enterIsolated s).kept =
      { s.kept with
        opState := .isolated, waitingEntry := false
        directory := { entries := [], effective := s.config.circuits } } := by
  unfold enterIsolated
  dsimp only
  rw [isolateReports_kept, isolateCarriers_kept, isolateOrigin_kept, emit_kept]
  generalize hw : withdrawDraw .reply _ = w
  have hwk : w.kept = { s.kept with opState := .isolated, waitingEntry := false } := by rw [← hw]; rfl
  have hu : (isolateCircuits (isolateLine w)).kept = w.kept := by rw [isolateCircuits_kept, isolateLine_kept]
  generalize isolateCircuits (isolateLine w) = u at hu ⊢
  have hconfig : u.config = s.config := congrArg (fun k : Kept => k.config.getD builtInSet) (hu.trans hwk)
  have hclear : (clearDirectory u).kept = { u.kept with directory := { entries := [], effective := u.config.circuits } } :=
    rfl
  rw [hclear, hu, hwk, hconfig]

/-- CONFIG_INVALID is FATAL: the station is ISOLATED with the FATAL flag set (R168). -/
theorem configInvalid_lampInputs (s : Station) :
    (configInvalid s).kept.lampInputs = (.isolated, s.power.keepRail, s.power.held, true) :=
  enterIsolatedFromStart_lampInputs _

/-- ADDRESS_CLASH is FATAL: the station is ISOLATED with the FATAL flag set (R145). -/
theorem addressClash_lampInputs (s : Station) :
    (addressClash s).kept.lampInputs = (.isolated, s.power.keepRail, s.power.held, true) := by
  rw [addressClash, enterIsolated_kept]
  rfl

/-! ### A warm reset -/

theorem warmReset_faults (s : Station) : (warmReset s).keep.faults = s.keep.faults := by
  obtain ⟨-, -, ⟨hkeep, -⟩, -, -⟩ := warmReset_shape s
  rw [hkeep]

theorem warmReset_showsFlags {s : Station} (h : s.power.keepRail = true) : (warmReset s).ShowsFlags := by
  obtain ⟨hpower, -⟩ := warmReset_shape s
  constructor <;> simp [hpower, Power.cleared, h]

/-- Settles O59: away from STANDBY, the hold and the loss of the keep rail the lamp is the flags, and each of the operations
named leads to such a station; the two that isolate it set FATAL. -/
theorem faultLampFollowsFlags : Obligations.FaultLampFollowsFlags := by
  refine ⟨rfl, fun s => ⟨faultLamp_of_standby, ?awake, ?warm, ?wake⟩⟩
  case awake =>
    intro hrail hheld hstate
    have h : s.ShowsFlags := ⟨hrail, hheld, hstate⟩
    have hinvalid := configInvalid_lampInputs s
    have hclash := addressClash_lampInputs s
    rw [hrail, hheld] at hinvalid hclash
    exact ⟨h.faultLamp_eq, faultLamp_raise h, fun set => (showsFlags_clearClasses h set).faultLamp_eq,
      faultLamp_of_lampInputs hinvalid (by decide), faultLamp_of_lampInputs hclash (by decide)⟩
  case warm =>
    intro hrail
    rw [(warmReset_showsFlags hrail).faultLamp_eq, warmReset_faults]
  case wake =>
    intro cause hrail hheld hstate hmain
    have hwake := takeWake_lampInputs cause hstate hmain
    have hrest : s.kept.lampInputs.2 = (true, false, s.keep.faults.flags.fatal) := by
      simp [Kept.lampInputs, Station.kept, hrail, hheld]
    rw [hrest] at hwake
    exact ⟨congrArg (·.1) hwake, (showsFlags_of_lampInputs hwake (by decide)).faultLamp_eq⟩

end Sys2Proof.Machine

/-! PROOFS. The block goes on with every command, takes them from the front of its queue, and an idle step lets the clock
count (O1, O2, O3, O10, O11). -/

namespace Sys2Proof.Machine

/-! ### Steps -/

/-- Settles O1, by the equation of `step` at a queue that is not empty. -/
theorem stepRunsFrontCommand : Obligations.StepRunsFrontCommand := fun _ _ => rfl

theorem step_of_pending_nil {s : State} (h : s.pending = []) : step s = .next (tick s) := by
  simp only [step, h]

theorem dueExpiry_freshOut (s : Station) : (freshOut s).dueExpiry = s.dueExpiry := rfl

theorem tick_due {s : State} {c : Instr} (h : s.station.dueExpiry = some c) :
    tick s = { pending := s.pending ++ [c], station := freshOut s.station } := by
  simp only [tick, dueExpiry_freshOut, h]

theorem tick_counts {s : State} (h : s.station.dueExpiry = none) (hr : s.station.power.keepRail = true) :
    tick s =
      { s with station := { freshOut s.station with keep.clock := Stamp.tick s.station.keep.clock } } := by
  simp only [tick, dueExpiry_freshOut, h, freshOut_power, hr, if_true]
  rfl

/-- Settles O2, by the two cases of an idle step: an expiry that is due, and none. -/
theorem idleStepQueuesExpiryOrCounts : Obligations.IdleStepQueuesExpiryOrCounts := by
  intro s hp
  rw [step_of_pending_nil hp]
  refine ⟨fun c hc => ?due, fun hn hr => ?counts⟩
  case due =>
    rw [tick_due hc, hp]
    rfl
  case counts =>
    rw [tick_counts hn hr, hp]
    rfl

/-! ### Commands -/

/-- Settles O3: every arm of `exec` takes an event, an expiry or a pin's change, but for CLOCK_WRAP, which writes the
clock itself; each of these goes on and hands the queue on as it was. -/
theorem everyCommandGoesOn : Obligations.EveryCommandGoesOn := by
  intro c s
  cases c <;> exact ⟨_, rfl, rfl⟩

/-- Settles O10, by the meaning of CLOCK_WRAP on the keep rail. -/
theorem clockWrapsIntoEpoch : Obligations.ClockWrapsIntoEpoch := by
  intro s hr
  have hrail : (freshOut s.station).power.keepRail = true := hr
  simp only [exec, execClockWrap, hrail, if_true]
  rfl

/-! ### The state right after reset -/

theorem reset_configFits : State.reset.station.ConfigFits := by
  refine ⟨fun h => ?_, fun h => ?_⟩ <;> simp [State.reset, Station.reset] at h

theorem reset_directoryFits : State.reset.station.DirectoryFits :=
  ⟨Nat.zero_le _, List.Pairwise.nil, fun _ he => absurd he List.not_mem_nil, rfl⟩

theorem reset_capacitiesFit : State.reset.station.CapacitiesFit := by
  refine ⟨by decide, by decide, by decide, by decide, by decide, by decide, fun l => ?_⟩
  cases l <;> decide

/-- Settles O11, one invariant after the other. -/
theorem resetMeetsInvariants : Obligations.ResetMeetsInvariants :=
  ⟨rfl, reset_configFits, reset_directoryFits, reset_capacitiesFit⟩

end Sys2Proof.Machine

/-! PROOFS. Every step keeps the configuration fitting the operating state, and the directory in order (O12, O13). Both
hang on `Station.picture` alone, so that each named operation of `Changes` is judged by what it makes of that. -/

namespace Sys2Proof.Machine

/-! ### What the invariants hang on -/

/-- `Station.ConfigFits`, as a predicate of the configuration copy and the operating state. -/
def ConfigFitsOf (config : Option Configuration) (op : OpState) : Prop :=
  (op = .active ∨ op = .standby → ∃ c, config = some c ∧ c.address.isSome = true ∧ c.segment.isSome = true) ∧
    (op = .isolated → config.isSome = true)

theorem configFits_iff (s : Station) : s.ConfigFits ↔ ConfigFitsOf s.keep.config s.power.opState := Iff.rfl

theorem configFitsOf_start (config : Option Configuration) : ConfigFitsOf config .start := by
  simp [ConfigFitsOf]

theorem configFitsOf_isolated {config : Option Configuration} (h : config.isSome = true) :
    ConfigFitsOf config .isolated := by
  simp [ConfigFitsOf, h]

theorem configFitsOf_addressed {c : Configuration} (ha : c.address.isSome = true) (hs : c.segment.isSome = true)
    (op : OpState) : ConfigFitsOf (some c) op :=
  ⟨fun _ => ⟨c, rfl, ha, hs⟩, fun _ => rfl⟩

theorem configFitsOf_of_picture {s : Station} {c : Option Configuration} {op : OpState} {d : Directory}
    (h : s.picture = (c, op, d)) (hfit : ConfigFitsOf c op) : s.ConfigFits := by
  have hc : s.keep.config = c := congrArg (·.1) h
  have ho : s.power.opState = op := congrArg (·.2.1) h
  rw [configFits_iff, hc, ho]
  exact hfit

/-- A valid record has an address and a segment code (R166). -/
theorem readConfiguration_addressed {bytes : List Byte} {c : Configuration} (h : readConfiguration bytes = some c) :
    c.address.isSome = true ∧ c.segment.isSome = true := by
  unfold readConfiguration at h
  split at h
  · cases h
    exact ⟨rfl, rfl⟩
  · cases h

/-! ### The configuration fits the operating state -/

theorem configFits_pictured : Pictured Station.ConfigFits := by
  refine ⟨fun s t h hs => ?_, fun s t h hs => ?_⟩
  · exact configFitsOf_of_picture h hs
  · obtain ⟨ho, h⟩ | ⟨ho, h⟩ := h
    all_goals
      obtain ⟨c, hc, ha, hg⟩ := hs.1 (by simp [ho])
      refine configFitsOf_of_picture h ?_
      rw [hc]
      exact configFitsOf_addressed ha hg _

theorem configFits_changes : Changes Station.ConfigFits where
  pictured := configFits_pictured
  refresh a s hs := by
    obtain ⟨hkeep, hpower⟩ := refreshPeer_config a s
    rw [configFits_iff, hkeep, hpower]
    exact hs
  file a b s hs := by
    obtain ⟨hconfig, hop⟩ := fileAnnounce_config a b s
    rw [configFits_iff, hconfig, hop]
    exact hs
  age a s hs := configFitsOf_of_picture (agePeer_picture a s) hs
  judge bytes s _ := by
    obtain ⟨c, hc, h⟩ | h := judgeRecord_cases bytes s
    · obtain ⟨ha, hg⟩ := readConfiguration_addressed hc
      exact configFitsOf_of_picture h (configFitsOf_addressed ha hg _)
    · exact configFitsOf_of_picture h (configFitsOf_isolated rfl)
  invalid s _ := configFitsOf_of_picture (enterIsolatedFromStart_picture _) (configFitsOf_isolated rfl)
  isolate s ho hs := by
    obtain ⟨c, hc, -⟩ := hs.1 (.inl ho)
    exact configFitsOf_of_picture (enterIsolated_picture s) (configFitsOf_isolated (by simp [hc]))
  reload c s hread _ _ := by
    obtain ⟨bytes, hc⟩ := hread
    obtain ⟨ha, hg⟩ := readConfiguration_addressed hc
    obtain ⟨d, h, -⟩ := applyReload_picture c s
    exact configFitsOf_of_picture h (configFitsOf_addressed ha hg _)
  warm s _ := configFitsOf_of_picture (warmReset_picture s) (configFitsOf_start _)
  hold s _ := configFitsOf_of_picture (holdReset_picture s) (configFitsOf_start _)
  powerOn s := configFitsOf_of_picture (powerOnReset_picture s) (configFitsOf_start _)
  keepLost s := configFitsOf_of_picture (keepLost_picture s) (configFitsOf_start _)

/-- Settles O12: each operation that changes configuration or operating state keeps the fit, so every step does. -/
theorem stepsKeepConfigurationFitting : Obligations.StepsKeepConfigurationFitting :=
  fun _ _ hstep hfits => step_changes configFits_changes hfits hstep

/-! ### The directory is in order -/

/-- The smallest of a configured count and the entries' counts (R7). -/
def smallestCount (configured : Nat) (entries : List PeerEntry) : Nat :=
  entries.foldl (fun n e => min n e.circuits) configured

/-- Entries of peers alone, by the configuration's own address, with their values in range (R1, R3). -/
def EntriesFit (address : Option Nat) (entries : List PeerEntry) : Prop :=
  entries.length ≤ 31 ∧ List.Pairwise (fun e f => e.address < f.address) entries ∧
    ∀ e ∈ entries, e.fits = true ∧ (address == some e.address) = false

/-- `Station.DirectoryFits`, as a predicate of the configuration copy and the directory. -/
def DirectoryFitsOf (config : Option Configuration) (d : Directory) : Prop :=
  EntriesFit (config.getD builtInSet).address d.entries ∧
    d.effective = smallestCount (config.getD builtInSet).circuits d.entries

theorem directoryFits_iff (s : Station) : s.DirectoryFits ↔ DirectoryFitsOf s.keep.config s.directory := by
  constructor
  · rintro ⟨hlen, hsorted, hentries, hcount⟩
    exact ⟨⟨hlen, hsorted, hentries⟩, hcount⟩
  · rintro ⟨⟨hlen, hsorted, hentries⟩, hcount⟩
    exact ⟨hlen, hsorted, hentries, hcount⟩

theorem directoryFits_of_picture {s : Station} {c : Option Configuration} {op : OpState} {d : Directory}
    (h : s.picture = (c, op, d)) (hfit : DirectoryFitsOf c d) : s.DirectoryFits := by
  have hc : s.keep.config = c := congrArg (·.1) h
  have hd : s.directory = d := congrArg (·.2.2) h
  rw [directoryFits_iff, hc, hd]
  exact hfit

theorem entriesFit_nil (address : Option Nat) : EntriesFit address [] :=
  ⟨Nat.zero_le _, List.Pairwise.nil, fun _ he => absurd he List.not_mem_nil⟩

theorem directoryFitsOf_empty (config : Option Configuration) :
    DirectoryFitsOf config ⟨[], (config.getD builtInSet).circuits⟩ :=
  ⟨entriesFit_nil _, rfl⟩

theorem EntriesFit.filter {address : Option Nat} {entries : List PeerEntry} (h : EntriesFit address entries)
    (p : PeerEntry → Bool) : EntriesFit address (entries.filter p) := by
  obtain ⟨hlen, hsorted, hentries⟩ := h
  refine ⟨Nat.le_trans (List.length_filter_le _ _) hlen, hsorted.filter _, fun e he => ?_⟩
  exact hentries e (List.mem_filter.mp he).1

/-- A changed own address takes the entry of that address out (R6). -/
theorem EntriesFit.readdressed {old new : Option Nat} {entries : List PeerEntry} (h : EntriesFit old entries) :
    EntriesFit new (entries.filter fun e => some e.address != new) := by
  obtain ⟨hlen, hsorted, hentries⟩ := h.filter fun e => some e.address != new
  refine ⟨hlen, hsorted, fun e he => ⟨(hentries e he).1, ?_⟩⟩
  have hne := (List.mem_filter.mp he).2
  rw [bne_iff_ne] at hne
  exact beq_false_of_ne hne.symm

/-- A refresh of one entry's last-heard stamp (R4). -/
def refreshedEntry (a : Nat) (now : Stamp) (e : PeerEntry) : PeerEntry :=
  if e.address = a then { e with lastHeard := now } else e

theorem refreshedEntry_values (a : Nat) (now : Stamp) (e : PeerEntry) :
    (refreshedEntry a now e).address = e.address ∧ (refreshedEntry a now e).fits = e.fits ∧
      (refreshedEntry a now e).circuits = e.circuits := by
  unfold refreshedEntry
  split <;> exact ⟨rfl, rfl, rfl⟩

theorem refreshPeer_directory (a : Nat) (s : Station) :
    (refreshPeer a s).directory = s.directory ∨
      (refreshPeer a s).directory = { s.directory with entries := s.directory.entries.map (refreshedEntry a s.now) } := by
  unfold refreshPeer
  split
  · exact .inr rfl
  · exact .inl rfl

theorem EntriesFit.refreshed {address : Option Nat} {entries : List PeerEntry} (h : EntriesFit address entries)
    (a : Nat) (now : Stamp) : EntriesFit address (entries.map (refreshedEntry a now)) := by
  obtain ⟨hlen, hsorted, hentries⟩ := h
  refine ⟨by rw [List.length_map]; exact hlen, ?_, fun e he => ?_⟩
  · rw [List.pairwise_map]
    exact hsorted.imp fun {e f} hlt => by
      rw [(refreshedEntry_values a now e).1, (refreshedEntry_values a now f).1]
      exact hlt
  · obtain ⟨f, hf, rfl⟩ := List.mem_map.mp he
    obtain ⟨haddress, hfits, -⟩ := refreshedEntry_values a now f
    rw [haddress, hfits]
    exact hentries f hf

theorem smallestCount_refreshed (a : Nat) (now : Stamp) (entries : List PeerEntry) (n : Nat) :
    smallestCount n (entries.map (refreshedEntry a now)) = smallestCount n entries := by
  unfold smallestCount
  rw [List.foldl_map]
  simp only [(refreshedEntry_values a now _).2.2]

theorem refreshPeer_directoryFits {s : Station} (a : Nat) (hs : s.DirectoryFits) : (refreshPeer a s).DirectoryFits := by
  rw [directoryFits_iff] at hs ⊢
  obtain ⟨hentries, hcount⟩ := hs
  rw [(refreshPeer_config a s).1]
  obtain h | h := refreshPeer_directory a s
  · rw [h]
    exact ⟨hentries, hcount⟩
  · rw [h]
    exact ⟨hentries.refreshed a s.now, hcount.trans (smallestCount_refreshed _ _ _ _).symm⟩

/-- What an ANNOUNCE that may be filed holds fits an entry (R3). -/
theorem announceEntry_fits {b : AnnounceBody} {source : Nat} {s : Station} (hb : b.fileable = true)
    (hp : s.isPeer source = true) : (b.entry source s.now).fits = true ∧ s.isOwn source = false := by
  simp only [AnnounceBody.fileable, Bool.and_eq_true, decide_eq_true_eq] at hb
  simp only [Station.isPeer, Bool.and_eq_true, decide_eq_true_eq, Bool.not_eq_true'] at hp
  have hsummaries : (b.summaries.filterMap fun m => m.summary).length ≤ b.summaries.length :=
    List.length_filterMap_le _ _
  refine ⟨?_, hp.2⟩
  simp only [PeerEntry.fits, Bool.and_eq_true, decide_eq_true_eq]
  simp only [AnnounceBody.entry]
  omega

theorem EntriesFit.filed {address : Option Nat} {entries : List PeerEntry} (h : EntriesFit address entries)
    {e : PeerEntry} (he : e.fits = true) (ho : (address == some e.address) = false) :
    EntriesFit address (fileEntry e entries) := by
  obtain ⟨hlen, hsorted, hentries⟩ := h
  obtain ⟨hlen', hsorted', hmem⟩ := fileEntry_keeps (e := e) hsorted hlen
  refine ⟨hlen', hsorted', fun f hf => ?_⟩
  obtain rfl | hf := hmem f hf
  · exact ⟨he, ho⟩
  · exact hentries f hf

theorem fileAnnounce_directoryFits {s : Station} (a : Nat) (b : AnnounceBody) (hs : s.DirectoryFits) :
    (fileAnnounce a b s).DirectoryFits := by
  unfold fileAnnounce
  split
  · exact hs
  · next hp =>
    split
    · next hb =>
      obtain ⟨he, ho⟩ := announceEntry_fits hb (by simpa using hp)
      have hentries := ((directoryFits_iff s).mp hs).1
      exact directoryFits_of_picture (recount_picture _ _) ⟨hentries.filed he ho, rfl⟩
    · exact refreshPeer_directoryFits a hs

theorem directoryFits_pictured : Pictured Station.DirectoryFits := by
  refine ⟨fun s t h hs => directoryFits_of_picture h ((directoryFits_iff s).mp hs), fun s t h _ => ?_⟩
  obtain ⟨-, h⟩ | ⟨-, h⟩ := h
  all_goals exact directoryFits_of_picture h (directoryFitsOf_empty _)

theorem applyReload_directoryFits {s : Station} (c : Configuration) (hs : s.DirectoryFits) :
    (applyReload c s).DirectoryFits := by
  obtain ⟨d, h, hd⟩ := applyReload_picture c s
  refine directoryFits_of_picture h ?_
  have hentries : EntriesFit s.config.address s.directory.entries := ((directoryFits_iff s).mp hs).1
  obtain rfl | ⟨es, rfl, ⟨hsame, rfl⟩ | rfl⟩ := hd
  · exact directoryFitsOf_empty (some c)
  · exact ⟨hsame ▸ hentries, rfl⟩
  · exact ⟨hentries.readdressed, rfl⟩

theorem directoryFits_changes : Changes Station.DirectoryFits where
  pictured := directoryFits_pictured
  refresh a _ hs := refreshPeer_directoryFits a hs
  file a b _ hs := fileAnnounce_directoryFits a b hs
  age a s hs := by
    have hentries := ((directoryFits_iff s).mp hs).1
    exact directoryFits_of_picture (agePeer_picture a s) ⟨hentries.filter _, rfl⟩
  judge bytes s _ := by
    obtain ⟨c, -, h⟩ | h := judgeRecord_cases bytes s
    · exact directoryFits_of_picture h (directoryFitsOf_empty (some c))
    · exact directoryFits_of_picture h (directoryFitsOf_empty (some builtInSet))
  invalid s _ := directoryFits_of_picture (enterIsolatedFromStart_picture _) (directoryFitsOf_empty _)
  isolate s _ _ := directoryFits_of_picture (enterIsolated_picture s) (directoryFitsOf_empty _)
  reload c _ _ _ hs := applyReload_directoryFits c hs
  warm s _ := directoryFits_of_picture (warmReset_picture s) (directoryFitsOf_empty _)
  hold s _ := directoryFits_of_picture (holdReset_picture s) (directoryFitsOf_empty _)
  powerOn s := directoryFits_of_picture (powerOnReset_picture s) (directoryFitsOf_empty none)
  keepLost s := directoryFits_of_picture (keepLost_picture s) (directoryFitsOf_empty none)

/-- Settles O13: each operation that writes the directory leaves it in order, so every step does. -/
theorem stepsKeepDirectoryInOrder : Obligations.StepsKeepDirectoryInOrder :=
  fun _ _ hstep hfits => step_changes directoryFits_changes hfits hstep

end Sys2Proof.Machine

/-! PROOFS. Every step keeps the queues and lists within their capacities (O14): one lemma for each operation of the blocks,
in the order of their definitions. -/

namespace Sys2Proof.Machine

/-! ### The capacities, block by block -/

/-- A bearer record's lists within their capacities (R38, R42). -/
def Bearer.ListsFit (r : Bearer) : Prop := r.networks.length ≤ 6 ∧ r.barred.length ≤ 4

/-- A station none of whose lists has grown fits where the other one did. -/
theorem Station.CapacitiesFit.of_le {s t : Station} (h : s.CapacitiesFit)
    (line : t.line.total ≤ s.line.total := by exact Nat.le_refl _)
    (pool : t.draw.pool.length ≤ s.draw.pool.length := by exact Nat.le_refl _)
    (carriers : t.call.carriers.length ≤ s.call.carriers.length := by exact Nat.le_refl _)
    (audio : t.audio.length ≤ s.audio.length := by exact Nat.le_refl _)
    (queue : t.reports.queue.length ≤ s.reports.queue.length := by exact Nat.le_refl _)
    (relay : t.reports.relay.length ≤ s.reports.relay.length := by exact Nat.le_refl _)
    (bearers : ∀ l, (s.bearer l).ListsFit → (t.bearer l).ListsFit := by exact fun _ hr => hr) :
    t.CapacitiesFit := by
  obtain ⟨hline, hpool, hcarriers, haudio, hqueue, hrelay, hbearers⟩ := h
  exact ⟨Nat.le_trans line hline, Nat.le_trans pool hpool, Nat.le_trans carriers hcarriers, Nat.le_trans audio haudio,
    Nat.le_trans queue hqueue, Nat.le_trans relay hrelay, fun l => bearers l (hbearers l)⟩

theorem Station.CapacitiesFit.lists {s : Station} (h : s.CapacitiesFit) (l : Letter) : (s.bearer l).ListsFit :=
  h.2.2.2.2.2.2 l

section
variable {s : Station} {keep : Keep} {power : Power} {directory : Directory} {announcing : Announcing}
  {circuits : Circuits} {panel : Panel} {cabinet : Cabinet} {free : Nat} {out : List Output} {work : List Task}

/-! What holds no list with a capacity may change: whole blocks, and the rest of a block beside its list. -/

@[simp] theorem fits_others :
    Station.CapacitiesFit
        { s with
          keep := keep, power := power, directory := directory, announcing := announcing, circuits := circuits
          panel := panel, cabinet := cabinet, free := free, out := out, work := work } ↔
      s.CapacitiesFit := Iff.rfl

@[simp] theorem fits_assembly {assembly : Assembly} {gap : Bool} :
    Station.CapacitiesFit
        { s with
          keep := keep, power := power, directory := directory, announcing := announcing, circuits := circuits
          panel := panel, cabinet := cabinet, free := free, out := out, work := work
          line := { s.line with assembly := assembly, gap := gap } } ↔
      s.CapacitiesFit := Iff.rfl

@[simp] theorem fits_draw {mode : DrawMode} {waiting : List Consumer} {fallback : Option Fallback} {bit failed : Bool} {run bits ones : Nat}
    {group : List Bool} :
    Station.CapacitiesFit
        { s with
          keep := keep, power := power, directory := directory, announcing := announcing, circuits := circuits
          panel := panel, cabinet := cabinet, free := free, out := out, work := work
          draw :=
            { s.draw with
              mode := mode, waiting := waiting, fallback := fallback, lastBit := bit, runLength := run
              windowBits := bits, ones := ones, windowFailed := failed, group := group } } ↔
      s.CapacitiesFit := Iff.rfl

@[simp] theorem fits_origin {origin : Option Origin} :
    Station.CapacitiesFit
        { s with
          keep := keep, power := power, directory := directory, announcing := announcing, circuits := circuits
          panel := panel, cabinet := cabinet, free := free, out := out, work := work
          call := { s.call with origin := origin } } ↔
      s.CapacitiesFit := Iff.rfl

@[simp] theorem fits_stall {stall : Timer} :
    Station.CapacitiesFit
        { s with
          keep := keep, power := power, directory := directory, announcing := announcing, circuits := circuits
          panel := panel, cabinet := cabinet, free := free, out := out, work := work
          reports := { s.reports with stall := stall } } ↔
      s.CapacitiesFit := Iff.rfl

@[simp] theorem fits_claims {waiting : List WaitingClaim} :
    Station.CapacitiesFit
        { s with
          keep := keep, power := power, directory := directory, announcing := announcing, circuits := circuits
          panel := panel, cabinet := cabinet, free := free, out := out, work := work
          bearers := { s.bearers with waiting := waiting } } ↔
      s.CapacitiesFit := Iff.rfl

end


@[simp] theorem catchUp_fits (deadline : Stamp) {s : Station} (h : s.CapacitiesFit) :
    (catchUp deadline s).CapacitiesFit := by
  unfold catchUp
  split <;> simp [h]

@[simp] theorem emit_fits (o : Output) {s : Station} (h : s.CapacitiesFit) :
    (emit o s).CapacitiesFit := h

@[simp] theorem post_fits (t : Task) {s : Station} (h : s.CapacitiesFit) :
    (post t s).CapacitiesFit := h

@[simp] theorem postFirst_fits (t : Task) {s : Station} (h : s.CapacitiesFit) :
    (postFirst t s).CapacitiesFit := h

@[simp] theorem countUp_fits (n : BitVec 32) {s : Station} (h : s.CapacitiesFit) : (countUp n s).2.CapacitiesFit := by
  unfold countUp
  split <;> exact h

@[simp] theorem countDropped_fits {s : Station} (h : s.CapacitiesFit) : (countDropped s).CapacitiesFit :=
  countUp_fits s.keep.dropped h

@[simp] theorem countDelivered_fits {s : Station} (h : s.CapacitiesFit) : (countDelivered s).CapacitiesFit :=
  countUp_fits s.keep.delivered h

@[simp] theorem tallyUp_fits (change : Tally → Tally) {s : Station} (h : s.CapacitiesFit) :
    (tallyUp change s).CapacitiesFit := by
  unfold tallyUp
  split <;> simp [h]

@[simp] theorem tallyLent_fits {s : Station} (h : s.CapacitiesFit) : (tallyLent s).CapacitiesFit := by
  unfold tallyLent
  split
  · exact h
  · exact countUp_fits s.keep.tally.lent h

/-- A record may be replaced by one whose lists are no longer than the bounds. -/
theorem setBearer_fits_of {l : Letter} {r : Bearer} {s : Station} (h : s.CapacitiesFit) (hr : r.ListsFit) :
    (setBearer l r s).CapacitiesFit := by
  refine h.of_le ?line ?pool ?carriers ?audio ?queue ?relay fun m hm => ?bearers
  case bearers =>
    rw [setBearer_bearer_any]
    split
    · exact hr
    · exact hm
  all_goals simp

@[simp] theorem setBearer_fits {l : Letter} {r : Bearer} {s : Station} (h : s.CapacitiesFit)
    (hn : r.networks = (s.bearer l).networks) (hb : r.barred = (s.bearer l).barred) :
    (setBearer l r s).CapacitiesFit := by
  have hr := h.lists l
  unfold Bearer.ListsFit at hr
  rw [← hn, ← hb] at hr
  exact setBearer_fits_of h hr

@[simp] theorem setView_fits (c : Circuit) (e : CircuitEntry) {s : Station} (h : s.CapacitiesFit) :
    (setView c e s).CapacitiesFit := h

@[simp] theorem updOrigin_fits (f : Origin → Origin) {s : Station} (h : s.CapacitiesFit) :
    (updOrigin f s).CapacitiesFit := h

@[simp] theorem updCarrier_fits (t : Tag) (f : Carrier → Carrier) {s : Station} (h : s.CapacitiesFit) :
    (updCarrier t f s).CapacitiesFit :=
  h.of_le (carriers := Nat.le_of_eq (List.length_map _))

@[simp] theorem raise_fits (k : FaultKind) {s : Station} (h : s.CapacitiesFit) :
    (raise k s).CapacitiesFit := h

@[simp] theorem clearClasses_fits (set : ClassSet) {s : Station} (h : s.CapacitiesFit) :
    (clearClasses set s).CapacitiesFit := h

/-- A request takes a draw out of the pool at most (R161). -/
@[simp] theorem requestDraw_fits (c : Consumer) {s : Station} (h : s.CapacitiesFit) :
    (requestDraw c s).2.CapacitiesFit := by
  unfold requestDraw
  split
  case h_3 =>
    split
    · exact h
    · next hpool => exact h.of_le (pool := by rw [hpool]; exact Nat.le_succ _)
  case h_4 => split <;> exact h
  all_goals exact h

@[simp] theorem withdrawDraw_fits (c : Consumer) {s : Station} (h : s.CapacitiesFit) :
    (withdrawDraw c s).CapacitiesFit := h

@[simp] theorem enterLatched_fits {s : Station} (h : s.CapacitiesFit) : (enterLatched s).2.CapacitiesFit :=
  h.of_le (pool := Nat.zero_le _)

@[simp] theorem enterHealthy_fits  {s : Station} (h : s.CapacitiesFit) :
    (enterHealthy s).CapacitiesFit := h

/-- A draw joins the pool where it holds fewer than eight (R160). -/
@[simp] theorem conditionedDraw_fits (draw : Nat) {s : Station} (h : s.CapacitiesFit) :
    (conditionedDraw draw s).2.CapacitiesFit := by
  unfold conditionedDraw
  split
  · exact h
  · dsimp only
    split
    · next hlt =>
      obtain ⟨hline, -, hrest⟩ := h
      exact ⟨hline, by rw [List.length_append]; exact hlt, hrest⟩
    · exact h

theorem total_without_service (queue : List TxFrame) (l : Line) :
    Line.total { l with queue := queue, service := none } = queue.length := rfl

theorem queue_le_total (l : Line) : l.queue.length ≤ l.total := Nat.le_add_right _ _

theorem total_of_service {l : Line} {v : Service} (h : l.service = some v) : l.total = l.queue.length + 1 := by
  simp [Line.total, h]

@[simp] theorem leaveService_fits {s : Station} (h : s.CapacitiesFit) : (leaveService s).CapacitiesFit :=
  h.of_le (line := queue_le_total s.line)


@[simp] theorem displace_fits {s : Station} (h : s.CapacitiesFit) : (displace s).CapacitiesFit := by
  have htotal := Nat.le_of_eq (displace_total s)
  unfold displace at htotal ⊢
  split
  · next hv =>
    simp only [hv] at htotal
    split
    · next hd =>
      rw [if_pos hd] at htotal
      exact h.of_le (line := htotal)
    · exact h
  · exact h

/-- Of what `core` leaves out, the transmit queue and the pool alone have a capacity. -/
theorem Station.CapacitiesFit.of_core {s t : Station} (h : s.CapacitiesFit) (hcore : t.core = s.core)
    (line : t.line.total ≤ 8) (pool : t.draw.pool.length ≤ 8) : t.CapacitiesFit := by
  obtain ⟨-, -, hcarriers, haudio, hqueue, hrelay, hbearers⟩ := h
  have hcall : t.call = s.call := core_call_eq hcore
  have hbridges : t.audio = s.audio := core_audio_eq hcore
  have hreports : t.reports.queue = s.reports.queue := congrArg StationCore.queue hcore
  have hrelayed : t.reports.relay = s.reports.relay := congrArg StationCore.relay hcore
  have hrecords (l : Letter) : t.bearer l = s.bearer l := by cases l <;> simp [Station.bearer, core_bearers_eq hcore]
  exact ⟨line, pool, hcall ▸ hcarriers, hbridges ▸ haudio, hreports ▸ hqueue, hrelayed ▸ hrelay,
    fun l => hrecords l ▸ hbearers l⟩

theorem displace_pool (s : Station) : (displace s).draw.pool = s.draw.pool := by
  unfold displace
  split
  · split <;> rfl
  · rfl

/-- A frame may join a queue that has room (R146). -/
theorem addFrame_fits (f : TxFrame) {s : Station} (h : s.CapacitiesFit) (hroom : s.line.total < 8) :
    (addFrame f s).CapacitiesFit := by
  obtain ⟨-, hpool, -⟩ := id h
  refine h.of_core (addFrame_core f s) ?_ ?_
  · rw [addFrame_total]
    exact hroom
  · unfold addFrame
    dsimp only
    split
    · rw [displace_pool]
      exact hpool
    · exact hpool

/-- The frame that makes room leaves one fewer behind, and nothing else with a capacity changes (R147). -/
theorem takeRoutine_fits {s t : Station} {g : TxFrame} (h : s.CapacitiesFit) (e : takeRoutine s = some (g, t)) :
    t.CapacitiesFit ∧ t.line.total < 8 := by
  obtain ⟨htotal, hpool, -⟩ := id h
  have hcore := takeRoutine_core e
  suffices t.line.total < 8 ∧ t.draw.pool = s.draw.pool from
    ⟨h.of_core hcore (Nat.le_of_lt this.1) (this.2 ▸ hpool), this.1⟩
  have fromQueue : ∀ u : Station,
      (match s.line.queue.find? fun g => !g.body.urgent && !g.begun with
        | some g => some (g, { s with line.queue := s.line.queue.eraseP fun h => !h.body.urgent && !h.begun })
        | none => none) = some (g, u) → u.line.total < 8 ∧ u.draw.pool = s.draw.pool := by
    intro u hu
    split at hu
    · next f hf =>
      cases hu
      have hmem := List.mem_of_find?_eq_some hf
      have hlen := List.length_eraseP_of_mem hmem (List.find?_some hf)
      have hpos := List.length_pos_of_mem hmem
      have hold : s.line.queue.length + _ ≤ 8 := htotal
      refine ⟨?_, rfl⟩
      simp only [Line.total, hlen]
      omega
    · cases hu
  unfold takeRoutine at e
  dsimp only at e
  split at e
  · next v hv =>
    split at e
    · cases e
      refine ⟨?_, rfl⟩
      rw [total_of_service hv] at htotal
      exact htotal
    · exact fromQueue t e
  · exact fromQueue t e

@[simp] theorem reportDrop_fits (body : TxBody) {s : Station} (h : s.CapacitiesFit) :
    (reportDrop body s).CapacitiesFit := by
  unfold reportDrop
  split <;> exact h

/-- A frame handed over joins where there is room, makes room for itself, or is dropped (R146, R147). -/
@[simp] theorem handOver_fits (body : TxBody) (dest : Nat) {s : Station} (h : s.CapacitiesFit) :
    (handOver body dest s).CapacitiesFit := by
  unfold handOver
  dsimp only
  split
  · exact h
  · split
    · next hroom => exact addFrame_fits _ h hroom
    · split
      · split
        · next hg =>
          obtain ⟨ht, hroom⟩ := takeRoutine_fits h hg
          exact addFrame_fits _ (reportDrop_fits _ ht) (by rw [reportDrop_line]; exact hroom)
        · exact reportDrop_fits _ h
      · exact reportDrop_fits _ h

@[simp] theorem removeUnbegun_fits (p : TxBody → Bool) {s : Station} (h : s.CapacitiesFit) :
    (removeUnbegun p s).CapacitiesFit := by
  have hfiltered : Station.CapacitiesFit { s with line.queue := s.line.queue.filter fun g => g.begun || !p g.body } :=
    h.of_le (line := Nat.add_le_add_right (List.length_filter_le _ _) _)
  unfold removeUnbegun
  dsimp only
  split
  · split
    · exact leaveService_fits hfiltered
    · exact hfiltered
  · exact hfiltered

/-- A frame that stays in service changes no total. -/
theorem total_with_service {l : Line} {v w : Service} (h : l.service = some v) :
    Line.total { l with service := some w } = l.total := by
  simp [Line.total, h]

@[simp] theorem lineDraw_fits (draw : Nat) {s : Station} (h : s.CapacitiesFit) : (lineDraw draw s).CapacitiesFit := by
  unfold lineDraw
  split
  · next hv => exact h.of_le (line := Nat.le_of_eq (total_with_service hv))
  · exact h

@[simp] theorem requestLineDraw_fits {s : Station} (h : s.CapacitiesFit) : (requestLineDraw s).CapacitiesFit := by
  have hd := requestDraw_fits .line h
  unfold requestLineDraw
  split
  · next he =>
    rw [he] at hd
    exact lineDraw_fits _ hd
  · next he =>
    rw [he] at hd
    exact hd

/-- A frame may enter service where none is in service and the queue has room for it. -/
theorem enterService_fits (f : TxFrame) {s : Station} (h : s.CapacitiesFit) (hroom : s.line.queue.length < 8) :
    (enterService f s).CapacitiesFit := by
  obtain ⟨-, hrest⟩ := h
  exact requestLineDraw_fits ⟨hroom, hrest⟩

@[simp] theorem tryAttempt_fits {s : Station} (h : s.CapacitiesFit) : (tryAttempt s).CapacitiesFit := by
  unfold tryAttempt
  split
  · next hv =>
    split
    · exact h.of_le (line := Nat.le_of_eq (total_with_service hv))
    · exact h
  · exact h

@[simp] theorem pump_fits {s : Station} (h : s.CapacitiesFit) : (pump s).CapacitiesFit := by
  unfold pump
  split
  · next f rest hv hq =>
    obtain ⟨htotal, -⟩ := id h
    have hlen : rest.length < 8 := by
      rw [Line.total, hv, hq] at htotal
      exact htotal
    have hrest : Station.CapacitiesFit { s with line.queue := rest } :=
      h.of_le (line := by simp [Line.total, hq])
    exact tryAttempt_fits (enterService_fits f hrest hlen)
  · exact tryAttempt_fits h

@[simp] theorem attemptEnded_fits  {s : Station} (h : s.CapacitiesFit) :
    (attemptEnded s).CapacitiesFit := h

@[simp] theorem countSlot_fits {s : Station} (h : s.CapacitiesFit) : (countSlot s).CapacitiesFit := by
  unfold countSlot
  split
  · next hv =>
    split
    · exact h.of_le (line := Nat.le_of_eq (total_with_service hv))
    · exact h
  · exact h

@[simp] theorem attemptCollided_fits {s : Station} (h : s.CapacitiesFit) : (attemptCollided s).CapacitiesFit := by
  unfold attemptCollided
  split
  · next f _ _ hv =>
    dsimp only
    have hroom : s.line.queue.length < 8 := by
      obtain ⟨htotal, -⟩ := id h
      rw [total_of_service hv] at htotal
      exact htotal
    have hleft (u : Station) (hu : u = attemptEnded s ∨
        u = { attemptEnded s with announcing.mark := false, announcing.markSolicit := false }) :
        u.CapacitiesFit ∧ u.line.queue = s.line.queue := by
      obtain rfl | rfl := hu <;> exact ⟨h, rfl⟩
    generalize hu : (if f.body.isAnnounce = true then _ else attemptEnded s) = u
    obtain ⟨hfits, hqueue⟩ := hleft u (by rw [← hu]; split <;> simp)
    split
    · exact reportDrop_fits _ (hfits.of_le (line := queue_le_total u.line))
    · split
      · have hreturned : (returnToClass f u.line.queue).length = u.line.queue.length + 1 := by
          have hparts := congrArg List.length
            (List.takeWhile_append_dropWhile (p := fun g : TxFrame => g.body.urgent) (l := u.line.queue))
          rw [List.length_append] at hparts
          simp only [returnToClass, List.length_append, List.length_singleton]
          omega
        obtain ⟨-, hrest⟩ := hfits
        refine ⟨?_, hrest⟩
        rw [total_without_service, hreturned, hqueue]
        exact hroom
      · exact enterService_fits f hfits (hqueue ▸ hroom)
  · exact h

@[simp] theorem mapAnnounce_fits (f : TxBody → TxBody) {s : Station} (h : s.CapacitiesFit) :
    (mapAnnounce f s).CapacitiesFit :=
  h.of_le (line := by simp [mapAnnounce, Line.total])

@[simp] theorem mergeAnnounce_fits (standby solicit : Bool) {s : Station} (h : s.CapacitiesFit) :
    (mergeAnnounce standby solicit s).CapacitiesFit := by
  unfold mergeAnnounce
  dsimp only
  split
  · split <;> simp [h]
  · simp [h]

@[simp] theorem announceCause_fits (solicit : Bool) {s : Station} (h : s.CapacitiesFit) :
    (announceCause solicit s).CapacitiesFit := by
  unfold announceCause
  split
  · split <;> simp [h]
  · simp [h]

@[simp] theorem notingLendReady_fits {op : Station → Station} {s : Station} (h : (op s).CapacitiesFit) :
    (notingLendReady op s).CapacitiesFit := by
  unfold notingLendReady
  dsimp only
  split
  · exact h
  · exact announceCause_fits _ h

@[simp] theorem startPeriod_fits  {s : Station} (h : s.CapacitiesFit) :
    (startPeriod s).CapacitiesFit := by
  unfold startPeriod
  split <;> simp [h]

@[simp] theorem announceCompleted_fits (standbyNow : Bool) {s : Station} (h : s.CapacitiesFit) :
    (announceCompleted standbyNow s).CapacitiesFit := by
  have hstarted : (startPeriod (withdrawDraw .reply { s with announcing.reply := .none })).CapacitiesFit :=
    startPeriod_fits (withdrawDraw_fits _ h)
  unfold announceCompleted
  dsimp only
  split
  · exact mergeAnnounce_fits _ _ hstarted
  · exact hstarted

@[simp] theorem announceWasDropped_fits (standby : Bool) {s : Station} (h : s.CapacitiesFit) :
    (announceWasDropped standby s).CapacitiesFit := by
  unfold announceWasDropped
  dsimp only
  split
  · split <;> simp [h]
  · simp [h]

@[simp] theorem abandonStandby_fits  {s : Station} (h : s.CapacitiesFit) :
    (abandonStandby s).CapacitiesFit := by
  unfold abandonStandby
  dsimp only
  repeat' split
  all_goals simp [h]

@[simp] theorem decideStandby_fits  {s : Station} (h : s.CapacitiesFit) :
    (decideStandby s).CapacitiesFit := by simp [decideStandby, h]

@[simp] theorem replyDraw_fits (draw : Nat) {s : Station} (h : s.CapacitiesFit) :
    (replyDraw draw s).CapacitiesFit := by
  unfold replyDraw
  split <;> simp [h]

@[simp] theorem takeSolicit_fits {s : Station} (h : s.CapacitiesFit) : (takeSolicit s).CapacitiesFit := by
  have hd : (requestDraw .reply { s with announcing.reply := .waitingDraw }).2.CapacitiesFit := requestDraw_fits _ h
  unfold takeSolicit
  split
  · split
    · next he =>
      rw [he] at hd
      exact replyDraw_fits _ hd
    · next he =>
      rw [he] at hd
      exact hd
  · exact h

@[simp] theorem recomputeCount_fits (wasMismatch : Bool) {s : Station} (h : s.CapacitiesFit) :
    (recomputeCount wasMismatch s).CapacitiesFit := by
  unfold recomputeCount
  dsimp only
  split
  · split <;> simp [h]
  · split <;> simp [h]

@[simp] theorem setEntry_fits (c : Circuit) (e : CircuitEntry) {s : Station} (h : s.CapacitiesFit) :
    (setEntry c e s).CapacitiesFit := by
  unfold setEntry
  split <;> simp [h]

@[simp] theorem dropCircuitBridge_fits (c : Circuit) {s : Station} (h : s.CapacitiesFit) :
    (dropCircuitBridge c s).CapacitiesFit :=
  h.of_le (audio := List.length_filter_le _ _)

@[simp] theorem claimDraw_fits (draw : Nat) {s : Station} (h : s.CapacitiesFit) :
    (claimDraw draw s).CapacitiesFit := by
  unfold claimDraw
  split
  · split <;> simp [h]
  · simp [h]

theorem beginAttempt_fits {r : Round} {s t : Station} (h : s.CapacitiesFit) (e : beginAttempt r s = some t) :
    t.CapacitiesFit := by
  unfold beginAttempt at e
  split at e
  · cases e
  · dsimp only at e
    generalize hd : requestDraw .circuit _ = d at e
    have hfits : d.2.CapacitiesFit := by
      rw [← hd]
      exact requestDraw_fits _ h
    obtain ⟨draw | draw, u⟩ := d <;> cases e
    · exact hfits
    · exact claimDraw_fits _ hfits

@[simp] theorem openRound_fits (tag : Tag) {s : Station} (h : s.CapacitiesFit) : (openRound tag s).CapacitiesFit := by
  unfold openRound
  dsimp only
  split
  · next ht => exact beginAttempt_fits h ht
  · exact h

@[simp] theorem takeHeldRequest_fits  {s : Station} (h : s.CapacitiesFit) :
    (takeHeldRequest s).CapacitiesFit := by
  unfold takeHeldRequest
  split <;> simp [h]

@[simp] theorem endRound_fits (r : Round) (reason : RoundFailure) {s : Station} (h : s.CapacitiesFit) :
    (endRound r reason s).CapacitiesFit := by
  unfold endRound
  split <;> simp [h]

@[simp] theorem continueRound_fits (r : Round) {s : Station} (h : s.CapacitiesFit) :
    (continueRound r s).CapacitiesFit := by
  unfold continueRound
  split
  · next ht => exact beginAttempt_fits h ht
  · exact endRound_fits _ _ h

@[simp] theorem attemptLost_fits  {s : Station} (h : s.CapacitiesFit) :
    (attemptLost s).CapacitiesFit := by
  unfold attemptLost
  dsimp only
  split
  · split <;> simp [h]
  · simp [h]

@[simp] theorem requestCircuit_fits (tag : Tag) {s : Station} (h : s.CapacitiesFit) :
    (requestCircuit tag s).CapacitiesFit := by
  unfold requestCircuit
  split
  · simp [h]
  · split <;> simp [h]

@[simp] theorem withdrawAttempt_fits  {s : Station} (h : s.CapacitiesFit) :
    (withdrawAttempt s).CapacitiesFit := by simp [withdrawAttempt, h]

@[simp] theorem countChanged_fits  {s : Station} (h : s.CapacitiesFit) :
    (countChanged s).CapacitiesFit := by
  unfold countChanged
  split
  · split <;> simp [h]
  · simp [h]

@[simp] theorem abandonRound_fits (reason : ClearReason) (dest : Nat) {s : Station} (h : s.CapacitiesFit) :
    (abandonRound reason dest s).CapacitiesFit := by
  unfold abandonRound
  repeat' split
  all_goals simp [h]

@[simp] theorem releaseHeld_fits (c : Circuit) (reason : ClearReason) (dest : Nat) {s : Station}
    (h : s.CapacitiesFit) : (releaseHeld c reason dest s).CapacitiesFit := by
  unfold releaseHeld
  split
  · exact announceCause_fits _ (handOver_fits _ _ (dropCircuitBridge_fits c (setEntry_fits c _ h)))
  · exact h

@[simp] theorem releaseCircuit_fits (reason : ClearReason) (dest : Nat) {s : Station} (h : s.CapacitiesFit) :
    (releaseCircuit reason dest s).CapacitiesFit := by
  unfold releaseCircuit
  split <;> simp [h]

@[simp] theorem yieldCircuit_fits (c : Circuit) (tag : Tag) (winner : CircuitEntry) {s : Station}
    (h : s.CapacitiesFit) : (yieldCircuit c tag winner s).CapacitiesFit :=
  announceCause_fits _ (dropCircuitBridge_fits c (setEntry_fits c winner h))

@[simp] theorem attemptWon_fits {s : Station} (h : s.CapacitiesFit) : (attemptWon s).CapacitiesFit := by
  unfold attemptWon
  split
  · next r _ =>
    have hwon : (announceCause false { s with circuits.round := none }).CapacitiesFit := announceCause_fits _ h
    dsimp only
    split
    · exact takeHeldRequest_fits (releaseHeld_fits _ _ _ hwon)
    · exact hwon
  · exact h

@[simp] theorem joinContest_fits (c : Circuit) (claim : Claim) {s : Station} (h : s.CapacitiesFit) :
    (joinContest c claim s).CapacitiesFit := by
  unfold joinContest
  repeat' split
  all_goals simp [h]

@[simp] theorem joinOwnClaim_fits (r : Round) (draw : Nat) {s : Station} (h : s.CapacitiesFit) :
    (joinOwnClaim r draw s).CapacitiesFit := by
  unfold joinOwnClaim
  split <;> simp [h]

@[simp] theorem ownClaimTaken_fits (body : TxBody) {s : Station} (h : s.CapacitiesFit) :
    (ownClaimTaken body s).CapacitiesFit := by
  unfold ownClaimTaken
  repeat' split
  all_goals simp [h]

@[simp] theorem ownClaimDropped_fits (body : TxBody) {s : Station} (h : s.CapacitiesFit) :
    (ownClaimDropped body s).CapacitiesFit := by
  unfold ownClaimDropped
  split
  · split <;> simp [h]
  · simp [h]

@[simp] theorem closeContest_fits (c : Circuit) {s : Station} (h : s.CapacitiesFit) :
    (closeContest c s).CapacitiesFit := by
  unfold closeContest
  split
  · next best _ _ =>
    have hset : (setEntry c (s.contestWinner best) s).CapacitiesFit := setEntry_fits _ _ h
    dsimp only
    split
    · exact attemptWon_fits hset
    · generalize hu : (if s.isOwn best.claimant = true then _ else setEntry c (s.contestWinner best) s) = u
      have hfits : u.CapacitiesFit := by
        rw [← hu]
        split
        · exact announceCause_fits _ hset
        · exact hset
      split
      · exact attemptLost_fits hfits
      · exact hfits
  · exact h

@[simp] theorem reassert_fits  {s : Station} (h : s.CapacitiesFit) :
    (reassert s).CapacitiesFit := by
  unfold reassert
  split
  · split <;> simp [h]
  · simp [h]

@[simp] theorem takeClaim_fits (source : Nat) (circuit : Nat) (tag : Tag) (draw : Nat) {s : Station} (h : s.CapacitiesFit) :
    (takeClaim source circuit tag draw s).CapacitiesFit := by
  unfold takeClaim
  repeat' split
  all_goals simp [h]

@[simp] theorem adoptHolding_fits (c : Circuit) (e : CircuitEntry) {s : Station} (h : s.CapacitiesFit) :
    (adoptHolding c e s).CapacitiesFit := by
  unfold adoptHolding
  dsimp only
  split <;> simp [h]

@[simp] theorem takeHolding_fits (source circuit : Nat) (tag : Tag) (age : Nat) {s : Station} (h : s.CapacitiesFit) :
    (takeHolding source circuit tag age s).CapacitiesFit := by
  unfold takeHolding
  repeat' split
  all_goals simp [h]

@[simp] theorem takeClearIntoView_fits (source circuit : Nat) (tag : Tag) {s : Station} (h : s.CapacitiesFit) :
    (takeClearIntoView source circuit tag s).CapacitiesFit := by
  unfold takeClearIntoView
  repeat' split
  all_goals simp [h]

@[simp] theorem recordLending_fits (c : Circuit) (origin : Nat) (tag : Tag) {s : Station} (h : s.CapacitiesFit) :
    (recordLending c origin tag s).CapacitiesFit := by
  unfold recordLending
  split <;> simp [h]

/-- A bridge joins where fewer than four stay (R120). -/
theorem addBridge_fits {r : Bridge} {s t : Station} (h : s.CapacitiesFit) (e : addBridge r s = .ok t) :
    t.CapacitiesFit := by
  unfold addBridge at e
  split at e; · cases e
  split at e; · cases e
  split at e; · cases e
  split at e; · cases e
  dsimp only at e
  split at e
  · next hlt =>
    cases e
    obtain ⟨hline, hpool, hcarriers, -, hrest⟩ := h
    exact ⟨hline, hpool, hcarriers, by rw [List.length_append]; exact hlt, hrest⟩
  · cases e

@[simp] theorem tryBridge_fits (r : Bridge) {s : Station} (h : s.CapacitiesFit) : (tryBridge r s).CapacitiesFit := by
  unfold tryBridge
  split
  · next ht => exact addBridge_fits h ht
  · exact h

@[simp] theorem removeBridges_fits (owner : Owner) {s : Station} (h : s.CapacitiesFit) :
    (removeBridges owner s).CapacitiesFit :=
  h.of_le (audio := List.length_filter_le _ _)

@[simp] theorem removeBearerBridges_fits (l : Letter) {s : Station} (h : s.CapacitiesFit) :
    (removeBearerBridges l s).CapacitiesFit :=
  h.of_le (audio := List.length_filter_le _ _)

@[simp] theorem moveBridges_fits {s : Station} (h : s.CapacitiesFit) : (moveBridges s).CapacitiesFit :=
  h.of_le (audio := Nat.le_of_eq (List.length_map _))

@[simp] theorem endFailed_fits  {s : Station} (h : s.CapacitiesFit) :
    (endFailed s).CapacitiesFit := by
  unfold endFailed
  split <;> simp [h]

@[simp] theorem showNotice_fits (tone : Tone) (lamp : Lamp) {s : Station} (h : s.CapacitiesFit) :
    (showNotice tone lamp s).CapacitiesFit := by simp [showNotice, h]

@[simp] theorem showConnecting_fits {s : Station} (h : s.CapacitiesFit) : (showConnecting s).CapacitiesFit := showNotice_fits _ _ h

@[simp] theorem showRingback_fits {s : Station} (h : s.CapacitiesFit) : (showRingback s).CapacitiesFit := showNotice_fits _ _ h

@[simp] theorem showConnected_fits {s : Station} (h : s.CapacitiesFit) : (showConnected s).CapacitiesFit := showNotice_fits _ _ h

@[simp] theorem showRecovering_fits {s : Station} (h : s.CapacitiesFit) : (showRecovering s).CapacitiesFit := showNotice_fits _ _ h

@[simp] theorem showEnded_fits {s : Station} (h : s.CapacitiesFit) : (showEnded s).CapacitiesFit := showNotice_fits _ _ h

@[simp] theorem showFailed_fits (caller : End) {s : Station} (h : s.CapacitiesFit) :
    (showFailed caller s).CapacitiesFit := tryBridge_fits _ h

/-- A record may be replaced by one whose lists are within the bounds. -/
theorem putBearer_fits_of {l : Letter} {r : Bearer} {s : Station} (h : s.CapacitiesFit) (hr : r.ListsFit) :
    (putBearer l r s).CapacitiesFit := by
  unfold putBearer
  dsimp only
  generalize hu : (if ((s.bearer l).state == .inCall && r.state != .inCall) = true then _ else s) = u
  have hcut : u.CapacitiesFit := by
    rw [← hu]
    split
    · exact removeBearerBridges_fits _ h
    · exact h
  have hset : (setBearer l r u).CapacitiesFit := setBearer_fits_of hcut hr
  have hcaused : (announceCause false (setBearer l r u)).CapacitiesFit := announceCause_fits false hset
  split <;> split <;> simp [hset, hcaused]

@[simp] theorem putBearer_fits {l : Letter} {r : Bearer} {s : Station} (h : s.CapacitiesFit)
    (hn : r.networks = (s.bearer l).networks) (hb : r.barred = (s.bearer l).barred) :
    (putBearer l r s).CapacitiesFit := by
  have hr := h.lists l
  unfold Bearer.ListsFit at hr
  rw [← hn, ← hb] at hr
  exact putBearer_fits_of h hr

@[simp] theorem sendCommand_fits {l : Letter} (c : Command) {r : Bearer} {s : Station} (h : s.CapacitiesFit)
    (hn : r.networks = (s.bearer l).networks) (hb : r.barred = (s.bearer l).barred) :
    (sendCommand l c r s).CapacitiesFit :=
  putBearer_fits (s := emit _ s) h hn hb

@[simp] theorem notify_fits (l : Letter) (n : Notice) {s : Station} (h : s.CapacitiesFit) :
    (notify l n s).CapacitiesFit := by
  unfold notify
  split <;> simp [h]

@[simp] theorem goSearching_fits (l : Letter) {s : Station} (h : s.CapacitiesFit) : (goSearching l s).CapacitiesFit :=
  sendCommand_fits _ h rfl rfl

@[simp] theorem chooseNetwork_fits (l : Letter) {s : Station} (h : s.CapacitiesFit) :
    (chooseNetwork l s).CapacitiesFit := by
  unfold chooseNetwork
  dsimp only
  split
  · exact sendCommand_fits _ h rfl rfl
  · exact putBearer_fits h rfl rfl

@[simp] theorem goAvailable_fits (l : Letter) {s : Station} (h : s.CapacitiesFit) : (goAvailable l s).CapacitiesFit :=
  putBearer_fits h rfl rfl

@[simp] theorem goChecking_fits (l : Letter) {s : Station} (h : s.CapacitiesFit) : (goChecking l s).CapacitiesFit :=
  sendCommand_fits _ h rfl rfl

@[simp] theorem goSettling_fits (l : Letter) {s : Station} (h : s.CapacitiesFit) : (goSettling l s).CapacitiesFit :=
  putBearer_fits (notify_fits l .released h) rfl rfl

@[simp] theorem hangUp_fits (l : Letter) {s : Station} (h : s.CapacitiesFit) : (hangUp l s).CapacitiesFit :=
  sendCommand_fits _ h rfl rfl

@[simp] theorem sendDial_fits (l : Letter) {s : Station} (h : s.CapacitiesFit) : (sendDial l s).CapacitiesFit :=
  sendCommand_fits _ h rfl rfl

@[simp] theorem startBearer_fits (l : Letter) {s : Station} (h : s.CapacitiesFit) : (startBearer l s).CapacitiesFit :=
  sendCommand_fits _ (emit_fits (.power l true) h) (by cases l <;> rfl) (by cases l <;> rfl)

@[simp] theorem powerDown_fits (l : Letter) {s : Station} (h : s.CapacitiesFit) :
    (powerDown l s).CapacitiesFit := h

@[simp] theorem enterFailed_fits (l : Letter) {s : Station} (h : s.CapacitiesFit) : (enterFailed l s).CapacitiesFit := by
  unfold enterFailed
  dsimp only
  have down {u : Station} (hu : u.CapacitiesFit) : (powerDown l (notify l .released u)).CapacitiesFit :=
    powerDown_fits l (notify_fits l .released hu)
  split
  case' h_1 n _ => have hdown := down (notify_fits l n h)
  case' h_2 => have hdown := down h
  all_goals
    split
    · split
      · exact putBearer_fits hdown rfl rfl
      · exact raise_fits _ (putBearer_fits hdown rfl rfl)
    · exact putBearer_fits hdown rfl rfl

@[simp] theorem reserve_fits (l : Letter) (who : Claimant) {s : Station} (h : s.CapacitiesFit) :
    (reserve l who s).CapacitiesFit := by
  unfold reserve
  dsimp only
  split <;> exact putBearer_fits h rfl rfl

@[simp] theorem preempt_fits (l : Letter) (who : Claimant) {s : Station} (h : s.CapacitiesFit) :
    (preempt l who s).CapacitiesFit :=
  sendCommand_fits _ (notify_fits l .preempted h) rfl rfl

@[simp] theorem claimVoice_fits (who : Claimant) (minimum : Nat) {s : Station} (h : s.CapacitiesFit) :
    (claimVoice who minimum s).2.CapacitiesFit := by
  unfold claimVoice
  split
  · exact reserve_fits _ _ h
  · split
    · exact preempt_fits _ _ h
    · exact h

@[simp] theorem orderDial_fits (l : Letter) {s : Station} (h : s.CapacitiesFit) : (orderDial l s).CapacitiesFit := by
  unfold orderDial
  dsimp only
  split
  · exact sendDial_fits l h
  · split
    · exact setBearer_fits h rfl rfl
    · exact h
  · exact h

@[simp] theorem leaveReserved_fits (l : Letter) {s : Station} (h : s.CapacitiesFit) :
    (leaveReserved l s).CapacitiesFit := by
  unfold leaveReserved
  dsimp only
  split <;> simp [h]

@[simp] theorem releaseBearer_fits (l : Letter) {s : Station} (h : s.CapacitiesFit) :
    (releaseBearer l s).CapacitiesFit := by
  unfold releaseBearer
  dsimp only
  split
  case h_1 => exact leaveReserved_fits l h
  case h_2 =>
    split
    · exact hangUp_fits l (putBearer_fits h rfl rfl)
    · exact hangUp_fits l h
  case h_6 => exact setBearer_fits h rfl rfl
  case h_7 => exact h
  all_goals exact hangUp_fits l h

@[simp] theorem releaseFor_fits (who : Claimant) (l : Letter) {s : Station} (h : s.CapacitiesFit) :
    (releaseFor who l s).CapacitiesFit := by
  unfold releaseFor
  split
  · split <;> simp [h]
  · simp [h]

@[simp] theorem grantReport_fits (l : Letter) (who : Claimant) (record : Record) {s : Station} (h : s.CapacitiesFit) :
    (grantReport l who record s).CapacitiesFit := by
  unfold grantReport
  dsimp only
  split
  · exact leaveReserved_fits l (notify_fits l .reportFailed (putBearer_fits h rfl rfl))
  · exact putBearer_fits (emit_fits (.port l _) h) (by cases l <;> rfl) (by cases l <;> rfl)

@[simp] theorem claimReport_fits (who : Claimant) (record : Record) {s : Station} (h : s.CapacitiesFit) :
    (claimReport who record s).CapacitiesFit := by
  unfold claimReport
  split <;> simp [h]

@[simp] theorem withdrawClaim_fits (who : Claimant) {s : Station} (h : s.CapacitiesFit) :
    (withdrawClaim who s).CapacitiesFit := h

@[simp] theorem decideWaiting_fits (l : Letter) {s : Station} (h : s.CapacitiesFit) :
    (decideWaiting l s).CapacitiesFit := by
  unfold decideWaiting
  split
  · split <;> simp [h]
  · simp [h]

@[simp] theorem clearTimeouts_fits (l : Letter) {s : Station} (h : s.CapacitiesFit) :
    (clearTimeouts l s).CapacitiesFit := by simp [clearTimeouts, h]

@[simp] theorem hangUpAnswered_fits (l : Letter) {s : Station} (h : s.CapacitiesFit) :
    (hangUpAnswered l s).CapacitiesFit := by
  unfold hangUpAnswered
  dsimp only
  repeat' split
  all_goals simp [h]

@[simp] theorem recampFailed_fits (l : Letter) {s : Station} (h : s.CapacitiesFit) : (recampFailed l s).CapacitiesFit :=
  goSettling_fits l (setBearer_fits (notify_fits l .dialFailed h) rfl rfl)

@[simp] theorem lostInEnding_fits (l : Letter) {s : Station} (h : s.CapacitiesFit) :
    (lostInEnding l s).CapacitiesFit := by
  unfold lostInEnding
  dsimp only
  split
  · split
    · exact putBearer_fits (notify_fits l .dialFailed h) (by simp [Bearer.uncamped]) (by simp [Bearer.uncamped])
    · exact putBearer_fits h rfl rfl
  · exact putBearer_fits h rfl rfl

/-- A bearer that loses its network with the claimant told of it (R62). -/
theorem uncamp_after_notify_fits (l : Letter) (n : Notice) {s : Station} (h : s.CapacitiesFit) :
    (putBearer l (s.bearer l).uncamped (notify l n s)).CapacitiesFit :=
  putBearer_fits (notify_fits l n h) (by simp [Bearer.uncamped]) (by simp [Bearer.uncamped])

@[simp] theorem networkLost_fits (l : Letter) {s : Station} (h : s.CapacitiesFit) : (networkLost l s).CapacitiesFit := by
  unfold networkLost
  dsimp only
  split
  case h_4 => exact goSearching_fits l (notify_fits l .released (notify_fits l .dialFailed h))
  case h_5 =>
    split
    · exact recampFailed_fits l h
    · exact hangUp_fits l (uncamp_after_notify_fits l .dialFailed h)
  case h_6 => exact hangUp_fits l (uncamp_after_notify_fits l .dialFailed h)
  case h_7 => exact hangUp_fits l (uncamp_after_notify_fits l .bearerLost h)
  case h_8 => exact hangUp_fits l (uncamp_after_notify_fits l .reportFailed h)
  case h_9 => exact lostInEnding_fits l h
  case h_10 => exact putBearer_fits h rfl rfl
  case h_11 => exact h
  all_goals exact goSearching_fits l h

/-- The barred list never grows past four: a full list loses the bar that is replaced (R42). -/
theorem barNetwork_length {network : Nat} {now : Stamp} {barred : List (Nat × Stamp)} (h : barred.length ≤ 4) :
    (barNetwork network now barred).length ≤ 4 := by
  unfold barNetwork
  dsimp only
  split
  · rw [List.length_map]
    exact h
  · split
    · next hlt =>
      rw [List.length_append]
      exact hlt
    · split
      · rw [List.length_map]
        exact h
      · exact Nat.le_add_left 1 3

@[simp] theorem dialRejected_fits (l : Letter) {s : Station} (h : s.CapacitiesFit) :
    (dialRejected l s).CapacitiesFit := by
  obtain ⟨hnetworks, hbarred⟩ := h.lists l
  have settles {barred : List (Nat × Stamp)} (hlen : barred.length ≤ 4) :
      (goSettling l (notify l .dialFailed
        (setBearer l { s.bearer l with barred := barred, dialLimit := none, inFlight := none } s))).CapacitiesFit :=
    goSettling_fits l (notify_fits l .dialFailed (setBearer_fits_of h ⟨hnetworks, hlen⟩))
  have bounded : (match (s.bearer l).camped with
      | some n => barNetwork n.1 s.now (s.bearer l).barred
      | none => (s.bearer l).barred).length ≤ 4 := by
    split
    · exact barNetwork_length hbarred
    · exact hbarred
  unfold dialRejected
  dsimp only
  split
  · split
    · exact settles bounded
    · exact putBearer_fits_of (emit_fits _ (notify_fits l .redialing h)) ⟨hnetworks, bounded⟩
  · exact settles bounded

@[simp] theorem powerDownIfPowered_fits (l : Letter) {s : Station} (h : s.CapacitiesFit) :
    (powerDownIfPowered l s).CapacitiesFit := by
  unfold powerDownIfPowered
  split <;> exact h

@[simp] theorem clearBearers_fits {s : Station} (h : s.CapacitiesFit) : (clearBearers s).CapacitiesFit :=
  (powerDownIfPowered_fits .b (powerDownIfPowered_fits .a h)).of_le
    (bearers := fun l _ => by cases l <;> exact ⟨Nat.zero_le _, Nat.zero_le _⟩)

@[simp] theorem startFitted_fits {s : Station} (h : s.CapacitiesFit) : (startFitted s).CapacitiesFit := by
  refine List.foldlRecOn (motive := Station.CapacitiesFit) _ _ h fun t ht l _ => ?_
  split
  · exact startBearer_fits l ht
  · exact ht

@[simp] theorem unfit_fits (l : Letter) {s : Station} (h : s.CapacitiesFit) : (unfit l s).CapacitiesFit := by
  unfold unfit
  split
  · exact h
  · exact setBearer_fits_of (powerDownIfPowered_fits l h) ⟨Nat.zero_le _, Nat.zero_le _⟩

@[simp] theorem enterPhase_fits (phase : Phase) (deadline : Timer) {s : Station} (h : s.CapacitiesFit) :
    (enterPhase phase deadline s).CapacitiesFit := by
  unfold enterPhase
  split
  · dsimp only
    split
    · exact h
    · exact showConnecting_fits h
  · exact h

@[simp] theorem clearPartner_fits (tag : Tag) (reason : ClearReason) (dest : Nat) {s : Station} (h : s.CapacitiesFit) :
    (clearPartner tag reason dest s).CapacitiesFit := by simp [clearPartner, h]

@[simp] theorem tryEnd_fits  {s : Station} (h : s.CapacitiesFit) :
    (tryEnd s).CapacitiesFit := by
  unfold tryEnd
  split
  · split <;> simp [h]
  · simp [h]

@[simp] theorem enterEnding_fits {s : Station} (h : s.CapacitiesFit) : (enterEnding s).CapacitiesFit := by
  unfold enterEnding
  split
  · dsimp only
    split
    · exact removeUnbegun_fits _ (removeBridges_fits _ h)
    · exact removeBridges_fits _ h
  · exact h

@[simp] theorem releaseOwnBearer_fits  {s : Station} (h : s.CapacitiesFit) :
    (releaseOwnBearer s).CapacitiesFit := by
  unfold releaseOwnBearer
  split
  · split <;> simp [h]
  · simp [h]

@[simp] theorem abandonOwnRound_fits (reason : ClearReason) (activity : Phase) {s : Station} (h : s.CapacitiesFit) :
    (abandonOwnRound reason activity s).CapacitiesFit := by
  unfold abandonOwnRound
  split <;> simp [h]

theorem mapFirst_length {α : Type} (p : α → Bool) (f : α → α) (l : List α) : (mapFirst p f l).length = l.length := by
  induction l with
  | nil => rfl
  | cons x xs ih =>
    unfold mapFirst
    split
    · rfl
    · exact congrArg Nat.succ ih

/-- A report is merged, joins a queue with room, or takes the place of an entry that waits (R133). -/
@[simp] theorem handReport_fits (e : CabinetEvent) {s : Station} (h : s.CapacitiesFit) :
    (handReport e s).CapacitiesFit := by
  unfold handReport
  dsimp only
  split
  · exact h.of_le (queue := Nat.le_of_eq (mapFirst_length _ _ _))
  · split
    · next hlt =>
      obtain ⟨hline, hpool, hcarriers, haudio, -, hrest⟩ := h
      exact ⟨hline, hpool, hcarriers, haudio, by rw [post_reports, List.length_append]; exact hlt, hrest⟩
    · have hdropped : (countDropped (raise .reportDropped s)).CapacitiesFit := countDropped_fits h
      split
      · next hany =>
        obtain ⟨f, hf, hwaits⟩ := List.any_eq_true.mp hany
        refine hdropped.of_le (queue := ?_)
        have herased := List.length_eraseP_of_mem hf hwaits
        have hpos := List.length_pos_of_mem hf
        rw [post_reports, List.length_append, herased]
        exact Nat.le_of_eq (Nat.sub_add_cancel hpos)
      · exact hdropped

@[simp] theorem dropCall_fits (owed : Option (ClearReason × Nat)) {s : Station} (h : s.CapacitiesFit) :
    (dropCall owed s).CapacitiesFit := by
  unfold dropCall
  split
  · exact h
  · have hended : (enterEnding s).CapacitiesFit := enterEnding_fits h
    dsimp only
    refine tryEnd_fits (showFailed_fits _ (handReport_fits _ (releaseOwnBearer_fits ?_)))
    split
    · exact releaseCircuit_fits _ _ hended
    · exact releaseCircuit_fits _ _ hended
    · exact clearPartner_fits _ _ _ hended
    · exact hended

@[simp] theorem beginRecovery_fits  {s : Station} (h : s.CapacitiesFit) :
    (beginRecovery s).CapacitiesFit := by
  unfold beginRecovery
  split
  · simp [h]
  · split <;> simp [h]

@[simp] theorem carrierLost_fits (owed : Option ClearReason) (released : Bool) {s : Station} (h : s.CapacitiesFit) :
    (carrierLost owed released s).CapacitiesFit := by
  unfold carrierLost
  split
  · exact h
  · next o _ =>
    dsimp only
    split
    · exact dropCall_fits _ (by split <;> exact h)
    · refine beginRecovery_fits (showRecovering_fits (tryBridge_fits _ (removeBridges_fits _ (updOrigin_fits _ ?_))))
      split
      · exact clearPartner_fits _ _ _ h
      · exact h

@[simp] theorem closeStep_fits {s : Station} (h : s.CapacitiesFit) : (closeStep s).CapacitiesFit := by
  unfold closeStep
  split
  · exact h
  · next o _ =>
    have hround := abandonOwnRound_fits .noAnswer o.activity h
    refine updOrigin_fits _ ?_
    split
    · exact hround
    · exact releaseFor_fits _ _ hround
    · exact clearPartner_fits _ _ _ hround
    · exact clearPartner_fits _ _ _ hround

@[simp] theorem recoveryFails_fits {s : Station} (h : s.CapacitiesFit) : (recoveryFails s).CapacitiesFit := by
  unfold recoveryFails
  split
  · exact h
  · have hclosed := closeStep_fits h
    dsimp only
    split
    · exact beginRecovery_fits hclosed
    · exact dropCall_fits none hclosed

@[simp] theorem endOfRound_fits {s : Station} (h : s.CapacitiesFit) : (endOfRound s).CapacitiesFit := by
  unfold endOfRound
  split
  · exact h
  · split
    · exact recoveryFails_fits h
    · exact enterPhase_fits _ _ (releaseCircuit_fits _ _ h)

@[simp] theorem localRoute_fits (minimum : Nat) {s : Station} (h : s.CapacitiesFit) :
    (localRoute minimum s).CapacitiesFit := by
  unfold localRoute
  split
  · exact h
  · next o _ =>
    have hclaimed : (claimVoice (.origin o.tag) minimum (updOrigin (fun o => { o with localTried := true }) s)).2.CapacitiesFit :=
      claimVoice_fits _ _ h
    dsimp only
    split
    · next hc =>
      rw [hc] at hclaimed
      exact orderDial_fits _ (enterPhase_fits _ _ hclaimed)
    · next hc =>
      rw [hc] at hclaimed
      split
      · exact hclaimed
      · exact endOfRound_fits hclaimed

@[simp] theorem borrowingOver_fits  {s : Station} (h : s.CapacitiesFit) :
    (borrowingOver s).CapacitiesFit := by
  unfold borrowingOver
  repeat' split
  all_goals simp [h]

@[simp] theorem askCircuit_fits  {s : Station} (h : s.CapacitiesFit) :
    (askCircuit s).CapacitiesFit := by
  unfold askCircuit
  split <;> simp [h]

@[simp] theorem askLender_fits (lender : Nat) {s : Station} (h : s.CapacitiesFit) : (askLender lender s).CapacitiesFit := by
  unfold askLender
  split
  · exact enterPhase_fits _ _ (handOver_fits _ _ h)
  · exact h

@[simp] theorem wakeStation_fits (address : Nat) {s : Station} (h : s.CapacitiesFit) :
    (wakeStation address s).CapacitiesFit :=
  enterPhase_fits _ _ (handOver_fits .wake address h)

@[simp] theorem chooseLender_fits  {s : Station} (h : s.CapacitiesFit) :
    (chooseLender s).CapacitiesFit := by
  unfold chooseLender
  repeat' split
  all_goals simp [h]

@[simp] theorem borrowRoute_fits  {s : Station} (h : s.CapacitiesFit) :
    (borrowRoute s).CapacitiesFit := by
  unfold borrowRoute
  repeat' split
  all_goals simp [h]

@[simp] theorem selectRoute_fits  {s : Station} (h : s.CapacitiesFit) :
    (selectRoute s).CapacitiesFit := by
  unfold selectRoute
  dsimp only
  repeat' split
  all_goals simp [h]

@[simp] theorem localFailed_fits  {s : Station} (h : s.CapacitiesFit) :
    (localFailed s).CapacitiesFit := by
  unfold localFailed
  dsimp only
  split <;> simp [h]

@[simp] theorem passOver_fits (lender : Nat) {s : Station} (h : s.CapacitiesFit) :
    (passOver lender s).CapacitiesFit := by simp [passOver, h]

@[simp] theorem createOrigin_fits (mode : Mode) {s : Station} (h : s.CapacitiesFit) :
    (createOrigin mode s).CapacitiesFit := by
  unfold createOrigin
  split
  · exact showConnecting_fits (tryBridge_fits _ (tallyUp_fits _ (endFailed_fits h)))
  · exact h

@[simp] theorem enterConnected_fits  {s : Station} (h : s.CapacitiesFit) :
    (enterConnected s).CapacitiesFit := by
  unfold enterConnected
  split
  · simp [h]
  · split <;> simp [h]

@[simp] theorem connectLocal_fits (l : Letter) {s : Station} (h : s.CapacitiesFit) :
    (connectLocal l s).CapacitiesFit := by
  unfold connectLocal
  split
  · exact h
  · next o _ =>
    dsimp only
    generalize hu : (if o.phase = .recovering then _ else s) = u
    have hconnected : (enterConnected u).CapacitiesFit := by
      rw [← hu]
      split
      · exact enterConnected_fits (releaseCircuit_fits _ _ h)
      · exact enterConnected_fits h
    split
    · next ht => exact showConnected_fits (addBridge_fits hconnected ht)
    · exact carrierLost_fits none false (releaseFor_fits _ _ hconnected)

@[simp] theorem connectBorrowed_fits {s : Station} (h : s.CapacitiesFit) : (connectBorrowed s).CapacitiesFit := by
  unfold connectBorrowed
  split
  · exact h
  · next o _ =>
    have hconnected : (enterConnected { s with call.origin := some { o with lastPartner := some s.now } }).CapacitiesFit :=
      enterConnected_fits h
    dsimp only
    split
    · exact carrierLost_fits _ _ hconnected
    · split
      · next ht => exact showConnected_fits (addBridge_fits hconnected ht)
      · exact carrierLost_fits _ _ hconnected

@[simp] theorem circuitYielded_fits {s : Station} (h : s.CapacitiesFit) : (circuitYielded s).CapacitiesFit := by
  unfold circuitYielded
  split
  · exact h
  · split
    · exact askCircuit_fits (clearPartner_fits _ _ _ h)
    · exact askCircuit_fits (clearPartner_fits _ _ _ h)
    · exact askCircuit_fits h
    · exact carrierLost_fits _ _ h
    · exact h

@[simp] theorem unplaced_fits {s : Station} (h : s.CapacitiesFit) : (unplaced s).CapacitiesFit := by
  unfold unplaced
  split
  · exact h
  · exact tryEnd_fits (showFailed_fits _ (handReport_fits _ (releaseOwnBearer_fits (releaseCircuit_fits _ _
      (enterEnding_fits (abandonOwnRound_fits _ _ (tallyUp_fits _ h)))))))

@[simp] theorem endRequest_fits {s : Station} (h : s.CapacitiesFit) : (endRequest s).CapacitiesFit := by
  unfold endRequest
  split
  · exact h
  · next o _ =>
    split
    · exact h
    · dsimp only
      generalize hu : (if o.connected = true then s else _) = u
      have hcounted : u.CapacitiesFit := by
        rw [← hu]
        split
        · exact h
        · exact tallyUp_fits _ h
      have hended := enterEnding_fits (abandonOwnRound_fits .callerEnded o.activity hcounted)
      refine tryEnd_fits (showEnded_fits (releaseOwnBearer_fits ?_))
      split
      · exact releaseCircuit_fits _ _ hended
      · split
        · exact clearPartner_fits _ _ _ hended
        · exact hended
      · exact hended

@[simp] theorem farEndEnds_fits {s : Station} (h : s.CapacitiesFit) : (farEndEnds s).CapacitiesFit :=
  tryEnd_fits (showEnded_fits (releaseCircuit_fits _ _ (enterEnding_fits h)))

@[simp] theorem originReleased_fits (l : Letter) {s : Station} (h : s.CapacitiesFit) :
    (originReleased l s).CapacitiesFit := by
  unfold originReleased
  split
  · exact h
  · split
    · dsimp only
      split
      · exact h
      · exact tryEnd_fits h
    · split
      · split
        · exact tryEnd_fits h
        · exact localFailed_fits h
        · exact carrierLost_fits _ _ h
        · exact h
      · exact h

@[simp] theorem originNotice_fits (tag : Tag) (l : Letter) (n : Notice) {s : Station} (h : s.CapacitiesFit) :
    (originNotice tag l n s).CapacitiesFit := by
  unfold originNotice
  split
  · exact h
  · split
    · split
      · exact originReleased_fits l h
      · split
        · split
          · split
            · exact h
            · exact showRingback_fits h
          · split
            · exact h
            · exact showConnecting_fits h
          · exact connectLocal_fits l h
          · exact localFailed_fits h
          · exact localFailed_fits h
          · exact farEndEnds_fits h
          · exact carrierLost_fits none false h
          · exact h
        · exact h
    · exact h

@[simp] theorem takeLend_fits (source : Nat) (b : LendBody) {s : Station} (h : s.CapacitiesFit) :
    (takeLend source b s).CapacitiesFit := by
  unfold takeLend
  repeat' split
  all_goals simp [h]

@[simp] theorem takeCarrierStatus_fits (source : Nat) (tag : Tag) (phase : Nat) {s : Station} (h : s.CapacitiesFit) :
    (takeCarrierStatus source tag phase s).CapacitiesFit := by
  unfold takeCarrierStatus
  split
  · split
    · split
      · have hheard : (updOrigin (fun o => { o with lastPartner := some s.now }) s).CapacitiesFit := h
        dsimp only
        split
        · exact h
        · split
          · exact showRingback_fits hheard
          · split
            · exact showConnecting_fits hheard
            · exact h
      · exact h
      · exact h
    · exact clearPartner_fits _ _ _ h
  · exact clearPartner_fits _ _ _ h

@[simp] theorem takeConnected_fits (source : Nat) (tag : Tag) {s : Station} (h : s.CapacitiesFit) :
    (takeConnected source tag s).CapacitiesFit := by
  unfold takeConnected
  repeat' split
  all_goals simp [h]

@[simp] theorem partnerHeard_fits  {s : Station} (h : s.CapacitiesFit) :
    (partnerHeard s).CapacitiesFit := h

@[simp] theorem takeDecline_fits (source : Nat) (tag : Tag) {s : Station} (h : s.CapacitiesFit) :
    (takeDecline source tag s).CapacitiesFit := by
  unfold takeDecline
  repeat' split
  all_goals simp [h]

@[simp] theorem takeCarrierClear_fits (source : Nat) (tag : Tag) (reason : ClearReason) {s : Station} (h : s.CapacitiesFit) :
    (takeCarrierClear source tag reason s).CapacitiesFit := by
  unfold takeCarrierClear
  repeat' split
  all_goals simp [h]

@[simp] theorem isolateOrigin_fits {s : Station} (h : s.CapacitiesFit) : (isolateOrigin s).CapacitiesFit := by
  unfold isolateOrigin
  split
  · exact h
  · split
    case h_5 =>
      split
      · exact carrierLost_fits none false h
      · exact h
    case h_6 =>
      have hclosed := closeStep_fits h
      dsimp only
      split
      · split <;> exact hclosed
      · exact hclosed
    case h_7 => exact h
    all_goals exact endOfRound_fits h

@[simp] theorem endCarrier_fits (t : Tag) {s : Station} (h : s.CapacitiesFit) : (endCarrier t s).CapacitiesFit :=
  notingLendReady_fits (removeUnbegun_fits _ (h.of_le (carriers := List.length_filter_le _ _)))

@[simp] theorem closeCarrier_fits (t : Tag) {s : Station} (h : s.CapacitiesFit) :
    (closeCarrier t s).CapacitiesFit := by simp [closeCarrier, h]

@[simp] theorem carrierClearFrame_fits (k : Carrier) (reason : ClearReason) {s : Station} (h : s.CapacitiesFit) :
    (carrierClearFrame k reason s).CapacitiesFit := by simp [carrierClearFrame, h]

@[simp] theorem originCleared_fits (k : Carrier) {s : Station} (h : s.CapacitiesFit) :
    (originCleared k s).CapacitiesFit := by
  unfold originCleared
  split <;> simp [h]

@[simp] theorem sendLend_fits (k : Carrier) {s : Station} (h : s.CapacitiesFit) :
    (sendLend k s).CapacitiesFit := by simp [sendLend, h]

/-- A carrier context joins where fewer than two stand (R83, R84). -/
theorem acceptBorrow_fits (tag : Tag) (c : Circuit) (l : Letter) {s : Station} (h : s.CapacitiesFit)
    (hroom : s.call.carriers.length < 2) : (acceptBorrow tag c l s).CapacitiesFit := by
  refine orderDial_fits l (sendLend_fits _ (recordLending_fits _ _ _ (notingLendReady_fits ?_)))
  obtain ⟨hline, hpool, -, hrest⟩ := h
  exact ⟨hline, hpool, by rw [List.length_append]; exact hroom, hrest⟩

theorem claimVoice_call (who : Claimant) (minimum : Nat) (s : Station) : (claimVoice who minimum s).2.call = s.call := by
  have hput (l : Letter) (r : Bearer) (u : Station) : (putBearer l r u).call = u.call := (putBearer_frame l r u).1
  unfold claimVoice
  split
  · exact hput _ _ _
  · split
    · refine (hput _ _ _).trans ?_
      unfold notify
      split <;> rfl
    · rfl

@[simp] theorem judgeBorrow_fits (tag : Tag) (circuit : Nat) {s : Station} (h : s.CapacitiesFit) :
    (judgeBorrow tag circuit s).CapacitiesFit := by
  unfold judgeBorrow
  dsimp only
  split
  · exact handOver_fits _ _ h
  · split
    · exact handOver_fits _ _ h
    · split
      · exact handOver_fits _ _ h
      · split
        · exact handOver_fits _ _ h
        · next hroom =>
          have hclaimed := claimVoice_fits (.carrier tag) s.config.lendMinimum h
          have hcall := claimVoice_call (.carrier tag) s.config.lendMinimum s
          split
          · next hc =>
            rw [hc] at hclaimed hcall
            exact acceptBorrow_fits _ _ _ hclaimed (by rw [hcall]; exact Nat.lt_of_not_le hroom)
          · next hc =>
            rw [hc] at hclaimed
            exact handOver_fits _ _ hclaimed

@[simp] theorem takeBorrow_fits (source : Nat) (b : VoiceBody) {s : Station} (h : s.CapacitiesFit) :
    (takeBorrow source b s).CapacitiesFit := by
  unfold takeBorrow
  repeat' split
  all_goals simp [h]

@[simp] theorem carrierNotice_fits (tag : Tag) (l : Letter) (n : Notice) {s : Station} (h : s.CapacitiesFit) :
    (carrierNotice tag l n s).CapacitiesFit := by
  unfold carrierNotice
  split
  · exact h
  · split
    · exact h
    · next k _ _ =>
      have hcleared (reason : ClearReason) : (closeCarrier tag (carrierClearFrame k reason s)).CapacitiesFit :=
        closeCarrier_fits tag (carrierClearFrame_fits k reason h)
      split
      case h_1 => exact endCarrier_fits tag h
      case h_5 => exact endCarrier_fits tag (hcleared .bearerLost)
      case h_9 =>
        split
        · next ht =>
          exact tallyLent_fits (handOver_fits _ _ (updCarrier_fits tag _ (addBridge_fits h ht)))
        · exact closeCarrier_fits tag (releaseFor_fits _ _ (carrierClearFrame_fits k .circuitConflict h))
      case h_12 => exact endCarrier_fits tag (hcleared .dialFailed)
      all_goals simp [h]

@[simp] theorem takeOriginStatus_fits (source : Nat) (tag : Tag) {s : Station} (h : s.CapacitiesFit) :
    (takeOriginStatus source tag s).CapacitiesFit := by
  unfold takeOriginStatus
  split <;> simp [h]

@[simp] theorem takeOriginClear_fits (source : Nat) (tag : Tag) {s : Station} (h : s.CapacitiesFit) :
    (takeOriginClear source tag s).CapacitiesFit := by
  unfold takeOriginClear
  split
  · split <;> simp [h]
  · simp [h]

@[simp] theorem carrierSilent_fits (k : Carrier) {s : Station} (h : s.CapacitiesFit) :
    (carrierSilent k s).CapacitiesFit :=
  closeCarrier_fits _ (carrierClearFrame_fits k .partnerSilent (releaseFor_fits _ _ (raise_fits .partnerLost h)))

@[simp] theorem watchCircuit_fits (e : CircuitEntry) (k : Carrier) {s : Station} (h : s.CapacitiesFit) :
    (watchCircuit e k s).CapacitiesFit := by
  unfold watchCircuit
  repeat' split
  all_goals simp [h]

/-- What each step of a fold keeps, the fold keeps. -/
theorem foldl_fits {α : Type} {f : Station → α → Station} (hf : ∀ s x, s.CapacitiesFit → (f s x).CapacitiesFit)
    (l : List α) {s : Station} (h : s.CapacitiesFit) : (l.foldl f s).CapacitiesFit :=
  List.foldlRecOn (motive := Station.CapacitiesFit) _ _ h fun t ht x _ => hf t x ht

@[simp] theorem circuitWatch_fits (c : Circuit) (e : CircuitEntry) {s : Station} (h : s.CapacitiesFit) :
    (circuitWatch c e s).CapacitiesFit :=
  foldl_fits (fun _ k ht => watchCircuit_fits e k ht) _ h

@[simp] theorem isolateCarriers_fits {s : Station} (h : s.CapacitiesFit) : (isolateCarriers s).CapacitiesFit :=
  foldl_fits (fun _ k ht => originCleared_fits k ht) _ h

@[simp] theorem updReport_fits (t : Tag) (f : ReportEntry → ReportEntry) {s : Station} (h : s.CapacitiesFit) :
    (updReport t f s).CapacitiesFit :=
  h.of_le (queue := Nat.le_of_eq (List.length_map _))

@[simp] theorem removeReport_fits (t : Tag) {s : Station} (h : s.CapacitiesFit) : (removeReport t s).CapacitiesFit :=
  h.of_le (queue := List.length_filter_le _ _)

@[simp] theorem askReportLender_fits (t : Tag) (lender : Nat) {s : Station} (h : s.CapacitiesFit) :
    (askReportLender t lender s).CapacitiesFit := by
  unfold askReportLender
  split <;> simp [h]

@[simp] theorem offerEntry_fits (e : ReportEntry) {s : Station} (h : s.CapacitiesFit) :
    (offerEntry e s).CapacitiesFit := by
  unfold offerEntry
  dsimp only
  split
  · exact claimReport_fits _ _ (updReport_fits _ _ h)
  · split
    · split
      · exact askReportLender_fits _ _ h
      · exact h
    · exact h

@[simp] theorem offerNext_fits  {s : Station} (h : s.CapacitiesFit) :
    (offerNext s).CapacitiesFit := by
  unfold offerNext
  split
  · split <;> simp [h]
  · simp [h]

@[simp] theorem mergeReturning_fits (t : Tag) {s : Station} (h : s.CapacitiesFit) :
    (mergeReturning t s).CapacitiesFit := by
  unfold mergeReturning
  split
  · exact h
  · split
    · exact h
    · exact updReport_fits _ _ (removeReport_fits _ h)

@[simp] theorem returnWaiting_fits (t : Tag) {s : Station} (h : s.CapacitiesFit) :
    (returnWaiting t s).CapacitiesFit := by simp [returnWaiting, h]

@[simp] theorem retestClaim_fits  {s : Station} (h : s.CapacitiesFit) :
    (retestClaim s).CapacitiesFit := by
  unfold retestClaim
  split
  · split <;> simp [h]
  · simp [h]

@[simp] theorem decideReports_fits  {s : Station} (h : s.CapacitiesFit) :
    (decideReports s).CapacitiesFit := by simp [decideReports, h]

@[simp] theorem attemptFailed_fits (t : Tag) {s : Station} (h : s.CapacitiesFit) :
    (attemptFailed t s).CapacitiesFit := by
  unfold attemptFailed
  split
  · exact h
  · split
    · exact removeReport_fits t (countDropped_fits (raise_fits .reportUndelivered h))
    · exact mergeReturning_fits t (updReport_fits t _ h)

@[simp] theorem askNext_fits (t : Tag) (lender : Nat) {s : Station} (h : s.CapacitiesFit) :
    (askNext t lender s).CapacitiesFit := by
  unfold askNext
  dsimp only
  repeat' split
  all_goals simp [h]

@[simp] theorem delivered_fits (t : Tag) {s : Station} (h : s.CapacitiesFit) : (delivered t s).CapacitiesFit := by
  have hwithdrawn : (withdrawClaim (.report t) s).CapacitiesFit := withdrawClaim_fits _ h
  unfold delivered
  refine removeReport_fits t (countDelivered_fits ?_)
  split
  · exact releaseFor_fits _ _ hwithdrawn
  · exact hwithdrawn

/-- An entry taken out of its queue leaves room for itself at the head. -/
theorem length_cons_filter_le {α : Type} {p q : α → Bool} {l : List α} {x : α} (hx : l.find? p = some x)
    (hq : ∀ y, p y = true → q y = false) : (l.filter q).length + 1 ≤ l.length := by
  have hmem := List.mem_of_find?_eq_some hx
  have hfound := List.find?_some hx
  rw [Nat.succ_le_iff, List.length_filter_lt_length_iff_exists]
  exact ⟨x, hmem, by simp [hq x hfound]⟩

@[simp] theorem reportNotice_fits (t : Tag) (n : Notice) {s : Station} (h : s.CapacitiesFit) :
    (reportNotice t n s).CapacitiesFit := by
  unfold reportNotice
  split
  · exact h
  · next e he =>
    split
    · split
      · exact delivered_fits t h
      · exact attemptFailed_fits t h
      · refine returnWaiting_fits t (h.of_le (queue := length_cons_filter_le he ?_))
        intro f hf
        rw [beq_iff_eq] at hf
        rw [hf]
        exact bne_self_eq_false t
      · exact h
    · exact h

@[simp] theorem reportLent_fits (source : Nat) (t : Tag) {s : Station} (h : s.CapacitiesFit) :
    (reportLent source t s).CapacitiesFit := by
  unfold reportLent
  split
  · split <;> simp [h]
  · simp [h]

@[simp] theorem reportDeclined_fits (source : Nat) (t : Tag) {s : Station} (h : s.CapacitiesFit) :
    (reportDeclined source t s).CapacitiesFit := by
  unfold reportDeclined
  split
  · split <;> simp [h]
  · simp [h]

@[simp] theorem takeResult_fits (source : Nat) (b : ResultBody) {s : Station} (h : s.CapacitiesFit) :
    (takeResult source b s).CapacitiesFit := by
  unfold takeResult
  repeat' split
  all_goals simp [h]

@[simp] theorem updRelay_fits (t : Tag) (f : RelayEntry → RelayEntry) {s : Station} (h : s.CapacitiesFit) :
    (updRelay t f s).CapacitiesFit :=
  h.of_le (relay := Nat.le_of_eq (List.length_map _))

@[simp] theorem removeRelay_fits (t : Tag) {s : Station} (h : s.CapacitiesFit) : (removeRelay t s).CapacitiesFit :=
  h.of_le (relay := List.length_filter_le _ _)

@[simp] theorem decideRelay_fits  {s : Station} (h : s.CapacitiesFit) :
    (decideRelay s).CapacitiesFit := by
  unfold decideRelay
  split
  · split <;> simp [h]
  · simp [h]

@[simp] theorem endRelay_fits (t : Tag) (delivered : Bool) {s : Station} (h : s.CapacitiesFit) :
    (endRelay t delivered s).CapacitiesFit := by simp [endRelay, h]

@[simp] theorem relayNotice_fits (t : Tag) (n : Notice) {s : Station} (h : s.CapacitiesFit) :
    (relayNotice t n s).CapacitiesFit := by
  unfold relayNotice
  split
  · exact h
  · next e he =>
    dsimp only
    split
    · split
      · exact endRelay_fits t true h
      · split
        · exact endRelay_fits t false h
        · exact updRelay_fits t _ h
      · split
        · exact endRelay_fits t false h
        · refine h.of_le (relay := length_cons_filter_le he ?_)
          intro f hf
          rw [beq_iff_eq] at hf
          rw [hf]
          exact bne_self_eq_false t
      · exact h
    · exact h

@[simp] theorem relayExpired_fits (t : Tag) {s : Station} (h : s.CapacitiesFit) :
    (relayExpired t s).CapacitiesFit := by
  unfold relayExpired
  split
  · simp [h]
  · split <;> simp [h]

/-- A peer's report is taken where fewer than four are relayed (R138). -/
@[simp] theorem takeReportBorrow_fits (source : Nat) (record : Record) {s : Station} (h : s.CapacitiesFit) :
    (takeReportBorrow source record s).CapacitiesFit := by
  unfold takeReportBorrow
  split
  · split
    · exact handOver_fits _ _ h
    · split
      · exact handOver_fits _ _ h
      · split
        · next hlt =>
          refine handOver_fits _ _ ?_
          obtain ⟨hline, hpool, hcarriers, haudio, hqueue, -, hrest⟩ := h
          exact ⟨hline, hpool, hcarriers, haudio, hqueue, by rw [List.length_append]; exact hlt, hrest⟩
        · exact handOver_fits _ _ h
  · exact h

@[simp] theorem keepStall_fits  {s : Station} (h : s.CapacitiesFit) :
    (keepStall s).CapacitiesFit := by
  unfold keepStall
  split
  · split <;> simp [h]
  · simp [h]

@[simp] theorem isolateReports_fits {s : Station} (h : s.CapacitiesFit) : (isolateReports s).CapacitiesFit :=
  (foldl_fits (fun _ (e : ReportEntry) ht => returnWaiting_fits e.record.tag ht) _ h).of_le
    (relay := List.length_filter_le _ _)

@[simp] theorem offerCapture_fits (v : IVec) {s : Station} (h : s.CapacitiesFit) :
    (offerCapture v s).CapacitiesFit := by
  unfold offerCapture
  dsimp only
  repeat' split
  all_goals simp [h]

@[simp] theorem handCabinetEvent_fits (e : CabinetEvent) {s : Station} (h : s.CapacitiesFit) :
    (handCabinetEvent e s).CapacitiesFit := by
  unfold handCabinetEvent
  split
  · exact handReport_fits e h
  · split <;> exact h

@[simp] theorem handPending_fits {s : Station} (h : s.CapacitiesFit) : (handPending s).CapacitiesFit :=
  foldl_fits (s := { s with cabinet.pending := [] }) (fun _ e ht => handReport_fits e ht) _ h

@[simp] theorem wakeIfStandby_fits (cause : WakeCause) {s : Station} (h : s.CapacitiesFit) :
    (wakeIfStandby cause s).CapacitiesFit := by
  unfold wakeIfStandby
  split <;> simp [h]

@[simp] theorem offerImpact_fits (old : Option QVec) (v : QVec) {s : Station} (h : s.CapacitiesFit) :
    (offerImpact old v s).CapacitiesFit := by
  unfold offerImpact
  dsimp only
  repeat' split
  all_goals simp [h]

@[simp] theorem closeImpact_fits  {s : Station} (h : s.CapacitiesFit) :
    (closeImpact s).CapacitiesFit := by
  unfold closeImpact
  split <;> simp [h]

@[simp] theorem raiseTilt_fits (kind : ReportKind) (cause : WakeCause) {s : Station} (h : s.CapacitiesFit) :
    (raiseTilt kind cause s).CapacitiesFit := by simp [raiseTilt, h]

@[simp] theorem testTilt_fits (above high : Bool) {s : Station} (h : s.CapacitiesFit) :
    (testTilt above high s).CapacitiesFit := by
  unfold testTilt
  dsimp only
  repeat' split
  all_goals simp [h]

@[simp] theorem offerTilt_fits  {s : Station} (h : s.CapacitiesFit) :
    (offerTilt s).CapacitiesFit := by
  unfold offerTilt
  split
  · split <;> simp [h]
  · simp [h]

@[simp] theorem takeSample_fits (v : IVec) {s : Station} (h : s.CapacitiesFit) : (takeSample v s).CapacitiesFit := by
  unfold takeSample
  split
  · exact offerTilt_fits (offerImpact_fits _ _ (offerCapture_fits v h))
  · exact h

@[simp] theorem sensorFalls_fits  {s : Station} (h : s.CapacitiesFit) :
    (sensorFalls s).CapacitiesFit := by simp [sensorFalls, h]

@[simp] theorem beginCapture_fits  {s : Station} (h : s.CapacitiesFit) :
    (beginCapture s).CapacitiesFit := h

@[simp] theorem recount_fits (wasMismatch : Bool) {s : Station} (h : s.CapacitiesFit) :
    (recount wasMismatch s).CapacitiesFit := by simp [recount, h]

@[simp] theorem refreshPeer_fits (source : Nat) {s : Station} (h : s.CapacitiesFit) :
    (refreshPeer source s).CapacitiesFit := by
  unfold refreshPeer
  split <;> simp [h]

@[simp] theorem fileAnnounce_fits (source : Nat) (b : AnnounceBody) {s : Station} (h : s.CapacitiesFit) :
    (fileAnnounce source b s).CapacitiesFit := by
  unfold fileAnnounce
  split
  · simp [h]
  · split <;> simp [h]

@[simp] theorem agePeer_fits (address : Nat) {s : Station} (h : s.CapacitiesFit) :
    (agePeer address s).CapacitiesFit := by simp [agePeer, h]

@[simp] theorem clearDirectory_fits  {s : Station} (h : s.CapacitiesFit) :
    (clearDirectory s).CapacitiesFit := h

@[simp] theorem writeLast_fits {s : Station} (h : s.CapacitiesFit) : (writeLast s).CapacitiesFit := by
  obtain ⟨k, f, hw, -⟩ := writeLast_shape s
  rw [hw]
  exact h

/-- Cleared blocks hold nothing (R15, R63, R140, R157). -/
theorem clearBlocks_fits (s : Station) : (clearBlocks s).CapacitiesFit := by
  refine ⟨Nat.zero_le _, Nat.zero_le _, Nat.zero_le _, Nat.zero_le _, Nat.zero_le _, Nat.zero_le _, fun l => ?_⟩
  cases l <;> exact ⟨Nat.zero_le _, Nat.zero_le _⟩


@[simp] theorem warmReset_fits (s : Station) : (warmReset s).CapacitiesFit := clearBlocks_fits (writeLast s)

@[simp] theorem holdReset_fits (s : Station) : (holdReset s).CapacitiesFit := clearBlocks_fits (writeLast s)

@[simp] theorem releaseReset_fits {s : Station} (h : s.CapacitiesFit) : (releaseReset s).CapacitiesFit := by
  unfold releaseReset
  split
  · exact warmReset_fits s
  · exact h

@[simp] theorem powerOnReset_fits (s : Station) : (powerOnReset s).CapacitiesFit := by
  unfold powerOnReset
  dsimp only
  split
  · exact holdReset_fits _
  · exact reset_capacitiesFit

@[simp] theorem keepLost_fits (s : Station) : (keepLost s).CapacitiesFit := reset_capacitiesFit

@[simp] theorem handRequest_fits  {s : Station} (h : s.CapacitiesFit) :
    (handRequest s).CapacitiesFit := by
  unfold handRequest
  split <;> simp [h]

@[simp] theorem enterActive_fits {s : Station} (h : s.CapacitiesFit) : (enterActive s).CapacitiesFit :=
  handPending_fits (handRequest_fits (startFitted_fits (announceCause_fits true h)))

@[simp] theorem enterIsolatedFromStart_fits {s : Station} (h : s.CapacitiesFit) :
    (enterIsolatedFromStart s).CapacitiesFit :=
  handPending_fits (handRequest_fits (startFitted_fits h))

@[simp] theorem configInvalid_fits {s : Station} (h : s.CapacitiesFit) : (configInvalid s).CapacitiesFit :=
  enterIsolatedFromStart_fits h

@[simp] theorem judgeRecord_fits (bytes : List Byte) {s : Station} (h : s.CapacitiesFit) :
    (judgeRecord bytes s).CapacitiesFit := by
  unfold judgeRecord
  split
  · exact enterActive_fits h
  · exact configInvalid_fits h

@[simp] theorem isolateLine_fits {s : Station} (h : s.CapacitiesFit) : (isolateLine s).CapacitiesFit := by
  have hfiltered : Station.CapacitiesFit { s with line.queue := s.line.queue.filter TxFrame.serviceAnswer } :=
    h.of_le (line := Nat.add_le_add_right (List.length_filter_le _ _) _)
  unfold isolateLine
  dsimp only
  split
  · split
    · exact hfiltered
    · exact leaveService_fits hfiltered
  · exact hfiltered

@[simp] theorem isolateCircuits_fits {s : Station} (h : s.CapacitiesFit) : (isolateCircuits s).CapacitiesFit := by
  unfold isolateCircuits
  dsimp only
  split
  · exact dropCircuitBridge_fits _ h
  · exact h

@[simp] theorem enterIsolated_fits {s : Station} (h : s.CapacitiesFit) : (enterIsolated s).CapacitiesFit :=
  isolateReports_fits (isolateCarriers_fits (isolateOrigin_fits (isolateCircuits_fits (isolateLine_fits h))))

@[simp] theorem addressClash_fits {s : Station} (h : s.CapacitiesFit) : (addressClash s).CapacitiesFit :=
  enterIsolated_fits h

@[simp] theorem enterStandby_fits (s : Station) : (enterStandby s).CapacitiesFit := clearBlocks_fits s

@[simp] theorem keepIdle_fits  {s : Station} (h : s.CapacitiesFit) :
    (keepIdle s).CapacitiesFit := by
  unfold keepIdle
  repeat' split
  all_goals simp [h]

@[simp] theorem standbyCheck_fits  {s : Station} (h : s.CapacitiesFit) :
    (standbyCheck s).CapacitiesFit := by
  unfold standbyCheck
  repeat' split
  all_goals simp [h]

@[simp] theorem wakeInActive_fits  {s : Station} (h : s.CapacitiesFit) :
    (wakeInActive s).CapacitiesFit := by simp [wakeInActive, h]

@[simp] theorem deliverWake_fits (cause : WakeCause) {s : Station} (h : s.CapacitiesFit) :
    (deliverWake cause s).CapacitiesFit := by
  unfold deliverWake
  split <;> simp [h]

@[simp] theorem takeWake_fits (cause : WakeCause) {s : Station} (h : s.CapacitiesFit) :
    (takeWake cause s).CapacitiesFit := by
  unfold takeWake
  split
  · exact h
  · split
    · exact h
    · exact deliverWake_fits cause (enterActive_fits (clearBlocks_fits s))

@[simp] theorem markReload_fits  {s : Station} (h : s.CapacitiesFit) :
    (markReload s).CapacitiesFit := by
  unfold markReload
  split
  · split <;> simp [h]
  · simp [h]

@[simp] theorem freeHeldBy_fits (address : Option Nat) {s : Station} (h : s.CapacitiesFit) :
    (freeHeldBy address s).CapacitiesFit := by
  refine foldl_fits (fun t c ht => ?_) _ h
  split
  · split
    · exact ht
    · exact ht
  · exact ht

@[simp] theorem dropRound_fits  {s : Station} (h : s.CapacitiesFit) :
    (dropRound s).CapacitiesFit := by simp [dropRound, h]

@[simp] theorem reloadPicture_fits (old new : Configuration) (wasMismatch : Bool) {s : Station}
    (h : s.CapacitiesFit) : (reloadPicture old new wasMismatch s).CapacitiesFit := by
  unfold reloadPicture
  split
  · exact recomputeCount_fits _ (dropRound_fits h)
  · split
    · exact recount_fits _ (freeHeldBy_fits _ (dropRound_fits h))
    · exact recount_fits _ h

@[simp] theorem reloadAnnounce_fits (old new : Configuration) {s : Station} (h : s.CapacitiesFit) :
    (reloadAnnounce old new s).CapacitiesFit := by
  unfold reloadAnnounce
  split
  · split <;> simp [h]
  · split <;> simp [h]

@[simp] theorem applyReload_fits (new : Configuration) {s : Station} (h : s.CapacitiesFit) :
    (applyReload new s).CapacitiesFit :=
  notingLendReady_fits (startFitted_fits (unfit_fits .b (unfit_fits .a (reloadAnnounce_fits _ _
    (reloadPicture_fits _ _ _ h)))))

@[simp] theorem answerService_fits (segment : BitVec 16) (code index : Byte) (result : StatusResult) (content : List Byte) {s : Station} (h : s.CapacitiesFit) :
    (answerService segment code index result content s).CapacitiesFit := by simp [answerService, h]

@[simp] theorem answerOrder_fits (segment : BitVec 16) (order : Nat) (result : StatusResult) (content : List Byte)
    {s : Station} (h : s.CapacitiesFit) : (answerOrder segment order result content s).CapacitiesFit :=
  answerService_fits _ _ _ _ _ h

@[simp] theorem endReload_fits (record : Option Configuration) {s : Station} (h : s.CapacitiesFit) :
    (endReload record s).CapacitiesFit := by
  unfold endReload
  split
  · exact h
  · dsimp only
    split
    · exact answerOrder_fits _ _ _ _ h
    · split
      · exact answerOrder_fits _ _ _ _ h
      · exact answerOrder_fits _ _ _ _ (applyReload_fits _ h)

@[simp] theorem takeReload_fits (segment : BitVec 16) {s : Station} (h : s.CapacitiesFit) :
    (takeReload segment s).CapacitiesFit := by
  unfold takeReload
  split
  · exact answerOrder_fits _ _ _ _ h
  · split
    · exact warmReset_fits s
    · exact h

@[simp] theorem deliverDraw_fits (c : Consumer) (draw : Nat) {s : Station} (h : s.CapacitiesFit) :
    (deliverDraw c draw s).CapacitiesFit := by
  unfold deliverDraw
  split <;> simp [h]

@[simp] theorem deliverDraws_fits (l : List (Consumer × Nat)) {s : Station} (h : s.CapacitiesFit) :
    (deliverDraws l s).CapacitiesFit :=
  foldl_fits (fun _ d ht => deliverDraw_fits d.1 d.2 ht) l h

@[simp] theorem takeNotice_fits (who : Claimant) (l : Letter) (n : Notice) {s : Station} (h : s.CapacitiesFit) :
    (takeNotice who l n s).CapacitiesFit := by
  unfold takeNotice
  split <;> simp [h]

@[simp] theorem roundIsWon_fits (tag : Tag) {s : Station} (h : s.CapacitiesFit) :
    (roundIsWon tag s).CapacitiesFit := by
  unfold roundIsWon
  split <;> simp [h]

@[simp] theorem directoryReported_fits  {s : Station} (h : s.CapacitiesFit) :
    (directoryReported s).CapacitiesFit := by
  unfold directoryReported
  repeat' split
  all_goals simp [h]

@[simp] theorem borrowAfterRefusal_fits (tag : Tag) {s : Station} (h : s.CapacitiesFit) :
    (borrowAfterRefusal tag s).CapacitiesFit := by
  unfold borrowAfterRefusal
  split <;> simp [h]

@[simp] theorem originHasEnded_fits  {s : Station} (h : s.CapacitiesFit) :
    (originHasEnded s).CapacitiesFit := by
  unfold originHasEnded
  dsimp only
  split
  · split <;> simp [h]
  · simp [h]

@[simp] theorem takeTask_fits (t : Task) {s : Station} (h : s.CapacitiesFit) :
    (takeTask t s).CapacitiesFit := by
  unfold takeTask
  repeat' split
  all_goals simp [h]

/-- Notices taken in turn (log entry 4). -/
@[simp] theorem drain_fits (n : Nat) {s : Station} (h : s.CapacitiesFit) : (drain n s).CapacitiesFit := by
  induction n generalizing s with
  | zero => exact h
  | succ n ih =>
    unfold drain
    split
    · exact h
    · exact ih (takeTask_fits _ h)

@[simp] theorem upkeep_fits {s : Station} (h : s.CapacitiesFit) : (upkeep s).CapacitiesFit :=
  standbyCheck_fits (markReload_fits (keepStall_fits h))

@[simp] theorem finish_fits {s : Station} (h : s.CapacitiesFit) : (finish s).CapacitiesFit :=
  pump_fits (keepIdle_fits (drain_fits _ (upkeep_fits (drain_fits _ h))))

@[simp] theorem freshOut_fits  {s : Station} (h : s.CapacitiesFit) :
    (freshOut s).CapacitiesFit := h

theorem receiveFrame_fits (kind : Nat) (f : RxFrame) {owners : Station → Station}
    (ho : ∀ s, s.CapacitiesFit → (owners s).CapacitiesFit) {s : Station} (h : s.CapacitiesFit) :
    (receiveFrame kind f owners s).CapacitiesFit := by
  unfold receiveFrame
  split
  · exact h
  · dsimp only
    split
    · exact h
    · split
      · exact h
      · split
        · exact addressClash_fits h
        · split
          · exact ho _ h
          · exact h

theorem fromPeer_fits {α : Type} (f : RxFrame) (read : List Byte → Option α) {owners : α → Station → Station}
    (ho : ∀ b s, s.CapacitiesFit → (owners b s).CapacitiesFit) {s : Station} (h : s.CapacitiesFit) :
    (fromPeer f read owners s).CapacitiesFit := by
  unfold fromPeer
  split
  · split
    · exact ho _ _ (refreshPeer_fits _ h)
    · exact h
  · exact h

theorem whenAddressed_fits (f : RxFrame) {op : Station → Station}
    (ho : ∀ s, s.CapacitiesFit → (op s).CapacitiesFit) {s : Station} (h : s.CapacitiesFit) :
    (whenAddressed f op s).CapacitiesFit := by
  unfold whenAddressed
  split
  · exact ho _ h
  · exact h

@[simp] theorem campedHere_fits (l : Letter) (network level : Nat) {s : Station} (h : s.CapacitiesFit) :
    (campedHere l network level s).CapacitiesFit :=
  goAvailable_fits l (putBearer_fits h rfl rfl)

@[simp] theorem recamped_fits (l : Letter) (network level : Nat) {s : Station} (h : s.CapacitiesFit) :
    (recamped l network level s).CapacitiesFit :=
  sendDial_fits l (putBearer_fits h rfl rfl)

@[simp] theorem dialEnded_fits (l : Letter) (reason : EndReason) {s : Station} (h : s.CapacitiesFit) :
    (dialEnded l reason s).CapacitiesFit := by
  have hcleared := clearTimeouts_fits l h
  cases reason with
  | remoteHangup => exact goSettling_fits l (notify_fits l .dialFailed hcleared)
  | networkLost => exact networkLost_fits l hcleared
  | rejected => exact dialRejected_fits l hcleared

@[simp] theorem callEnded_fits (l : Letter) (reason : EndReason) {s : Station} (h : s.CapacitiesFit) :
    (callEnded l reason s).CapacitiesFit := by
  unfold callEnded
  split <;> simp [h]

@[simp] theorem hangUpEnded_fits (l : Letter) (reason : EndReason) {s : Station} (h : s.CapacitiesFit) :
    (hangUpEnded l reason s).CapacitiesFit := by
  unfold hangUpEnded
  refine hangUpAnswered_fits l ?_
  split
  · exact networkLost_fits l (clearTimeouts_fits l h)
  · exact clearTimeouts_fits l h

@[simp] theorem afterTimeout_fits (l : Letter) (c : Command) {s : Station} (h : s.CapacitiesFit) :
    (afterTimeout l c s).CapacitiesFit := by
  unfold afterTimeout
  repeat' split
  all_goals simp [h]

@[simp] theorem commandTimedOut_fits (l : Letter) (c : Command) {s : Station} (h : s.CapacitiesFit) :
    (commandTimedOut l c s).CapacitiesFit := by
  have hraised := raise_fits .bearerTimeout h
  unfold commandTimedOut
  dsimp only
  split
  · exact enterFailed_fits l (setBearer_fits hraised rfl rfl)
  · exact afterTimeout_fits l c (setBearer_fits hraised rfl rfl)

@[simp] theorem recheckClaim_fits (l : Letter) {s : Station} (h : s.CapacitiesFit) :
    (recheckClaim l s).CapacitiesFit := by
  have howing : (setBearer l (s.bearer l).owing s).CapacitiesFit := setBearer_fits h rfl rfl
  unfold recheckClaim
  split
  case h_1 => exact goChecking_fits l h
  case h_9 => exact h
  all_goals exact howing

@[simp] theorem settled_fits (l : Letter) {s : Station} (h : s.CapacitiesFit) :
    (settled l s).CapacitiesFit := by
  unfold settled
  dsimp only
  repeat' split
  all_goals simp [h]

@[simp] theorem passOverCarrier_fits (reason : Option ClearReason) {s : Station} (h : s.CapacitiesFit) :
    (passOverCarrier reason s).CapacitiesFit := by
  unfold passOverCarrier
  repeat' split
  all_goals simp [h]

@[simp] theorem originSilent_fits  {s : Station} (h : s.CapacitiesFit) :
    (originSilent s).CapacitiesFit := by
  unfold originSilent
  dsimp only
  split
  · simp [h]
  · split <;> simp [h]

@[simp] theorem queueStatus_fits (body : TxBody) (dest : Nat) {s : Station} (h : s.CapacitiesFit) :
    (queueStatus body dest s).CapacitiesFit := by
  unfold queueStatus
  split <;> simp [h]

@[simp] theorem statusDue_fits (context : ContextRef) {s : Station} (h : s.CapacitiesFit) :
    (statusDue context s).CapacitiesFit := by
  unfold statusDue
  split
  · split <;> simp [h]
  · split <;> simp [h]

@[simp] theorem takeAnnounceFrame_fits (source : Nat) (b : AnnounceBody) {s : Station} (h : s.CapacitiesFit) :
    (takeAnnounceFrame source b s).CapacitiesFit := by
  have hfiled := fileAnnounce_fits source b h
  have solicits {u : Station} (hu : u.CapacitiesFit) :
      (if b.solicit && u.isPeer source then takeSolicit u else u).CapacitiesFit := by
    split
    · exact takeSolicit_fits hu
    · exact hu
  refine solicits ?_
  split
  · split
    · exact takeHolding_fits _ _ _ _ hfiled
    · exact hfiled
  · exact hfiled

@[simp] theorem takeCallStatusFrame_fits (f : RxFrame) (b : CallStatusBody) {s : Station} (h : s.CapacitiesFit) :
    (takeCallStatusFrame f b s).CapacitiesFit := by
  unfold takeCallStatusFrame
  refine whenAddressed_fits f (fun t ht => ?_) ?_
  · split
    · split
      · exact takeCarrierStatus_fits _ _ _ ht
      · exact ht
    · exact takeOriginStatus_fits _ _ ht
  · split
    · exact takeHolding_fits _ _ _ _ h
    · exact h

@[simp] theorem takeClearFrame_fits (f : RxFrame) (b : ClearBody) {s : Station} (h : s.CapacitiesFit) :
    (takeClearFrame f b s).CapacitiesFit := by
  unfold takeClearFrame
  refine whenAddressed_fits f (fun t ht => ?_) (takeClearIntoView_fits _ _ _ h)
  split
  · exact takeCarrierClear_fits _ _ _ ht
  · exact takeOriginClear_fits _ _ ht

@[simp] theorem takeWakeFrame_fits (f : RxFrame) {s : Station} (h : s.CapacitiesFit) :
    (takeWakeFrame f s).CapacitiesFit := by
  unfold takeWakeFrame
  dsimp only
  repeat' split
  all_goals simp [h]

@[simp] theorem completed_fits (f : TxFrame) (standby : Bool) {s : Station} (h : s.CapacitiesFit) :
    (completed f standby s).CapacitiesFit := by
  unfold completed
  dsimp only
  split
  · split <;> simp [h]
  · simp [h]

@[simp] theorem frameLeaves_fits {s : Station} (h : s.CapacitiesFit) : (frameLeaves s).CapacitiesFit :=
  h.of_le (line := queue_le_total s.line)

@[simp] theorem latch_fits {s : Station} (h : s.CapacitiesFit) : (latch s).CapacitiesFit :=
  deliverDraws_fits _ (enterLatched_fits h)

@[simp] theorem failRepetition_fits  {s : Station} (h : s.CapacitiesFit) :
    (failRepetition s).CapacitiesFit := by
  unfold failRepetition
  dsimp only
  split <;> simp [h]

@[simp] theorem judgeWindow_fits {s : Station} (h : s.CapacitiesFit) : (judgeWindow s).CapacitiesFit := by
  have hnext : Station.CapacitiesFit { s with draw := s.draw.nextWindow } := h
  unfold judgeWindow
  dsimp only
  split
  · exact hnext
  · split
    · exact hnext
    · exact latch_fits hnext
  · split
    · exact enterHealthy_fits hnext
    · exact latch_fits hnext
  · split
    · exact enterHealthy_fits hnext
    · exact hnext

@[simp] theorem takeBit_fits (bit : Bool) {s : Station} (h : s.CapacitiesFit) : (takeBit s bit).CapacitiesFit := by
  have hcounted : Station.CapacitiesFit { s with draw := s.draw.countBit bit } := h
  unfold takeBit
  dsimp only
  split
  case' isTrue => have hfailed := failRepetition_fits hcounted
  case' isFalse => have hfailed := hcounted
  all_goals
    split
    · exact judgeWindow_fits hfailed
    · exact hfailed

@[simp] theorem takeNoise_fits (bits : List Bool) {s : Station} (h : s.CapacitiesFit) :
    (takeNoise bits s).CapacitiesFit := by
  unfold takeNoise
  split
  · exact h
  · exact foldl_fits (fun _ b ht => takeBit_fits b ht) bits h

@[simp] theorem moveToHandset_fits  {s : Station} (h : s.CapacitiesFit) :
    (moveToHandset s).CapacitiesFit := by simp [moveToHandset, h]

@[simp] theorem offHookAction_fits  {s : Station} (h : s.CapacitiesFit) :
    (offHookAction s).CapacitiesFit := by
  unfold offHookAction
  repeat' split
  all_goals simp [h]

@[simp] theorem onHookAction_fits  {s : Station} (h : s.CapacitiesFit) :
    (onHookAction s).CapacitiesFit := by
  unfold onHookAction
  repeat' split
  all_goals simp [h]

@[simp] theorem singlePress_fits  {s : Station} (h : s.CapacitiesFit) :
    (singlePress s).CapacitiesFit := by
  unfold singlePress
  repeat' split
  all_goals simp [h]

@[simp] theorem doublePress_fits  {s : Station} (h : s.CapacitiesFit) :
    (doublePress s).CapacitiesFit := by
  unfold doublePress
  repeat' split
  all_goals simp [h]

@[simp] theorem pressInWindow_fits (close begun : Stamp) {s : Station} (h : s.CapacitiesFit) :
    (pressInWindow close begun s).CapacitiesFit := by
  unfold pressInWindow
  split <;> simp [h]

end Sys2Proof.Machine

/-! PROOFS. Every command, and the idle step, keeps the queues and lists within their capacities (O14): one lemma for each
way in which a command is taken, then the commands. -/

namespace Sys2Proof.Machine

/-! ### The ways in which a command is taken -/

section
variable {s t : State} (h : s.station.CapacitiesFit)
include h

theorem takeEvent_fits {f : Station → Station}
    (e : takeEvent f s = .next t)
    (hf : ∀ u, u.CapacitiesFit → (f u).CapacitiesFit) : t.station.CapacitiesFit := by
  cases e
  dsimp only
  split
  · exact finish_fits (hf _ h)
  · exact h

theorem takeExpiry_fits {timer : Station → Timer} {f : Station → Station}
    (e : takeExpiry timer f s = .next t)
    (hf : ∀ u, u.CapacitiesFit → (f u).CapacitiesFit) : t.station.CapacitiesFit := by
  refine takeEvent_fits h e (fun u hu => ?_)
  split
  · exact hf _ (catchUp_fits _ hu)
  · exact hu

theorem takePin_fits {f : Station → Station}
    (e : takePin f s = .next t)
    (hf : ∀ u, u.CapacitiesFit → (f u).CapacitiesFit) : t.station.CapacitiesFit := by
  have hf' := hf _ (freshOut_fits h)
  cases e
  dsimp only
  split
  · exact finish_fits hf'
  · exact hf'

theorem takeIndication_fits {l : Letter} {test : Bearer → Bool} {f : Station → Station}
    (e : takeIndication l test f s = .next t)
    (hf : ∀ u, u.CapacitiesFit → (f u).CapacitiesFit) : t.station.CapacitiesFit := by
  refine takeEvent_fits h e (fun u hu => ?_)
  split
  · exact hf u hu
  · exact hu

theorem takeFrame_fits {kind : Nat} {f : RxFrame} {owners : Station → Station}
    (e : takeEvent (receiveFrame kind f owners) s = .next t)
    (ho : ∀ u, u.CapacitiesFit → (owners u).CapacitiesFit) : t.station.CapacitiesFit :=
  takeEvent_fits h e (fun _ hu => receiveFrame_fits kind f ho hu)

theorem takePeerFrame_fits {α : Type} {kind : Nat} {f : RxFrame} {read : List Byte → Option α}
    {owners : α → Station → Station}
    (e : takeEvent (receiveFrame kind f (fromPeer f read owners)) s = .next t)
    (ho : ∀ b u, u.CapacitiesFit → (owners b u).CapacitiesFit) : t.station.CapacitiesFit :=
  takeFrame_fits h e (fun _ hu => fromPeer_fits f read ho hu)

theorem takeAddressed_fits {α : Type} {kind : Nat} {f : RxFrame} {read : List Byte → Option α}
    {owner : α → Station → Station}
    (e : takeAddressed kind f read owner s = .next t)
    (ho : ∀ b u, u.CapacitiesFit → (owner b u).CapacitiesFit) : t.station.CapacitiesFit :=
  takePeerFrame_fits h e (fun b _ hu => whenAddressed_fits f (ho b) hu)

theorem takeService_fits {kind : Nat} {f : RxFrame} {respond : Byte → Byte → Station → Station}
    (e : takeService kind f respond s = .next t)
    (ho : ∀ a b u, u.CapacitiesFit → (respond a b u).CapacitiesFit) : t.station.CapacitiesFit := by
  refine takeFrame_fits h e (fun u hu => ?_)
  split
  · split
    · exact ho _ _ u hu
    · exact hu
  · exact hu

end

/-! ### Effects written into the rows themselves -/

theorem takePin_hold_fits {s t : State} {g : Station → Station} {c : Station → Bool} (h : s.station.CapacitiesFit)
    (e : takePin (fun u => if c u then holdReset (g u) else g u) s = .next t) (hg : ∀ u, u.CapacitiesFit → (g u).CapacitiesFit) :
    t.station.CapacitiesFit := by
  refine takePin_fits h e (fun u hu => ?_)
  split
  · exact holdReset_fits _
  · exact hg u hu

/-- A list built from a SCAN_RESULT holds six networks at most (R40). -/
theorem networkList_length (items : List ScanItem) : (networkList items).length ≤ 6 := List.length_take_le _ _

theorem scanned_fits (l : Letter) (items : List ScanItem) {s : Station} (h : s.CapacitiesFit) :
    (chooseNetwork l (setBearer l { s.bearer l with timeouts := 0, networks := networkList items } s)).CapacitiesFit :=
  chooseNetwork_fits l (setBearer_fits_of h ⟨networkList_length items, (h.lists l).2⟩)

theorem transmitted_fits {s : Station} (h : s.CapacitiesFit) :
    (match s.line.service with
      | some ⟨f, .attempting _ standby⟩ => completed f standby (frameLeaves (ownClaimTaken f.body (attemptEnded s)))
      | _ => s).CapacitiesFit := by
  split
  · exact completed_fits _ _ (frameLeaves_fits (ownClaimTaken_fits _ (attemptEnded_fits h)))
  · exact h

theorem conditioned_fits (noise : ConditionedNoise) {s : Station} (h : s.CapacitiesFit) :
    (if s.draw.mode = .healthy && s.draw.group.length = 64 then
      match conditionedDraw noise.draw.toNat s with
      | (some c, t) => deliverDraw c noise.draw.toNat t
      | (none, t) => t
    else s).CapacitiesFit := by
  have hdraw := conditionedDraw_fits noise.draw.toNat h
  split
  · split
    · next hc =>
      rw [hc] at hdraw
      exact deliverDraw_fits _ _ hdraw
    · next hc =>
      rw [hc] at hdraw
      exact hdraw
  · exact h

/-! ### Every command -/

section
variable {s t : State} (h : s.station.CapacitiesFit)
include h

/-! #### Rails, reset line, configuration memory, power unit, clock -/

theorem execKeepRailApplied_fits (e : execKeepRailApplied s = .next t) : t.station.CapacitiesFit := by
  refine takePin_fits h e (fun u hu => ?_)
  split
  · exact hu
  · exact powerOnReset_fits u

theorem execResetLineAsserted_fits (e : execResetLineAsserted s = .next t) : t.station.CapacitiesFit :=
  takePin_hold_fits h e (fun _ hu => hu)

theorem execResetLineReleased_fits (e : execResetLineReleased s = .next t) : t.station.CapacitiesFit :=
  takePin_fits h e (fun _ hu => releaseReset_fits hu)

theorem execMainRailLost_fits (e : execMainRailLost s = .next t) : t.station.CapacitiesFit :=
  takePin_hold_fits h e (fun _ hu => hu)

theorem execMainRailReturn_fits (e : execMainRailReturn s = .next t) : t.station.CapacitiesFit := by
  refine takePin_fits h e (fun u hu => ?_)
  dsimp only
  split
  · split
    · exact takeWake_fits _ hu
    · exact hu
  · exact releaseReset_fits hu

theorem execConfigReadComplete_fits (bytes : List Byte) (e : execConfigReadComplete bytes s = .next t) :
    t.station.CapacitiesFit := by
  refine takeEvent_fits h e (fun u hu => ?_)
  split
  · exact judgeRecord_fits bytes hu
  · exact hu

theorem execConfigReadLimitExpiry_fits (e : execConfigReadLimitExpiry s = .next t) :
    t.station.CapacitiesFit := by
  refine takeEvent_fits h e (fun u hu => ?_)
  split
  · exact configInvalid_fits (catchUp_fits _ hu)
  · exact endReload_fits none (catchUp_fits _ hu)
  · exact hu

theorem execReloadReadComplete_fits (bytes : List Byte) (e : execReloadReadComplete bytes s = .next t) :
    t.station.CapacitiesFit :=
  takeEvent_fits h e (fun _ hu => endReload_fits _ hu)

theorem execIdleTimerExpiry_fits (e : execIdleTimerExpiry s = .next t) : t.station.CapacitiesFit :=
  takeExpiry_fits h e (fun _ hu => hu)

theorem execCheckInTimerExpiry_fits (e : execCheckInTimerExpiry s = .next t) : t.station.CapacitiesFit :=
  takeExpiry_fits h e (fun _ hu => hu)

theorem execClockWrap_fits (e : execClockWrap s = .next t) : t.station.CapacitiesFit := by
  cases e
  dsimp only
  split <;> exact h

/-! #### Frames taken from the corridor line, and timers of the blocks that take them -/

theorem execAnnounce_fits (f : RxFrame) (e : execAnnounce f s = .next t) : t.station.CapacitiesFit := by
  refine takeFrame_fits h e (fun u hu => ?_)
  split
  · split
    · exact takeAnnounceFrame_fits _ _ hu
    · exact hu
  · exact hu

theorem execPeerAgeingExpiry_fits (address : Nat) (e : execPeerAgeingExpiry address s = .next t) :
    t.station.CapacitiesFit :=
  takeExpiry_fits h e (fun _ hu => agePeer_fits address hu)

theorem execAnnouncePeriodExpiry_fits (e : execAnnouncePeriodExpiry s = .next t) : t.station.CapacitiesFit :=
  takeExpiry_fits h e (fun _ hu => announceCause_fits false hu)

theorem execSolicitReplyDelayExpiry_fits (e : execSolicitReplyDelayExpiry s = .next t) :
    t.station.CapacitiesFit :=
  takeExpiry_fits h e (fun _ hu => announceCause_fits false hu)

theorem execClaim_fits (f : RxFrame) (e : execClaim f s = .next t) : t.station.CapacitiesFit :=
  takePeerFrame_fits h e (fun _ _ hu => takeClaim_fits _ _ _ _ hu)

theorem execContestTimerExpiry_fits (c : Fin 6) (e : execContestTimerExpiry c s = .next t) :
    t.station.CapacitiesFit :=
  takeExpiry_fits h e (fun _ hu => closeContest_fits c hu)

theorem execOrphanLimitExpiry_fits (c : Fin 6) (e : execOrphanLimitExpiry c s = .next t) :
    t.station.CapacitiesFit :=
  takeExpiry_fits h e (fun _ hu => setEntry_fits c .free hu)

theorem execCallStatus_fits (f : RxFrame) (e : execCallStatus f s = .next t) : t.station.CapacitiesFit :=
  takePeerFrame_fits h e (fun b _ hu => takeCallStatusFrame_fits f b hu)

theorem execBorrowVoice_fits (f : RxFrame) (e : execBorrowVoice f s = .next t) : t.station.CapacitiesFit :=
  takeAddressed_fits h e (fun b _ hu => takeBorrow_fits _ b hu)

theorem execBorrowReport_fits (f : RxFrame) (e : execBorrowReport f s = .next t) : t.station.CapacitiesFit :=
  takeAddressed_fits h e (fun r _ hu => takeReportBorrow_fits _ r hu)

theorem execLendCall_fits (f : RxFrame) (e : execLendCall f s = .next t) : t.station.CapacitiesFit :=
  takeAddressed_fits h e (fun b _ hu => takeLend_fits _ b hu)

theorem execLendReport_fits (f : RxFrame) (e : execLendReport f s = .next t) : t.station.CapacitiesFit :=
  takeAddressed_fits h e (fun b _ hu => reportLent_fits _ b hu)

theorem execDeclineCall_fits (f : RxFrame) (e : execDeclineCall f s = .next t) : t.station.CapacitiesFit :=
  takeAddressed_fits h e (fun b _ hu => takeDecline_fits _ b hu)

theorem execDeclineReport_fits (f : RxFrame) (e : execDeclineReport f s = .next t) : t.station.CapacitiesFit :=
  takeAddressed_fits h e (fun b _ hu => reportDeclined_fits _ b hu)

theorem execConnected_fits (f : RxFrame) (e : execConnected f s = .next t) : t.station.CapacitiesFit :=
  takeAddressed_fits h e (fun b _ hu => takeConnected_fits _ b hu)

theorem execClear_fits (f : RxFrame) (e : execClear f s = .next t) : t.station.CapacitiesFit :=
  takePeerFrame_fits h e (fun b _ hu => takeClearFrame_fits f b hu)

theorem execWakeFrame_fits (f : RxFrame) (e : execWakeFrame f s = .next t) : t.station.CapacitiesFit :=
  takeFrame_fits h e (fun _ hu => takeWakeFrame_fits f hu)

theorem execReportResult_fits (f : RxFrame) (e : execReportResult f s = .next t) : t.station.CapacitiesFit :=
  takeAddressed_fits h e (fun b _ hu => takeResult_fits _ b hu)

theorem execStatus_fits (f : RxFrame) (e : execStatus f s = .next t) : t.station.CapacitiesFit :=
  takePeerFrame_fits h e (fun _ _ hu => hu)

theorem execMalformedFrame_fits (count : Byte) (e : execMalformedFrame count s = .next t) :
    t.station.CapacitiesFit := by
  refine takeEvent_fits h e (fun u hu => ?_)
  split <;> exact hu

/-! #### Service frames -/

theorem execQueryStation_fits (f : RxFrame) (e : execQueryStation f s = .next t) : t.station.CapacitiesFit :=
  takeService_fits h e (fun _ _ _ hu => answerService_fits _ _ _ _ _ hu)

theorem execQueryFaults_fits (f : RxFrame) (e : execQueryFaults f s = .next t) : t.station.CapacitiesFit :=
  takeService_fits h e (fun _ _ _ hu => answerService_fits _ _ _ _ _ hu)

theorem execQueryDirectory_fits (f : RxFrame) (e : execQueryDirectory f s = .next t) :
    t.station.CapacitiesFit := by
  refine takeService_fits h e (fun code index u hu => ?_)
  dsimp only
  split <;> exact answerService_fits _ _ _ _ _ hu

theorem execQueryCircuits_fits (f : RxFrame) (e : execQueryCircuits f s = .next t) : t.station.CapacitiesFit :=
  takeService_fits h e (fun _ _ _ hu => answerService_fits _ _ _ _ _ hu)

theorem execQueryBearer_fits (f : RxFrame) (e : execQueryBearer f s = .next t) : t.station.CapacitiesFit := by
  refine takeService_fits h e (fun code index u hu => ?_)
  split
  · exact answerService_fits _ _ _ _ _ hu
  · split <;> exact answerService_fits _ _ _ _ _ hu

theorem execQueryQueues_fits (f : RxFrame) (e : execQueryQueues f s = .next t) : t.station.CapacitiesFit := by
  refine takeService_fits h e (fun code index u hu => ?_)
  split
  · exact answerService_fits _ _ _ _ _ hu
  · split <;> exact answerService_fits _ _ _ _ _ hu

theorem execUnknownSelector_fits (f : RxFrame) (e : execUnknownSelector f s = .next t) :
    t.station.CapacitiesFit :=
  takeService_fits h e (fun _ _ _ hu => answerService_fits _ _ _ _ _ hu)

theorem execClearFaults_fits (f : RxFrame) (e : execClearFaults f s = .next t) : t.station.CapacitiesFit :=
  takeService_fits h e (fun _ _ _ hu => answerOrder_fits _ _ _ _ (clearClasses_fits _ hu))

theorem execRestart_fits (f : RxFrame) (e : execRestart f s = .next t) : t.station.CapacitiesFit :=
  takeService_fits h e (fun _ _ u _ => warmReset_fits u)

theorem execReload_fits (f : RxFrame) (e : execReload f s = .next t) : t.station.CapacitiesFit :=
  takeService_fits h e (fun _ _ _ hu => takeReload_fits _ hu)

theorem execRecapture_fits (f : RxFrame) (e : execRecapture f s = .next t) : t.station.CapacitiesFit :=
  takeService_fits h e (fun _ _ _ hu => answerOrder_fits _ _ _ _ (beginCapture_fits hu))

theorem execUnknownOrder_fits (f : RxFrame) (e : execUnknownOrder f s = .next t) : t.station.CapacitiesFit :=
  takeService_fits h e (fun _ _ _ hu => answerService_fits _ _ _ _ _ hu)

/-! #### The line and the station's own attempts -/

theorem execIdleGap_fits (e : execIdleGap s = .next t) : t.station.CapacitiesFit := by
  refine takeEvent_fits h e (fun u hu => ?_)
  split <;> exact hu

theorem execLineBusy_fits (e : execLineBusy s = .next t) : t.station.CapacitiesFit := by
  refine takeEvent_fits h e (fun u hu => ?_)
  split <;> exact hu

theorem execBackoffSlot_fits (e : execBackoffSlot s = .next t) : t.station.CapacitiesFit :=
  takeEvent_fits h e (fun _ hu => countSlot_fits hu)

theorem execCollision_fits (e : execCollision s = .next t) : t.station.CapacitiesFit :=
  takeEvent_fits h e (fun _ hu => attemptCollided_fits hu)

theorem execTransmissionComplete_fits (e : execTransmissionComplete s = .next t) : t.station.CapacitiesFit :=
  takeEvent_fits h e (fun _ hu => transmitted_fits hu)

/-! #### The noise source -/

theorem execRepetitionFailure_fits (e : execRepetitionFailure s = .next t) : t.station.CapacitiesFit :=
  takeEvent_fits h e (fun _ hu => takeNoise_fits _ hu)

theorem execProportionWindowJudged_fits (bits : List Bool) (e : execProportionWindowJudged bits s = .next t) :
    t.station.CapacitiesFit :=
  takeEvent_fits h e (fun _ hu => takeNoise_fits bits hu)

theorem execDrawConditioned_fits (noise : ConditionedNoise) (e : execDrawConditioned noise s = .next t) :
    t.station.CapacitiesFit :=
  takeEvent_fits h e (fun _ hu => conditioned_fits noise (takeNoise_fits noise.bits hu))

/-! #### Indications at the bearer ports, and the bearers' timers -/

theorem execReady_fits (l : Letter) (e : execReady l s = .next t) : t.station.CapacitiesFit :=
  takeIndication_fits h e (fun _ hu => goSearching_fits l (setBearer_fits hu rfl rfl))

theorem execScanResult_fits (l : Letter) (items : List ScanItem) (e : execScanResult l items s = .next t) :
    t.station.CapacitiesFit :=
  takeIndication_fits h e (fun _ hu => scanned_fits l items hu)

theorem execCamped_fits (l : Letter) (network : BitVec 24) (level : Byte)
    (e : execCamped l network level s = .next t) : t.station.CapacitiesFit := by
  refine takeIndication_fits h e (fun u hu => ?_)
  split
  · exact campedHere_fits l _ _ hu
  · exact recamped_fits l _ _ hu

theorem execLevel_fits (l : Letter) (level : Byte) (e : execLevel l level s = .next t) :
    t.station.CapacitiesFit :=
  takeIndication_fits h e (fun _ hu => goAvailable_fits l (putBearer_fits hu rfl rfl))

theorem execProgress_fits (l : Letter) (e : execProgress l s = .next t) : t.station.CapacitiesFit :=
  takeIndication_fits h e (fun _ hu => notify_fits l .ringing (putBearer_fits hu rfl rfl))

theorem execAnswered_fits (l : Letter) (e : execAnswered l s = .next t) : t.station.CapacitiesFit :=
  takeIndication_fits h e (fun _ hu => notify_fits l .answered (putBearer_fits hu rfl rfl))

theorem execEnded_fits (l : Letter) (reason : EndReason) (e : execEnded l reason s = .next t) :
    t.station.CapacitiesFit := by
  refine takeIndication_fits h e (fun u hu => ?_)
  split
  · exact callEnded_fits l reason hu
  · exact hangUpEnded_fits l reason hu
  · exact dialEnded_fits l reason hu

theorem execReportSent_fits (l : Letter) (e : execReportSent l s = .next t) : t.station.CapacitiesFit :=
  takeIndication_fits h e
  (fun _ hu => goSettling_fits l (notify_fits l .reportSent (clearTimeouts_fits l hu)))

theorem execReportFailed_fits (l : Letter) (e : execReportFailed l s = .next t) : t.station.CapacitiesFit := by
  refine takeIndication_fits h e (fun u hu => ?_)
  dsimp only
  split
  · exact hangUpAnswered_fits l (clearTimeouts_fits l hu)
  · exact goSettling_fits l (notify_fits l .reportFailed (clearTimeouts_fits l hu))

theorem execLost_fits (l : Letter) (e : execLost l s = .next t) : t.station.CapacitiesFit :=
  takeIndication_fits h e (fun _ hu => networkLost_fits l hu)

theorem execFault_fits (l : Letter) (e : execFault l s = .next t) : t.station.CapacitiesFit :=
  takeIndication_fits h e (fun _ hu => enterFailed_fits l hu)

theorem execUndecodableIndication_fits (l : Letter) (kind : Byte) (params : List Byte)
    (e : execUndecodableIndication l kind params s = .next t) : t.station.CapacitiesFit :=
  takeIndication_fits h e (fun _ hu => hu)

theorem execCommandTimeout_fits (l : Letter) (e : execCommandTimeout l s = .next t) :
    t.station.CapacitiesFit := by
  refine takeExpiry_fits h e (fun u hu => ?_)
  split
  · exact commandTimedOut_fits l _ hu
  · exact hu

theorem execDialAnswerLimitExpiry_fits (l : Letter) (e : execDialAnswerLimitExpiry l s = .next t) :
    t.station.CapacitiesFit :=
  takeExpiry_fits h e (fun _ hu => hangUp_fits l (notify_fits l .noAnswer hu))

theorem execRescanTimerExpiry_fits (l : Letter) (e : execRescanTimerExpiry l s = .next t) :
    t.station.CapacitiesFit :=
  takeExpiry_fits h e (fun _ hu => goSearching_fits l hu)

theorem execBarExpiry_fits (l : Letter) (network : Nat) (e : execBarExpiry l network s = .next t) :
    t.station.CapacitiesFit := by
  refine takeExpiry_fits h e (fun u hu => setBearer_fits_of hu ?_)
  obtain ⟨hnetworks, hbarred⟩ := hu.lists l
  exact ⟨hnetworks, Nat.le_trans (List.length_filter_le _ _) hbarred⟩

theorem execRecheckTimerExpiry_fits (l : Letter) (e : execRecheckTimerExpiry l s = .next t) :
    t.station.CapacitiesFit :=
  takeExpiry_fits h e (fun _ hu => recheckClaim_fits l (setBearer_fits hu rfl rfl))

theorem execFailureWaitExpiry_fits (l : Letter) (e : execFailureWaitExpiry l s = .next t) :
    t.station.CapacitiesFit :=
  takeExpiry_fits h e (fun _ hu => startBearer_fits l (setBearer_fits hu rfl rfl))

theorem execSettlingGuardExpiry_fits (l : Letter) (e : execSettlingGuardExpiry l s = .next t) :
    t.station.CapacitiesFit :=
  takeExpiry_fits h e (fun _ hu => settled_fits l (setBearer_fits hu rfl rfl))

/-! #### The caller panel -/

theorem execOffHook_fits (e : execOffHook s = .next t) : t.station.CapacitiesFit := by
  refine takeEvent_fits h e (fun u hu => ?_)
  split
  · exact hu
  · split
    · exact hu
    · exact offHookAction_fits hu
    · exact hu

theorem execOnHook_fits (e : execOnHook s = .next t) : t.station.CapacitiesFit := by
  refine takeEvent_fits h e (fun u hu => ?_)
  split
  · exact hu
  · split
    · exact hu
    · exact onHookAction_fits hu
    · exact hu

theorem execButtonInputPressed_fits (e : execButtonInputPressed s = .next t) : t.station.CapacitiesFit := by
  refine takeEvent_fits h e (fun u hu => ?_)
  split <;> exact hu

theorem execButtonPressCounts_fits (e : execButtonPressCounts s = .next t) : t.station.CapacitiesFit := by
  refine takeEvent_fits h e (fun u hu => ?_)
  split
  · exact hu
  · split
    · exact hu
    · split
      · exact hu
      · exact pressInWindow_fits _ _ hu
      · exact pressInWindow_fits _ _ hu
      · exact hu
      · exact hu

theorem execButtonReleaseCounts_fits (e : execButtonReleaseCounts s = .next t) : t.station.CapacitiesFit := by
  refine takeEvent_fits h e (fun u hu => ?_)
  split
  · exact hu
  · split <;> exact hu

theorem execCandidateFails_fits (e : execCandidateFails s = .next t) : t.station.CapacitiesFit := by
  refine takeEvent_fits h e (fun u hu => ?_)
  split
  · split
    · exact singlePress_fits hu
    · exact hu
  · exact hu

theorem execButtonWindowExpiry_fits (e : execButtonWindowExpiry s = .next t) : t.station.CapacitiesFit := by
  refine takeExpiry_fits h e (fun u hu => ?_)
  split
  · split
    · exact hu
    · exact singlePress_fits hu
  · exact singlePress_fits hu

theorem execFailedPeriodExpiry_fits (e : execFailedPeriodExpiry s = .next t) : t.station.CapacitiesFit :=
  takeExpiry_fits h e (fun _ hu => endFailed_fits hu)

/-! #### The call engine's timers -/

theorem execAnswerTimeoutExpiry_fits (e : execAnswerTimeoutExpiry s = .next t) : t.station.CapacitiesFit :=
  takeExpiry_fits h e (fun _ hu => passOverCarrier_fits none hu)

theorem execWakeAllowanceExpiry_fits (e : execWakeAllowanceExpiry s = .next t) : t.station.CapacitiesFit :=
  takeExpiry_fits h e (fun _ hu => chooseLender_fits hu)

theorem execAwaitingConnectExpiry_fits (e : execAwaitingConnectExpiry s = .next t) : t.station.CapacitiesFit :=
  takeExpiry_fits h e (fun _ hu => passOverCarrier_fits _ hu)

theorem execPauseExpiry_fits (e : execPauseExpiry s = .next t) : t.station.CapacitiesFit := by
  refine takeExpiry_fits h e (fun u hu => ?_)
  split
  · exact enterPhase_fits _ _ hu
  · exact hu

theorem execSetupDeadlineExpiry_fits (e : execSetupDeadlineExpiry s = .next t) : t.station.CapacitiesFit :=
  takeExpiry_fits h e (fun _ hu => unplaced_fits hu)

theorem execPartnerSilence_fits (e : execPartnerSilence s = .next t) : t.station.CapacitiesFit :=
  takeExpiry_fits h e (fun _ hu => originSilent_fits hu)

theorem execCarrierPartnerSilence_fits (tag : Tag) (e : execCarrierPartnerSilence tag s = .next t) :
    t.station.CapacitiesFit := by
  refine takeExpiry_fits h e (fun u hu => ?_)
  split
  · exact carrierSilent_fits _ hu
  · exact hu

theorem execCallStatusScheduleExpiry_fits (context : ContextRef)
    (e : execCallStatusScheduleExpiry context s = .next t) : t.station.CapacitiesFit :=
  takeExpiry_fits h e (fun _ hu => statusDue_fits context hu)

theorem execRecoveryLimitExpiry_fits (e : execRecoveryLimitExpiry s = .next t) : t.station.CapacitiesFit :=
  takeExpiry_fits h e (fun _ hu => recoveryFails_fits hu)

/-! #### The cabinet monitor and the report unit -/

theorem execSample_fits (x y z : Int) (e : execSample x y z s = .next t) : t.station.CapacitiesFit :=
  takeEvent_fits h e (fun _ hu => takeSample_fits _ hu)

theorem execSensorSilence_fits (e : execSensorSilence s = .next t) : t.station.CapacitiesFit :=
  takeExpiry_fits h e (fun _ hu => sensorFalls_fits hu)

theorem execImpactQuietLimitExpiry_fits (e : execImpactQuietLimitExpiry s = .next t) :
    t.station.CapacitiesFit :=
  takeExpiry_fits h e (fun _ hu => closeImpact_fits hu)

theorem execStallCheckExpiry_fits (e : execStallCheckExpiry s = .next t) : t.station.CapacitiesFit :=
  takeExpiry_fits h e (fun _ hu => decideReports_fits hu)

theorem execReportAnswerTimerExpiry_fits (e : execReportAnswerTimerExpiry s = .next t) :
    t.station.CapacitiesFit := by
  refine takeExpiry_fits h e (fun u hu => ?_)
  split
  · split
    · exact askNext_fits _ _ hu
    · exact hu
  · exact hu

theorem execResultTimerExpiry_fits (e : execResultTimerExpiry s = .next t) : t.station.CapacitiesFit := by
  refine takeExpiry_fits h e (fun u hu => ?_)
  split
  · exact attemptFailed_fits _ hu
  · exact hu

theorem execRestTimerExpiry_fits (tag : Tag) (e : execRestTimerExpiry tag s = .next t) :
    t.station.CapacitiesFit :=
  takeExpiry_fits h e (fun _ hu => decideReports_fits (updReport_fits tag _ hu))

theorem execRelayRestTimerExpiry_fits (tag : Tag) (e : execRelayRestTimerExpiry tag s = .next t) :
    t.station.CapacitiesFit :=
  takeExpiry_fits h e (fun _ hu => decideRelay_fits (updRelay_fits tag _ hu))

theorem execRelayLifetimeExpiry_fits (tag : Tag) (e : execRelayLifetimeExpiry tag s = .next t) :
    t.station.CapacitiesFit :=
  takeExpiry_fits h e (fun _ hu => relayExpired_fits tag hu)

/-! #### The last rows of the table -/

theorem execKeepRailLost_fits (e : execKeepRailLost s = .next t) : t.station.CapacitiesFit :=
  takePin_fits h e (fun u _ => keepLost_fits u)

theorem execUnknownFrameKind_fits (kind : Byte) (f : RxFrame) (e : execUnknownFrameKind kind f s = .next t) :
    t.station.CapacitiesFit :=
  takeFrame_fits h e (fun _ hu => hu)

end

theorem exec_fits (c : Instr) {s t : State} (h : s.station.CapacitiesFit) (e : exec c s = .next t) :
    t.station.CapacitiesFit := by
  cases c
  -- rails, reset line, configuration memory, power unit, clock
  case keepRailApplied => exact execKeepRailApplied_fits h e
  case resetLineAsserted => exact execResetLineAsserted_fits h e
  case resetLineReleased => exact execResetLineReleased_fits h e
  case mainRailLost => exact execMainRailLost_fits h e
  case mainRailReturn => exact execMainRailReturn_fits h e
  case configReadComplete bytes => exact execConfigReadComplete_fits h bytes e
  case configReadLimitExpiry => exact execConfigReadLimitExpiry_fits h e
  case reloadReadComplete bytes => exact execReloadReadComplete_fits h bytes e
  case idleTimerExpiry => exact execIdleTimerExpiry_fits h e
  case checkInTimerExpiry => exact execCheckInTimerExpiry_fits h e
  case clockWrap => exact execClockWrap_fits h e
  -- frames taken from the corridor line, and timers of the blocks that take them
  case announce f => exact execAnnounce_fits h f e
  case peerAgeingExpiry address => exact execPeerAgeingExpiry_fits h address e
  case announcePeriodExpiry => exact execAnnouncePeriodExpiry_fits h e
  case solicitReplyDelayExpiry => exact execSolicitReplyDelayExpiry_fits h e
  case claim f => exact execClaim_fits h f e
  case contestTimerExpiry c => exact execContestTimerExpiry_fits h c e
  case orphanLimitExpiry c => exact execOrphanLimitExpiry_fits h c e
  case callStatus f => exact execCallStatus_fits h f e
  case borrowVoice f => exact execBorrowVoice_fits h f e
  case borrowReport f => exact execBorrowReport_fits h f e
  case lendCall f => exact execLendCall_fits h f e
  case lendReport f => exact execLendReport_fits h f e
  case declineCall f => exact execDeclineCall_fits h f e
  case declineReport f => exact execDeclineReport_fits h f e
  case connected f => exact execConnected_fits h f e
  case clear f => exact execClear_fits h f e
  case wakeFrame f => exact execWakeFrame_fits h f e
  case reportResult f => exact execReportResult_fits h f e
  case status f => exact execStatus_fits h f e
  case malformedFrame count => exact execMalformedFrame_fits h count e
  -- service frames
  case queryStation f => exact execQueryStation_fits h f e
  case queryFaults f => exact execQueryFaults_fits h f e
  case queryDirectory f => exact execQueryDirectory_fits h f e
  case queryCircuits f => exact execQueryCircuits_fits h f e
  case queryBearer f => exact execQueryBearer_fits h f e
  case queryQueues f => exact execQueryQueues_fits h f e
  case unknownSelector f => exact execUnknownSelector_fits h f e
  case clearFaults f => exact execClearFaults_fits h f e
  case restart f => exact execRestart_fits h f e
  case reload f => exact execReload_fits h f e
  case recapture f => exact execRecapture_fits h f e
  case unknownOrder f => exact execUnknownOrder_fits h f e
  -- the line and the station's own attempts
  case idleGap => exact execIdleGap_fits h e
  case lineBusy => exact execLineBusy_fits h e
  case backoffSlot => exact execBackoffSlot_fits h e
  case collision => exact execCollision_fits h e
  case transmissionComplete => exact execTransmissionComplete_fits h e
  -- the noise source
  case repetitionFailure => exact execRepetitionFailure_fits h e
  case proportionWindowJudged bits => exact execProportionWindowJudged_fits h bits e
  case drawConditioned noise => exact execDrawConditioned_fits h noise e
  -- indications at the bearer ports, and the bearers' timers
  case ready l => exact execReady_fits h l e
  case scanResult l items => exact execScanResult_fits h l items e
  case camped l network level => exact execCamped_fits h l network level e
  case level l level => exact execLevel_fits h l level e
  case progress l => exact execProgress_fits h l e
  case answered l => exact execAnswered_fits h l e
  case ended l reason => exact execEnded_fits h l reason e
  case reportSent l => exact execReportSent_fits h l e
  case reportFailed l => exact execReportFailed_fits h l e
  case lost l => exact execLost_fits h l e
  case fault l => exact execFault_fits h l e
  case undecodableIndication l kind params => exact execUndecodableIndication_fits h l kind params e
  case commandTimeout l => exact execCommandTimeout_fits h l e
  case dialAnswerLimitExpiry l => exact execDialAnswerLimitExpiry_fits h l e
  case rescanTimerExpiry l => exact execRescanTimerExpiry_fits h l e
  case barExpiry l network => exact execBarExpiry_fits h l network e
  case recheckTimerExpiry l => exact execRecheckTimerExpiry_fits h l e
  case failureWaitExpiry l => exact execFailureWaitExpiry_fits h l e
  case settlingGuardExpiry l => exact execSettlingGuardExpiry_fits h l e
  -- the caller panel
  case offHook => exact execOffHook_fits h e
  case onHook => exact execOnHook_fits h e
  case buttonInputPressed => exact execButtonInputPressed_fits h e
  case buttonPressCounts => exact execButtonPressCounts_fits h e
  case buttonReleaseCounts => exact execButtonReleaseCounts_fits h e
  case candidateFails => exact execCandidateFails_fits h e
  case buttonWindowExpiry => exact execButtonWindowExpiry_fits h e
  case failedPeriodExpiry => exact execFailedPeriodExpiry_fits h e
  -- the call engine's timers
  case answerTimeoutExpiry => exact execAnswerTimeoutExpiry_fits h e
  case wakeAllowanceExpiry => exact execWakeAllowanceExpiry_fits h e
  case awaitingConnectExpiry => exact execAwaitingConnectExpiry_fits h e
  case pauseExpiry => exact execPauseExpiry_fits h e
  case setupDeadlineExpiry => exact execSetupDeadlineExpiry_fits h e
  case partnerSilence => exact execPartnerSilence_fits h e
  case carrierPartnerSilence tag => exact execCarrierPartnerSilence_fits h tag e
  case callStatusScheduleExpiry context => exact execCallStatusScheduleExpiry_fits h context e
  case recoveryLimitExpiry => exact execRecoveryLimitExpiry_fits h e
  -- the cabinet monitor and the report unit
  case sample x y z => exact execSample_fits h x y z e
  case sensorSilence => exact execSensorSilence_fits h e
  case impactQuietLimitExpiry => exact execImpactQuietLimitExpiry_fits h e
  case stallCheckExpiry => exact execStallCheckExpiry_fits h e
  case reportAnswerTimerExpiry => exact execReportAnswerTimerExpiry_fits h e
  case resultTimerExpiry => exact execResultTimerExpiry_fits h e
  case restTimerExpiry tag => exact execRestTimerExpiry_fits h tag e
  case relayRestTimerExpiry tag => exact execRelayRestTimerExpiry_fits h tag e
  case relayLifetimeExpiry tag => exact execRelayLifetimeExpiry_fits h tag e
  -- the last rows of the table
  case keepRailLost => exact execKeepRailLost_fits h e
  case unknownFrameKind kind f => exact execUnknownFrameKind_fits h kind f e

theorem tick_fits {s : State} (h : s.station.CapacitiesFit) : (tick s).station.CapacitiesFit := by
  unfold tick
  dsimp only
  split
  · exact h
  · split <;> exact h

/-- Settles O14: every operation of the blocks keeps the capacities, so every command and the idle step do. -/
theorem stepsKeepCapacities : Obligations.StepsKeepCapacities := by
  intro s t hstep hfits
  unfold step at hstep
  split at hstep
  · next c rest _ => exact exec_fits c (s := { s with pending := rest }) hfits hstep
  · cases hstep
    exact tick_fits hfits

end Sys2Proof.Machine

/-! PROOFS. What the bearer managers' operations write (O15-O21, O23, O24): `Wrote` says of a chain of operations on one
bearer what its record is at the end, that nothing else of `kept` changed, and which notices its claimant was given. -/

namespace Sys2Proof.Machine

/-! ### One record written -/

/-- The claimant that holds a bearer. -/
def Bearer.holder (r : Bearer) : Option Claimant := r.alloc.map (·.who)

/-- A station `u` reached from a view `k` in which the bearer's record was `r`: the record is `q`, nothing else of `kept`
changed, and the claimant that held the bearer was given the notices `given`. -/
structure Wrote (l : Letter) (k : Kept) (r : Bearer) (u : Station) (q : Bearer) (given : List Notice) : Prop where
  bearer : u.bearer l = q
  kept : u.kept = k.withBearer l q
  noticed : ∀ who, r.holder = some who → ∀ n ∈ given, .notice who l n ∈ u.work

@[simp] theorem withBearer_clock (k : Kept) (l : Letter) (r : Bearer) : (k.withBearer l r).clock = k.clock := by
  cases l <;> rfl

theorem kept_withBearer_self (l : Letter) (s : Station) : s.kept.withBearer l (s.bearer l) = s.kept := by
  cases l <;> rfl

theorem sendCommand_posted (l : Letter) (c : Command) (r : Bearer) (s : Station) :
    ∀ t ∈ s.work, t ∈ (sendCommand l c r s).work :=
  (putBearer_frame l { r with inFlight := s.flight c } (emit (.port l (commandMessage c)) s)).2.2

theorem notify_posted (l : Letter) (n : Notice) (s : Station) : ∀ t ∈ s.work, t ∈ (notify l n s).work := by
  intro t ht
  unfold notify
  split
  · exact List.mem_append_left _ ht
  · exact ht

theorem notify_noticed {l : Letter} {n : Notice} {s : Station} {who : Claimant} (h : (s.bearer l).holder = some who) :
    .notice who l n ∈ (notify l n s).work := by
  obtain ⟨a, ha, rfl⟩ := Option.map_eq_some_iff.mp h
  exact notify_work ha

theorem Wrote.start (l : Letter) {u : Station} {k : Kept} (hk : u.kept = k) : Wrote l k (u.bearer l) u (u.bearer l) [] :=
  ⟨rfl, by rw [← hk, kept_withBearer_self], fun _ _ _ hn => absurd hn List.not_mem_nil⟩

theorem Wrote.ofEvent (l : Letter) (s : Station) : Wrote l s.kept (s.bearer l) (freshOut s) (s.bearer l) [] := by
  rw [← freshOut_bearer s l]
  exact Wrote.start l rfl

theorem Wrote.ofExpiry (l : Letter) (now : Stamp) (s : Station) :
    Wrote l { s.kept with clock := now } (s.bearer l) (atMoment now s) (s.bearer l) [] := by
  rw [← atMoment_bearer now s l]
  exact Wrote.start l rfl

section
variable {l : Letter} {k : Kept} {r : Bearer} {u : Station} {q : Bearer} {given : List Notice} (h : Wrote l k r u q given)
include h

theorem Wrote.clock : u.keep.clock = k.clock := by
  have := congrArg Kept.clock h.kept
  rwa [withBearer_clock] at this

theorem Wrote.within (d : Nat) : u.within d = Stamp.later k.clock d := congrArg (Stamp.later · d) h.clock

/-- A later write of the same record. -/
theorem Wrote.rewrite {v : Station} {p : Bearer} (hbearer : v.bearer l = p) (hkept : v.kept = u.kept.withBearer l p)
    (hposted : ∀ t ∈ u.work, t ∈ v.work) : Wrote l k r v p given :=
  ⟨hbearer, by rw [hkept, h.kept, withBearer_withBearer], fun who hw n hn => hposted _ (h.noticed who hw n hn)⟩

theorem Wrote.set (p : Bearer) : Wrote l k r (setBearer l p u) p given :=
  h.rewrite (by rw [setBearer_bearer_any, if_pos rfl]) (setBearer_kept_with l p u)
    (by rw [setBearer_work]; exact fun _ ht => ht)

theorem Wrote.put (p : Bearer) : Wrote l k r (putBearer l p u) p given :=
  h.rewrite (putBearer_bearer l p u) (putBearer_kept_with l p u) (putBearer_frame l p u).2.2

theorem Wrote.send (c : Command) (p : Bearer) :
    Wrote l k r (sendCommand l c p u)
      { p with inFlight := some ⟨c, (commandTimeoutMs c).map (Stamp.later k.clock)⟩ } given := by
  have hflight : u.flight c = some ⟨c, (commandTimeoutMs c).map (Stamp.later k.clock)⟩ := by
    unfold Station.flight
    rw [funext h.within]
  rw [← hflight]
  exact h.rewrite (sendCommand_bearer l c p u) (sendCommand_kept_with l c p u) (sendCommand_posted l c p u)

theorem Wrote.notify (n : Notice) (hq : q.holder = r.holder := by rfl) :
    Wrote l k r (notify l n u) q (given ++ [n]) := by
  refine ⟨by rw [notify_bearer, h.bearer], by rw [notify_kept, h.kept], fun who hw m hm => ?_⟩
  rcases List.mem_append.mp hm with hm | hm
  · exact notify_posted l n u _ (h.noticed who hw m hm)
  · rw [List.mem_singleton.mp hm]
    exact notify_noticed (by rw [h.bearer, hq, hw])

theorem Wrote.mono {fewer : List Notice} (hsub : fewer ⊆ given) : Wrote l k r u q fewer :=
  ⟨h.bearer, h.kept, fun who hw n hn => h.noticed who hw n (hsub hn)⟩

/-! ### The states entered -/

theorem Wrote.goSearching :
    Wrote l k r (goSearching l u)
      { q with
        state := .searching, inFlight := some ⟨.scan, some (Stamp.later k.clock 45000)⟩, camped := none, recheck := none
        owed := 0, alloc := none, rescan := none } given := by
  unfold Machine.goSearching
  rw [h.bearer]
  exact h.send .scan _

theorem Wrote.goAvailable : Wrote l k r (goAvailable l u) { q with state := .available, inFlight := none, alloc := none } given := by
  unfold Machine.goAvailable
  rw [h.bearer]
  exact h.put _

theorem Wrote.goChecking :
    Wrote l k r (goChecking l u)
      { q with state := .checking, owed := 0, alloc := none, inFlight := some ⟨.status, some (Stamp.later k.clock 3000)⟩ } given := by
  unfold Machine.goChecking
  rw [h.bearer]
  exact h.send .status _

theorem Wrote.goSettling (hq : q.holder = r.holder := by rfl) :
    Wrote l k r (goSettling l u)
      { q with
        state := .settling, inFlight := none, alloc := none, dialLimit := none, settle := some (Stamp.later k.clock 3000) }
      (given ++ [.released]) := by
  have hr := h.notify .released hq
  unfold Machine.goSettling
  dsimp only
  rw [hr.bearer, hr.within]
  exact hr.put _

theorem Wrote.hangUp :
    Wrote l k r (hangUp l u)
      { q with state := .ending, dialLimit := none, inFlight := some ⟨.hangup, some (Stamp.later k.clock 5000)⟩ } given := by
  unfold Machine.hangUp
  rw [h.bearer]
  exact h.send .hangup _

theorem Wrote.sendDial :
    Wrote l k r (sendDial l u)
      { q with state := .dialing, inFlight := some ⟨.dial, none⟩, dialLimit := some (Stamp.later k.clock 60000) } given := by
  unfold Machine.sendDial
  rw [h.bearer, h.within]
  exact h.send .dial _

theorem Wrote.startBearer :
    Wrote l k r (startBearer l u)
      { q with
        state := .starting, powered := true, failureWait := none
        inFlight := some ⟨.powerUp, some (Stamp.later k.clock 20000)⟩ } given := by
  have hpower : Wrote l k r (emit (.power l true) u) q given := ⟨h.bearer, h.kept, h.noticed⟩
  unfold Machine.startBearer
  rw [h.bearer]
  exact hpower.send .powerUp _

theorem Wrote.chooseNetwork_some {n : Nat × Nat}
    (hn : (q.networks.find? fun n => !q.barred.any fun b => b.1 == n.1) = some n) :
    Wrote l k r (chooseNetwork l u)
      { q with
        state := .camping, camped := none, recheck := none, owed := 0, alloc := none
        inFlight := some ⟨.camp n.1, some (Stamp.later k.clock 15000)⟩ } given := by
  have hel : q.uncamped.unallocated.eligible = some n.1 := by
    change Option.map (·.1) (q.networks.find? fun n => !q.barred.any fun b => b.1 == n.1) = some n.1
    rw [hn]
    rfl
  unfold Machine.chooseNetwork
  rw [h.bearer]
  dsimp only
  rw [hel]
  exact h.send (.camp n.1) _

theorem Wrote.chooseNetwork_none (hn : (q.networks.find? fun n => !q.barred.any fun b => b.1 == n.1) = none) :
    Wrote l k r (chooseNetwork l u)
      { q with
        state := .noService, camped := none, recheck := none, owed := 0, alloc := none, inFlight := none
        rescan := some (Stamp.later k.clock 10000) } given := by
  have hel : q.uncamped.unallocated.eligible = none := by
    change Option.map (·.1) (q.networks.find? fun n => !q.barred.any fun b => b.1 == n.1) = none
    rw [hn]
    rfl
  unfold Machine.chooseNetwork
  rw [h.bearer]
  dsimp only
  rw [hel, h.within]
  exact h.put _

theorem Wrote.recampFailed (hq : q.holder = r.holder := by rfl) :
    Wrote l k r (recampFailed l u)
      { q with
        state := .settling, camped := none, recheck := none, owed := 0, inFlight := none, alloc := none
        dialLimit := none, settle := some (Stamp.later k.clock 3000) }
      (given ++ [.dialFailed, .released]) := by
  have hd := h.notify .dialFailed hq
  unfold Machine.recampFailed
  dsimp only
  rw [hd.bearer]
  have := (hd.set { q with camped := none, recheck := none, owed := 0 }).goSettling hq
  rwa [List.append_assoc] at this

/-! ### The HANGUP answered (R52, R60) -/

theorem Wrote.hangUpAnswered_settles (hp : ∀ a, q.alloc = some a → a.preempt = false)
    (hq : q.holder = r.holder := by rfl) :
    Wrote l k r (hangUpAnswered l u)
      { q with
        state := .settling, inFlight := none, alloc := none, dialLimit := none, settle := some (Stamp.later k.clock 3000) }
      (given ++ [.released]) := by
  unfold Machine.hangUpAnswered
  rw [h.bearer]
  dsimp only
  split
  · next a ha =>
    rw [hp a ha]
    exact h.goSettling hq
  · exact h.goSettling hq

theorem Wrote.hangUpAnswered_reserves {a : Allocation} (ha : q.alloc = some a) (hp : a.preempt = true)
    (hk : a.keptDial = false) :
    Wrote l k r (hangUpAnswered l u)
      { q with
        state := .reserved, inFlight := none, alloc := some { a with preempt := false, keptDial := false } } given := by
  unfold Machine.hangUpAnswered
  rw [h.bearer]
  simp only [ha, hp, hk, if_true, Bool.false_eq_true, if_false]
  exact h.put _

theorem Wrote.hangUpAnswered_dials {a : Allocation} (ha : q.alloc = some a) (hp : a.preempt = true)
    (hk : a.keptDial = true) :
    Wrote l k r (hangUpAnswered l u)
      { q with
        state := .dialing, inFlight := some ⟨.dial, none⟩, dialLimit := some (Stamp.later k.clock 60000)
        alloc := some { a with preempt := false, keptDial := false } } given := by
  unfold Machine.hangUpAnswered
  rw [h.bearer]
  simp only [ha, hp, hk, if_true]
  exact (h.put _).sendDial

/-! ### A RECHECK claim decided (R47, R49) -/

theorem Wrote.recheckClaim :
    Wrote l k r (recheckClaim l u)
      (match q.state with
      | .available =>
        { q with
          state := .checking, alloc := none, owed := 0, inFlight := some ⟨.status, some (Stamp.later k.clock 3000)⟩ }
      | .reserved | .dialing | .ringing | .inCall | .sending | .ending | .settling =>
        { q with owed := min 4 (q.owed + 1) }
      | _ => q) given := by
  unfold Machine.recheckClaim
  rw [h.bearer]
  obtain ⟨state, powered, inFlight, camped, networks, barred, recheck, owed, alloc⟩ := q
  cases state
  case available => exact h.goChecking
  case reserved | dialing | ringing | inCall | sending | ending | settling => exact h.set _
  case off | starting | searching | noService | camping | checking | failed | failedHeld => exact h

/-! ### The settling guard ended (R61) -/

theorem Wrote.settled :
    Wrote l k r (settled l u)
      (match q.camped with
      | none =>
        { q with
          state := .searching, inFlight := some ⟨.scan, some (Stamp.later k.clock 45000)⟩, camped := none
          recheck := none, owed := 0, alloc := none, rescan := none }
      | some n =>
        if q.bars n.1 then
          match q.networks.find? fun m => !q.barred.any fun b => b.1 == m.1 with
          | some m =>
            { q with
              state := .camping, inFlight := some ⟨.camp m.1, some (Stamp.later k.clock 15000)⟩, camped := none
              recheck := none, owed := 0, alloc := none }
          | none =>
            { q with
              state := .noService, inFlight := none, camped := none, recheck := none, owed := 0, alloc := none
              rescan := some (Stamp.later k.clock 10000) }
        else if 0 < q.owed then
          { q with
            state := .checking, owed := 0, alloc := none
            inFlight := some ⟨.status, some (Stamp.later k.clock 3000)⟩ }
        else { q with state := .available, inFlight := none, alloc := none }) given := by
  unfold Machine.settled
  rw [h.bearer]
  obtain ⟨state, powered, inFlight, camped, networks, barred, recheck, owed⟩ := q
  cases camped with
  | none => exact h.goSearching
  | some n =>
    dsimp only
    split
    · split
      · next m hm => exact h.chooseNetwork_some hm
      · next hm => exact h.chooseNetwork_none hm
    · split
      · exact h.goChecking
      · exact h.goAvailable

/-! ### The end of the command -/

theorem Wrote.finished (ho : k.opState ≠ .standby) (hw : k.waitingEntry = false) :
    (finish u).kept = k.withBearer l q :=
  finish_kept_of h.kept (by rwa [withBearer_opState]) (by rwa [withBearer_waitingEntry])

end

/-! ### Commands that write one record -/

/-- An indication that a running station takes. -/
theorem takeIndication_taken {l : Letter} {test : Bearer → Bool} {f : Station → Station} {s : State}
    (hr : s.station.running = true) (hfit : s.station.fitted l = true) (ht : test (s.station.bearer l) = true) :
    takeIndication l test f s = .next { s with station := finish (f (freshOut s.station)) } := by
  unfold takeIndication
  rw [takeEvent_running hr, freshOut_fitted, freshOut_bearer, hfit, ht]
  rfl

section
variable {l : Letter} {f : Station → Station} {s : State} {q : Bearer} {given : List Notice} (hs : s.station.Awake)
include hs

/-- The conclusion the statements share: the command's own effect `u`, and how it shows at the end of the command. -/
theorem takeIndication_writes {test : Bearer → Bool} (hfit : s.station.fitted l = true)
    (ht : test (s.station.bearer l) = true)
    (h : Wrote l s.station.kept (s.station.bearer l) (f (freshOut s.station)) q given) :
    ∃ u, takeIndication l test f s = .next { s with station := finish u } ∧ u.bearer l = q ∧
      (finish u).kept = s.station.kept.withBearer l q ∧
      ∀ a, (s.station.bearer l).alloc = some a → ∀ n ∈ given, .notice a.who l n ∈ u.work := by
  exact ⟨_, takeIndication_taken hs.1 hfit ht, h.bearer, h.finished (awake_opState hs) (awake_waitingEntry hs),
    fun a ha => h.noticed a.who (by rw [Bearer.holder, ha]; rfl)⟩

theorem takeIndication_becomes {test : Bearer → Bool} (hfit : s.station.fitted l = true)
    (ht : test (s.station.bearer l) = true)
    (h : Wrote l s.station.kept (s.station.bearer l) (f (freshOut s.station)) q given) :
    ∃ t, takeIndication l test f s = .next t ∧ t.station.kept = s.station.kept.withBearer l q := by
  obtain ⟨_, hrun, -, hkept, -⟩ := takeIndication_writes hs hfit ht h
  exact ⟨_, hrun, hkept⟩

variable {timer : Station → Timer} {d now : Stamp}

/-- An expiry that writes one record, after what it may do to the rest of the view (`k`). -/
theorem takeExpiry_writes {k : Kept} (hd : timer (freshOut s.station) = some d)
    (hnow : now = Stamp.moment s.station.now d)
    (h : Wrote l k (s.station.bearer l) (f (atMoment now s.station)) q given)
    (ho : k.opState = s.station.kept.opState := by rfl)
    (hw : k.waitingEntry = s.station.kept.waitingEntry := by rfl) :
    ∃ u, takeExpiry timer f s = .next { s with station := finish u } ∧ u.bearer l = q ∧
      (finish u).kept = k.withBearer l q ∧
      ∀ a, (s.station.bearer l).alloc = some a → ∀ n ∈ given, .notice a.who l n ∈ u.work := by
  refine ⟨_, ?_, h.bearer, h.finished (ho ▸ awake_opState hs) (hw.trans (awake_waitingEntry hs)),
    fun a ha => h.noticed a.who (by rw [Bearer.holder, ha]; rfl)⟩
  rw [takeExpiry_running hs.1 hd, ← hnow]

theorem takeExpiry_becomes {k : Kept} (hd : timer (freshOut s.station) = some d)
    (hnow : now = Stamp.moment s.station.now d)
    (h : Wrote l k (s.station.bearer l) (f (atMoment now s.station)) q given)
    (ho : k.opState = s.station.kept.opState := by rfl)
    (hw : k.waitingEntry = s.station.kept.waitingEntry := by rfl) :
    ∃ t, takeExpiry timer f s = .next t ∧ t.station.kept = k.withBearer l q := by
  obtain ⟨_, hrun, -, hkept, -⟩ := takeExpiry_writes hs hd hnow h ho hw
  exact ⟨_, hrun, hkept⟩

/-- The same, the record named last. -/
theorem takeExpiry_wrote {k : Kept} (hd : timer (freshOut s.station) = some d)
    (hnow : now = Stamp.moment s.station.now d)
    (h : Wrote l k (s.station.bearer l) (f (atMoment now s.station)) q given)
    (ho : k.opState = s.station.kept.opState := by rfl)
    (hw : k.waitingEntry = s.station.kept.waitingEntry := by rfl) :
    ∃ u, takeExpiry timer f s = .next { s with station := finish u } ∧
      (finish u).kept = k.withBearer l (u.bearer l) ∧ u.bearer l = q := by
  obtain ⟨u, hrun, hu, hkept, -⟩ := takeExpiry_writes hs hd hnow h ho hw
  exact ⟨u, hrun, by rw [hu]; exact hkept, hu⟩

end

/-! ### The commands -/

/-- Settles O15: READY scans, SCAN_RESULT chooses the first network not barred or waits. -/
theorem readyScansAndScanChooses : Obligations.ReadyScansAndScanChooses := by
  intro l s hs hfit
  have w := Wrote.ofEvent l s.station
  refine ⟨fun hst => ?_, fun hst items => ?_⟩
  · change ∃ t, execReady l s = _ ∧ _
    refine takeIndication_becomes hs hfit (by rw [hst]; rfl) (given := []) ?_
    rw [freshOut_bearer]
    exact (w.set _).goSearching
  · change ∃ t, execScanResult l items s = _ ∧ _
    refine takeIndication_becomes hs hfit (by rw [hst]; rfl) (given := []) ?_
    rw [freshOut_bearer]
    dsimp only
    split
    · next n hn => exact (w.set _).chooseNetwork_some hn
    · next hn => exact (w.set _).chooseNetwork_none hn

theorem raisedUnless_opState (c : Prop) [Decidable c] (k : Kept) (f : FaultKind) :
    (if c then k else k.raised f).opState = k.opState := by
  split <;> rfl

theorem raisedUnless_waitingEntry (c : Prop) [Decidable c] (k : Kept) (f : FaultKind) :
    (if c then k else k.raised f).waitingEntry = k.waitingEntry := by
  split <;> rfl

/-- Settles O18: FAULT powers the module down and enters FAILED, or FAILED_HELD after three power cycles. -/
theorem faultFailsBearer : Obligations.FaultFailsBearer := by
  intro l s hs hfit r failed hoff hfailed hheld
  have htest : (r.state != .off && r.state != .failed && r.state != .failedHeld) = true := by
    simp [hoff, hfailed, hheld]
  have hrun : exec (.fault l) s = .next { s with station := finish (enterFailed l (freshOut s.station)) } := by
    change execFault l s = _
    exact takeIndication_taken hs.1 hfit htest
  have hkept := enterFailed_kept_with l (freshOut s.station)
  simp only [freshOut_bearer] at hkept
  refine ⟨fun hc => ⟨_, hrun, ?_⟩, fun hc => ⟨_, hrun, ?_⟩⟩
  · rw [if_neg hc] at hkept
    refine finish_kept_of hkept ?_ ?_
    · rw [withBearer_opState]
      exact awake_opState hs
    · rw [withBearer_waitingEntry]
      exact awake_waitingEntry hs
  · rw [if_pos hc] at hkept
    refine finish_kept_of hkept ?_ ?_
    · rw [raisedUnless_opState, withBearer_opState]
      exact awake_opState hs
    · rw [raisedUnless_waitingEntry, withBearer_waitingEntry]
      exact awake_waitingEntry hs

/-- Settles O20: the waits of a bearer expire. -/
theorem bearerWaitsExpire : Obligations.BearerWaitsExpire := by
  intro l s d now hs hnow r k
  have w := Wrote.ofExpiry l now s.station
  refine ⟨fun hd => ?_, fun hd => ?_, fun n hn => ?_⟩
  · change ∃ t, execRescanTimerExpiry l s = _ ∧ _
    exact takeExpiry_becomes hs (by rwa [freshOut_bearer]) hnow w.goSearching
  · change ∃ t, execFailureWaitExpiry l s = _ ∧ _
    refine takeExpiry_becomes hs (by rwa [freshOut_bearer]) hnow (given := []) ?_
    rw [atMoment_bearer]
    exact (w.set _).startBearer
  · change ∃ t, execBarExpiry l n s = _ ∧ _
    refine takeExpiry_becomes hs (by rw [freshOut_bearer, hn]; rfl) hnow (given := []) ?_
    rw [atMoment_bearer]
    exact w.set _

/-- Settles O23: the re-check timer restarts, and the bearer is checked or owes the re-check. -/
theorem recheckChecksOrIsOwed : Obligations.RecheckChecksOrIsOwed := by
  intro l d now s hs hd hnow r interval next
  have w := (Wrote.ofExpiry l now s.station).set next
  change ∃ u, execRecheckTimerExpiry l s = _ ∧ _
  refine takeExpiry_wrote hs (by rwa [freshOut_bearer]) hnow (given := []) ?_
  rw [atMoment_bearer]
  exact w.recheckClaim

/-- Settles O24: how a bearer goes on when its settling guard ends. -/
theorem settlingGuardEnds : Obligations.SettlingGuardEnds := by
  intro l d now s hs hd hnow r off
  have w := (Wrote.ofExpiry l now s.station).set { s.station.bearer l with settle := none }
  change ∃ u, execSettlingGuardExpiry l s = _ ∧ _
  refine takeExpiry_wrote hs (by rwa [freshOut_bearer]) hnow (given := []) ?_
  rw [atMoment_bearer]
  exact w.settled

end Sys2Proof.Machine

/-! PROOFS. How a bearer's dials, calls and reports end (O16, O17, O19, O21): the operations that several indications share,
as `Wrote` rules, then the commands. -/

namespace Sys2Proof.Machine

/-! ### LOST, state by state (R62) -/

section
variable {l : Letter} {u : Station}

theorem networkLost_of_campedIdle
    (h : (u.bearer l).state = .camping ∨ (u.bearer l).state = .available ∨ (u.bearer l).state = .checking) :
    networkLost l u = goSearching l u := by
  unfold networkLost
  rcases h with h | h | h <;> simp only [h]

theorem networkLost_of_reserved (h : (u.bearer l).state = .reserved) :
    networkLost l u = goSearching l (notify l .released (notify l .dialFailed u)) := by
  unfold networkLost
  simp only [h]

theorem networkLost_of_dialing (h : (u.bearer l).state = .dialing) :
    networkLost l u =
      if (u.bearer l).recamping then recampFailed l u
      else hangUp l (putBearer l (u.bearer l).uncamped (notify l .dialFailed u)) := by
  unfold networkLost
  simp only [h]

theorem networkLost_of_ringing (h : (u.bearer l).state = .ringing) :
    networkLost l u = hangUp l (putBearer l (u.bearer l).uncamped (notify l .dialFailed u)) := by
  unfold networkLost
  simp only [h]

theorem networkLost_of_inCall (h : (u.bearer l).state = .inCall) :
    networkLost l u = hangUp l (putBearer l (u.bearer l).uncamped (notify l .bearerLost u)) := by
  unfold networkLost
  simp only [h]

theorem networkLost_of_sending (h : (u.bearer l).state = .sending) :
    networkLost l u = hangUp l (putBearer l (u.bearer l).uncamped (notify l .reportFailed u)) := by
  unfold networkLost
  simp only [h]

theorem networkLost_of_ending (h : (u.bearer l).state = .ending) : networkLost l u = lostInEnding l u := by
  unfold networkLost
  simp only [h]

theorem networkLost_of_settling (h : (u.bearer l).state = .settling) :
    networkLost l u = putBearer l (u.bearer l).uncamped u := by
  unfold networkLost
  simp only [h]

theorem networkLost_of_offNetwork
    (h : (u.bearer l).state = .off ∨ (u.bearer l).state = .starting ∨ (u.bearer l).state = .searching ∨
      (u.bearer l).state = .noService ∨ (u.bearer l).state = .failed ∨ (u.bearer l).state = .failedHeld) :
    networkLost l u = u := by
  unfold networkLost
  rcases h with h | h | h | h | h | h <;> simp only [h]

theorem lostInEnding_of_free (h : (u.bearer l).alloc = none) :
    lostInEnding l u = putBearer l (u.bearer l).uncamped u := by
  unfold lostInEnding
  simp only [h]

theorem lostInEnding_of_held {a : Allocation} (h : (u.bearer l).alloc = some a) :
    lostInEnding l u =
      putBearer l { (u.bearer l).uncamped with alloc := some { a with preempt := false, keptDial := false } }
        (if a.preempt then notify l .dialFailed u else u) := by
  unfold lostInEnding
  simp only [h]

end

/-! ### The same as `Wrote` rules -/

section
variable {l : Letter} {k : Kept} {r : Bearer} {u : Station} {q : Bearer} {given : List Notice} (h : Wrote l k r u q given)
include h

theorem Wrote.clearTimeouts : Wrote l k r (clearTimeouts l u) { q with timeouts := 0 } given := by
  unfold Machine.clearTimeouts
  rw [h.bearer]
  exact h.set _

theorem Wrote.lostToHangup (n : Notice) (hq : q.holder = r.holder := by rfl) :
    Wrote l k r (Machine.hangUp l (putBearer l (u.bearer l).uncamped (Machine.notify l n u)))
      { q with
        state := .ending, camped := none, recheck := none, owed := 0, dialLimit := none
        inFlight := some ⟨.hangup, some (Stamp.later k.clock 5000)⟩ } (given ++ [n]) := by
  rw [h.bearer]
  exact ((h.notify n hq).put q.uncamped).hangUp

theorem Wrote.networkLost_dials (hst : q.state = .ringing ∨ q.state = .dialing ∧ q.recamping = false)
    (hq : q.holder = r.holder := by rfl) :
    Wrote l k r (networkLost l u)
      { q with
        state := .ending, camped := none, recheck := none, owed := 0, dialLimit := none
        inFlight := some ⟨.hangup, some (Stamp.later k.clock 5000)⟩ } (given ++ [.dialFailed]) := by
  rcases hst with hst | ⟨hst, hc⟩
  · rw [networkLost_of_ringing (by rw [h.bearer]; exact hst)]
    exact h.lostToHangup .dialFailed hq
  · rw [networkLost_of_dialing (by rw [h.bearer]; exact hst), if_neg (by rw [h.bearer, hc]; exact Bool.false_ne_true)]
    exact h.lostToHangup .dialFailed hq

theorem Wrote.lostInEnding_held {a : Allocation} (ha : q.alloc = some a) (hq : q.holder = r.holder := by rfl) :
    Wrote l k r (lostInEnding l u)
      { q with camped := none, recheck := none, owed := 0, alloc := some { a with preempt := false, keptDial := false } }
      (given ++ if a.preempt = true then [.dialFailed] else []) := by
  rw [lostInEnding_of_held (by rw [h.bearer]; exact ha), h.bearer]
  split
  · exact (h.notify .dialFailed hq).put _
  · rw [List.append_nil]
    exact h.put _

end

theorem recamping_of_camp {q : Bearer} {n : Nat} {x : Timer} (hst : q.state = .dialing)
    (hf : q.inFlight = some ⟨.camp n, x⟩) : q.recamping = true := by
  simp [Bearer.recamping, hf, hst]

theorem recamping_of_not_camp {q : Bearer} (hf : ∀ n x, q.inFlight ≠ some ⟨.camp n, x⟩) : q.recamping = false := by
  unfold Bearer.recamping
  split
  · next f hif =>
    split
    · next n hn => exact absurd (hif.trans (by rw [← hn])) (hf n f.timeout)
    · rfl
  · rfl

theorem recamping_of_dial {q : Bearer} (hd : q.dialInFlight = true) : q.recamping = false := by
  refine recamping_of_not_camp (fun n x hf => ?_)
  simp [Bearer.dialInFlight, hf] at hd

theorem state_of_dialInFlight {q : Bearer} (hd : q.dialInFlight = true) : q.state = .dialing ∨ q.state = .ringing := by
  unfold Bearer.dialInFlight at hd
  simp only [Bool.and_eq_true, Bool.or_eq_true, beq_iff_eq] at hd
  exact hd.1

/-! ### A network lost with the answer to the HANGUP (R60, R62) -/

section
variable {l : Letter} {k : Kept} {r : Bearer} {u : Station} {q : Bearer} {given : List Notice} (h : Wrote l k r u q given)
include h

theorem Wrote.lostFirst_free (hst : q.state = .ending) (ha : q.alloc = none) (hq : q.holder = r.holder := by rfl) :
    Wrote l k r (hangUpAnswered l (networkLost l u))
      { q with
        state := .settling, camped := none, recheck := none, owed := 0, inFlight := none, alloc := none
        dialLimit := none, settle := some (Stamp.later k.clock 3000) } (given ++ [.released]) := by
  rw [networkLost_of_ending (by rw [h.bearer]; exact hst), lostInEnding_of_free (by rw [h.bearer]; exact ha), h.bearer]
  exact (h.put q.uncamped).hangUpAnswered_settles (fun a hsome => absurd (ha.symm.trans hsome) (by simp)) hq

theorem Wrote.lostFirst_held {a : Allocation} (hst : q.state = .ending) (ha : q.alloc = some a)
    (hq : q.holder = r.holder := by rfl) :
    Wrote l k r (hangUpAnswered l (networkLost l u))
      { q with
        state := .settling, camped := none, recheck := none, owed := 0, inFlight := none, alloc := none
        dialLimit := none, settle := some (Stamp.later k.clock 3000) }
      ((given ++ if a.preempt = true then [.dialFailed] else []) ++ [.released]) := by
  have hlost := h.lostInEnding_held ha hq
  rw [networkLost_of_ending (by rw [h.bearer]; exact hst)]
  refine hlost.hangUpAnswered_settles (fun b hb => ?_) ?_
  · rw [← Option.some.inj hb]
  · rw [← hq, Bearer.holder, Bearer.holder, ha]
    rfl

end

/-! ### ENDED, by what it ends (R37) -/

section
variable {l : Letter} {s : State} {q : Bearer} {given : List Notice} {reason : EndReason} (hs : s.station.Awake)
  (hfit : s.station.fitted l = true)
include hs hfit

theorem ended_writes_inCall (hst : (s.station.bearer l).state = .inCall)
    (h : Wrote l s.station.kept (s.station.bearer l) (callEnded l reason (freshOut s.station)) q given) :
    ∃ u, execEnded l reason s = .next { s with station := finish u } ∧ u.bearer l = q ∧
      (finish u).kept = s.station.kept.withBearer l q ∧
      ∀ a, (s.station.bearer l).alloc = some a → ∀ n ∈ given, .notice a.who l n ∈ u.work := by
  refine takeIndication_writes hs hfit (by simp only [hst, beq_self_eq_true, Bool.or_true, Bool.true_or]) ?_
  rw [freshOut_bearer, hst]
  exact h

theorem ended_writes_ending (hst : (s.station.bearer l).state = .ending)
    (h : Wrote l s.station.kept (s.station.bearer l) (hangUpEnded l reason (freshOut s.station)) q given) :
    ∃ u, execEnded l reason s = .next { s with station := finish u } ∧ u.bearer l = q ∧
      (finish u).kept = s.station.kept.withBearer l q ∧
      ∀ a, (s.station.bearer l).alloc = some a → ∀ n ∈ given, .notice a.who l n ∈ u.work := by
  refine takeIndication_writes hs hfit (by simp only [hst, beq_self_eq_true, Bool.or_true]) ?_
  rw [freshOut_bearer, hst]
  exact h

theorem ended_writes_dial (hd : (s.station.bearer l).dialInFlight = true)
    (h : Wrote l s.station.kept (s.station.bearer l) (dialEnded l reason (freshOut s.station)) q given) :
    ∃ u, execEnded l reason s = .next { s with station := finish u } ∧ u.bearer l = q ∧
      (finish u).kept = s.station.kept.withBearer l q ∧
      ∀ a, (s.station.bearer l).alloc = some a → ∀ n ∈ given, .notice a.who l n ∈ u.work := by
  refine takeIndication_writes hs hfit (by simp only [hd, Bool.true_or]) ?_
  rw [freshOut_bearer]
  rcases state_of_dialInFlight hd with hst | hst <;> rw [hst] <;> exact h

end

/-- Settles O17: LOST takes a bearer off its network, as ENDED(NETWORK_LOST) does in a dial or a call. -/
theorem lostTakesBearerOffNetwork : Obligations.LostTakesBearerOffNetwork := by
  intro l s hs hfit r off ending writes searching
  have w := Wrote.ofEvent l s.station
  have hw : (freshOut s.station).bearer l = r := freshOut_bearer s.station l
  have lost : ∀ {q outcomes}, Wrote l s.station.kept r (networkLost l (freshOut s.station)) q outcomes →
      writes (.lost l) q outcomes := by
    intro q outcomes h
    change ∃ u, execLost l s = _ ∧ _
    exact takeIndication_writes hs hfit rfl h
  refine ⟨fun hst => lost ?_, fun hst => lost ?_, fun hst => lost ?_, fun hd => ?_, fun n x hst hf => lost ?_,
    fun hst => ⟨lost ?_, ?_⟩, fun hst => lost ?_, fun hst => ⟨fun ha => lost ?_, fun a ha => lost ?_⟩,
    fun hst => lost ?_, fun hst => ?_⟩
  · rw [networkLost_of_campedIdle (by rw [hw]; exact hst)]
    exact w.goSearching
  · rw [networkLost_of_reserved (by rw [hw]; exact hst)]
    exact ((w.notify .dialFailed).notify .released).goSearching
  · refine w.networkLost_dials (hst.imp_right fun hdial => ?_)
    exact ⟨hdial.1, recamping_of_not_camp hdial.2⟩
  · change ∃ u, execEnded l .networkLost s = _ ∧ _
    refine ended_writes_dial hs hfit hd (w.clearTimeouts.networkLost_dials ?_)
    exact (state_of_dialInFlight hd).symm.imp_right fun hst => ⟨hst, recamping_of_dial hd⟩
  · rw [networkLost_of_dialing (by rw [hw]; exact hst), if_pos (by rw [hw]; exact recamping_of_camp hst hf)]
    exact w.recampFailed
  · rw [networkLost_of_inCall (by rw [hw]; exact hst)]
    exact w.lostToHangup .bearerLost
  · change ∃ u, execEnded l .networkLost s = _ ∧ _
    refine ended_writes_inCall hs hfit hst ?_
    rw [callEnded, networkLost_of_inCall (by rw [hw]; exact hst)]
    exact w.lostToHangup .bearerLost
  · rw [networkLost_of_sending (by rw [hw]; exact hst)]
    exact w.lostToHangup .reportFailed
  · rw [networkLost_of_ending (by rw [hw]; exact hst), lostInEnding_of_free (by rw [hw]; exact ha), hw]
    exact w.put _
  · rw [networkLost_of_ending (by rw [hw]; exact hst)]
    exact w.lostInEnding_held ha
  · rw [networkLost_of_settling (by rw [hw]; exact hst), hw]
    exact w.put _
  · change ∃ t, execLost l s = _ ∧ _
    refine ⟨_, takeIndication_taken hs.1 hfit rfl, ?_⟩
    rw [networkLost_of_offNetwork (by rw [hw]; exact hst)]
    exact finish_core (freshOut_light _) hs.2.2

/-! ### ENDED(REJECTED) with the DIAL in flight (R42, R57) -/

theorem barNetwork_of_listed {n : Nat} {now : Stamp} {barred : List (Nat × Stamp)}
    (h : (barred.any fun b => b.1 == n) = true) :
    barNetwork n now barred = barred.map fun b => if b.1 = n then (n, Stamp.later now 600000) else b := by
  unfold barNetwork
  simp only [h, if_true, beq_iff_eq]

theorem barNetwork_of_room {n : Nat} {now : Stamp} {barred : List (Nat × Stamp)}
    (h : (barred.any fun b => b.1 == n) = false) (hr : barred.length < 4) :
    barNetwork n now barred = barred ++ [(n, Stamp.later now 600000)] := by
  unfold barNetwork
  simp only [h, Bool.false_eq_true, if_false, hr, if_true]

theorem barToReplace_some {barred : List (Nat × Stamp)} (h : 0 < barred.length) : ∃ old, barToReplace barred = some old := by
  cases barred with
  | nil => exact absurd h (Nat.lt_irrefl 0)
  | cons b bs =>
    unfold barToReplace
    split
    · exact ⟨_, rfl⟩
    · split <;> exact ⟨_, rfl⟩

theorem barNetwork_of_full {n : Nat} {now : Stamp} {barred : List (Nat × Stamp)}
    (h : (barred.any fun b => b.1 == n) = false) (hf : 4 ≤ barred.length) :
    ∃ old ∈ barred, (∀ b ∈ barred, Stamp.before b.2 old.2 = false ∧ (b.2 = old.2 → old.1 ≤ b.1)) ∧
      barNetwork n now barred = barred.map fun b => if b = old then (n, Stamp.later now 600000) else b := by
  obtain ⟨old, hold⟩ := barToReplace_some (Nat.lt_of_lt_of_le (by decide) hf)
  obtain ⟨hmem, hfirst⟩ := barToReplace_spec hold
  refine ⟨old, hmem, hfirst, ?_⟩
  unfold barNetwork
  simp only [h, Bool.false_eq_true, if_false, Nat.not_lt.mpr hf, hold, beq_iff_eq]

/-- The barred list after the camped network is rejected (R42). -/
def Bearer.barredAt (r : Bearer) (now : Stamp) : List (Nat × Stamp) :=
  match r.camped with
  | some n => barNetwork n.1 now r.barred
  | none => r.barred

/-- The record with the camped network barred and the dial over. -/
def Bearer.rejectedAt (r : Bearer) (now : Stamp) : Bearer :=
  { r with barred := r.barredAt now, dialLimit := none, inFlight := none }

/-- The first network of a record's list that a barred list leaves. -/
def Bearer.choiceAfter (r : Bearer) (barred : List (Nat × Stamp)) : Option (Nat × Nat) :=
  r.networks.find? fun m => !barred.any fun b => b.1 == m.1

theorem rejectedAt_eligible (r : Bearer) (now : Stamp) :
    (r.rejectedAt now).eligible = (r.choiceAfter (r.barredAt now)).map (·.1) := rfl

theorem dialRejected_eq (l : Letter) (u : Station) :
    dialRejected l u =
      match (u.bearer l).alloc, (u.bearer l).choiceAfter ((u.bearer l).barredAt u.now) with
      | some a, some m =>
        if a.redialUsed then goSettling l (notify l .dialFailed (setBearer l ((u.bearer l).rejectedAt u.now) u))
        else
          sendCommand l (.camp m.1)
            { (u.bearer l).rejectedAt u.now with state := .dialing, alloc := some { a with redialUsed := true } }
            (notify l .redialing u)
      | _, _ => goSettling l (notify l .dialFailed (setBearer l ((u.bearer l).rejectedAt u.now) u)) := by
  have helig := rejectedAt_eligible (u.bearer l) u.now
  change
    (match (u.bearer l).alloc, ((u.bearer l).rejectedAt u.now).eligible with
    | some a, some n =>
      if a.redialUsed then goSettling l (notify l .dialFailed (setBearer l ((u.bearer l).rejectedAt u.now) u))
      else
        sendCommand l (.camp n)
          { (u.bearer l).rejectedAt u.now with state := .dialing, alloc := some { a with redialUsed := true } }
          (notify l .redialing u)
    | _, _ => goSettling l (notify l .dialFailed (setBearer l ((u.bearer l).rejectedAt u.now) u))) = _
  rw [helig]
  cases (u.bearer l).alloc <;> cases (u.bearer l).choiceAfter ((u.bearer l).barredAt u.now) <;> rfl

section
variable {l : Letter} {k : Kept} {r : Bearer} {u : Station} {q : Bearer} {given : List Notice} (h : Wrote l k r u q given)
include h

theorem Wrote.dialRejected_recamps {a : Allocation} {m : Nat × Nat} (ha : q.alloc = some a) (hu : a.redialUsed = false)
    (hm : q.choiceAfter (q.barredAt k.clock) = some m) (hq : q.holder = r.holder := by rfl) :
    Wrote l k r (dialRejected l u)
      { q with
        state := .dialing, barred := q.barredAt k.clock, dialLimit := none
        inFlight := some ⟨.camp m.1, some (Stamp.later k.clock 15000)⟩
        alloc := some { a with redialUsed := true } } (given ++ [.redialing]) := by
  have hnow : u.now = k.clock := h.clock
  rw [dialRejected_eq, h.bearer, hnow, ha, hm]
  simp only [hu, Bool.false_eq_true, if_false]
  exact (h.notify .redialing hq).send (.camp m.1) _

theorem Wrote.dialRejected_settles
    (hno : (∀ a, q.alloc = some a → a.redialUsed = true) ∨ q.choiceAfter (q.barredAt k.clock) = none)
    (hq : q.holder = r.holder := by rfl) :
    Wrote l k r (dialRejected l u)
      { q with
        state := .settling, barred := q.barredAt k.clock, inFlight := none, alloc := none, dialLimit := none
        settle := some (Stamp.later k.clock 3000) } (given ++ [.dialFailed] ++ [.released]) := by
  have hnow : u.now = k.clock := h.clock
  have hgo := ((h.set (q.rejectedAt k.clock)).notify .dialFailed hq).goSettling hq
  rw [dialRejected_eq, h.bearer, hnow]
  split
  · next a m ha hm =>
    rcases hno with hused | hnone
    · rw [if_pos (hused a ha)]
      exact hgo
    · exact absurd (hnone.symm.trans hm) (by simp)
  · exact hgo

end

/-- Settles O16: what the answers that end a bearer's work write. -/
theorem endOfWorkSettles : Obligations.EndOfWorkSettles := by
  intro l s hs hfit r settling answered writes
  have w := Wrote.ofEvent l s.station
  have hw : (freshOut s.station).bearer l = r := freshOut_bearer s.station l
  refine ⟨fun hd => ⟨?_, r.barredAt s.station.now, ?_, ?_, ?_⟩, fun hst reason hreason => ?_, fun hst => ⟨?_, ?_⟩,
    fun hst => ⟨fun i hi => ?_, ?_, fun a ha hp => ?_⟩⟩
  · exact ended_writes_dial hs hfit hd ((w.clearTimeouts.notify .dialFailed).goSettling)
  · intro hc
    simp only [Bearer.barredAt, hc]
  · intro n level hc bar listed
    simp only [Bearer.barredAt, hc]
    exact ⟨barNetwork_of_listed, barNetwork_of_room, barNetwork_of_full⟩
  · intro choice
    refine ⟨fun a m ha hu hm => ?_, fun hno => ?_⟩
    · exact ended_writes_dial hs hfit hd (w.clearTimeouts.dialRejected_recamps ha hu hm)
    · exact ended_writes_dial hs hfit hd (w.clearTimeouts.dialRejected_settles hno)
  · refine ended_writes_inCall hs hfit hst ?_
    rcases hreason with rfl | rfl <;> exact (w.notify .farEnd).goSettling
  · change ∃ u, execReportSent l s = _ ∧ _
    exact takeIndication_writes hs hfit (by rw [hst]; rfl) ((w.clearTimeouts.notify .reportSent).goSettling)
  · change ∃ u, execReportFailed l s = _ ∧ _
    refine takeIndication_writes hs hfit (by rw [hst]; rfl) ?_
    rw [freshOut_bearer, hst]
    exact (w.clearTimeouts.notify .reportFailed).goSettling
  · have answers : ∀ {q outcomes},
        Wrote l s.station.kept r (hangUpAnswered l (clearTimeouts l (freshOut s.station))) q outcomes →
        writes i q outcomes := by
      intro q outcomes h
      simp only [List.mem_cons, List.not_mem_nil, or_false] at hi
      rcases hi with rfl | rfl | rfl
      · exact ended_writes_ending hs hfit hst h
      · exact ended_writes_ending hs hfit hst h
      · change ∃ u, execReportFailed l s = _ ∧ _
        refine takeIndication_writes hs hfit (by rw [hst]; rfl) ?_
        rw [freshOut_bearer, hst]
        exact h
    refine ⟨fun hp => answers (w.clearTimeouts.hangUpAnswered_settles hp), fun a ha hp => ⟨fun hk => ?_, fun hk => ?_⟩⟩
    · exact answers (w.clearTimeouts.hangUpAnswered_reserves ha hp hk)
    · exact answers (w.clearTimeouts.hangUpAnswered_dials ha hp hk)
  · cases ha : r.alloc with
    | none => exact ended_writes_ending hs hfit hst (w.clearTimeouts.lostFirst_free hst ha)
    | some a =>
      refine ended_writes_ending hs hfit hst ((w.clearTimeouts.lostFirst_held hst ha).mono ?_)
      exact List.subset_append_right _ _
  · refine ended_writes_ending hs hfit hst ((w.clearTimeouts.lostFirst_held hst ha).mono ?_)
    rw [hp]
    exact List.Subset.refl _

end Sys2Proof.Machine

/-! PROOFS. A bearer that becomes available, a command that is timed out, and a dial that goes through (O19, O21, O22, O25). -/

namespace Sys2Proof.Machine

/-! ### AVAILABLE entered (R41, R48) -/

theorem recheckMs_gradeOfLevel (n : Nat) :
    recheckMs (gradeOfLevel n) = if n ≤ 9 then 30000 else if n ≤ 29 then 60000 else 120000 := by
  unfold recheckMs gradeOfLevel
  split
  · rfl
  · split <;> rfl

theorem flies_of_inFlight {r : Bearer} {c : Command} {x : Timer} (h : r.inFlight = some ⟨c, x⟩) : r.flies c = true := by
  simp [Bearer.flies, h]

section
variable {l : Letter} {k : Kept} {r : Bearer} {u : Station} {q : Bearer} {given : List Notice} (h : Wrote l k r u q given)
include h

theorem Wrote.goAvailable_posts (hst : q.state ≠ .available) : .bearerAvailable l ∈ (Machine.goAvailable l u).work :=
  goAvailable_work (by rw [h.bearer]; exact hst)

end

/-- The conclusion of the statements that say which notice waits when the command's own effect is done. -/
theorem takeIndication_posts {l : Letter} {f : Station → Station} {s : State} {q : Bearer} {given : List Notice}
    {test : Bearer → Bool} {task : Task} (hs : s.station.Awake) (hfit : s.station.fitted l = true)
    (ht : test (s.station.bearer l) = true)
    (h : Wrote l s.station.kept (s.station.bearer l) (f (freshOut s.station)) q given)
    (hpost : task ∈ (f (freshOut s.station)).work) :
    ∃ u, takeIndication l test f s = .next { s with station := finish u } ∧ u.bearer l = q ∧
      (finish u).kept = s.station.kept.withBearer l (u.bearer l) ∧ task ∈ u.work :=
  ⟨_, takeIndication_taken hs.1 hfit ht, h.bearer,
    by rw [h.bearer]; exact h.finished (awake_opState hs) (awake_waitingEntry hs), hpost⟩

theorem takeIndication_wrote {l : Letter} {f : Station → Station} {s : State} {q : Bearer} {given : List Notice}
    {test : Bearer → Bool} (hs : s.station.Awake) (hfit : s.station.fitted l = true)
    (ht : test (s.station.bearer l) = true)
    (h : Wrote l s.station.kept (s.station.bearer l) (f (freshOut s.station)) q given) :
    ∃ u, takeIndication l test f s = .next { s with station := finish u } ∧ u.bearer l = q ∧
      (finish u).kept = s.station.kept.withBearer l (u.bearer l) :=
  ⟨_, takeIndication_taken hs.1 hfit ht, h.bearer,
    by rw [h.bearer]; exact h.finished (awake_opState hs) (awake_waitingEntry hs)⟩

/-- Settles O21: CAMPED and LEVEL make a bearer available, or dial again. -/
theorem campedAndLevelMakeAvailable : Obligations.CampedAndLevelMakeAvailable := by
  intro l level x s hs hfit hlevel r interval
  have w := Wrote.ofEvent l s.station
  have hle : decide (level.toNat ≤ 63) = true := decide_eq_true hlevel
  refine ⟨fun n hf => ⟨fun hst => ?_, fun hst => ?_⟩, fun hst hf => ?_⟩
  · change ∃ u, execCamped l n level s = _ ∧ _
    have wput := w.put
      { r with
        timeouts := 0, camped := some (n.toNat, level.toNat), owed := 0
        recheck := some (s.station.within (recheckMs (gradeOfLevel level.toNat))) }
    have hint : interval = recheckMs (gradeOfLevel level.toNat) := (recheckMs_gradeOfLevel level.toNat).symm
    refine takeIndication_posts (given := []) hs hfit (by rw [hst, flies_of_inFlight hf, hle]; rfl) ?_ ?_
    all_goals rw [freshOut_bearer, if_pos hst, campedHere, freshOut_bearer]
    · rw [hint]
      exact wput.goAvailable
    · exact wput.goAvailable_posts (by simp [hst])
  · change ∃ u, execCamped l n level s = _ ∧ _
    refine takeIndication_wrote hs hfit (by rw [hst, flies_of_inFlight hf, hle]; rfl) (given := []) ?_
    rw [freshOut_bearer, if_neg (fun e => absurd (hst.symm.trans e) (by decide)), recamped, freshOut_bearer]
    exact (w.put _).sendDial
  · change ∃ u, execLevel l level s = _ ∧ _
    have wput := w.put { r with timeouts := 0, camped := r.camped.map fun n => (n.1, level.toNat) }
    refine takeIndication_posts hs hfit (by rw [hst, flies_of_inFlight hf, hle]; rfl) ?_ ?_ (given := [])
    all_goals rw [freshOut_bearer]
    · exact wput.goAvailable
    · exact wput.goAvailable_posts (by simp [hst])

/-! ### A command timed out (R44-R46) -/

theorem commandTimedOut_first {l : Letter} {c : Command} {u : Station} (h : (u.bearer l).timeouts = 0) :
    commandTimedOut l c u =
      afterTimeout l c (setBearer l { u.bearer l with inFlight := none, timeouts := 1 } (raise .bearerTimeout u)) := by
  unfold commandTimedOut
  simp only [raise_bearer, h, Nat.zero_add, if_neg (show ¬ 2 ≤ 1 by decide)]

theorem commandTimedOut_second {l : Letter} {c : Command} {u : Station} (h : 1 ≤ (u.bearer l).timeouts) :
    commandTimedOut l c u =
      enterFailed l (setBearer l { u.bearer l with inFlight := none, timeouts := 0 } (raise .bearerTimeout u)) := by
  unfold commandTimedOut
  simp only [raise_bearer, if_pos (Nat.succ_le_succ h)]

/-- Settles O19: a command's first timeout sends it again or goes on without its answer, a second one fails the bearer. -/
theorem commandTimeoutRetriesThenFails : Obligations.CommandTimeoutRetriesThenFails := by
  intro l s d now c hs hnow r k once off settling becomes writes hf
  have hu : (atMoment now s.station).bearer l = r := atMoment_bearer now s.station l
  have hrun : exec (.commandTimeout l) s =
      .next { s with station := finish (commandTimedOut l c (atMoment now s.station)) } := by
    change execCommandTimeout l s = _
    unfold execCommandTimeout
    rw [takeExpiry_running (d := d) hs.1 (by rw [freshOut_bearer]; change r.inFlight.bind _ = _; rw [hf]; rfl), ← hnow,
      hu, hf]
  have w : Wrote l k r (raise .bearerTimeout (atMoment now s.station)) r [] := by
    have hstart := Wrote.start l (k := k) (u := raise .bearerTimeout (atMoment now s.station)) (raise_kept_raised _ _)
    rwa [raise_bearer, hu] at hstart
  refine ⟨fun ht => ?_, fun ht => ?_⟩
  · rw [commandTimedOut_first (by rw [hu]; exact ht), hu] at hrun
    have w1 := w.set { r with inFlight := none, timeouts := 1 }
    have timed : ∀ {q given}, Wrote l k r (afterTimeout l c
        (setBearer l { r with inFlight := none, timeouts := 1 } (raise .bearerTimeout (atMoment now s.station)))) q given →
        becomes q :=
      fun h => ⟨_, hrun, h.finished (awake_opState hs) (awake_waitingEntry hs)⟩
    have posted : ∀ {q given posts}, Wrote l k r (afterTimeout l c
        (setBearer l { r with inFlight := none, timeouts := 1 } (raise .bearerTimeout (atMoment now s.station)))) q given →
        (∀ x ∈ posts, x ∈ (afterTimeout l c
          (setBearer l { r with inFlight := none, timeouts := 1 } (raise .bearerTimeout (atMoment now s.station)))).work) →
        writes q posts :=
      fun h hposts => ⟨_, hrun, h.bearer, h.finished (awake_opState hs) (awake_waitingEntry hs), hposts⟩
    refine ⟨?_, ?_, ?_, ?_, ?_, ?_, ?_, ?_⟩
    · rintro rfl
      refine timed (given := []) ?_
      rw [afterTimeout, w1.bearer]
      exact w1.send .powerUp _
    · rintro rfl
      refine timed (given := []) ?_
      rw [afterTimeout, w1.bearer]
      exact w1.send .scan _
    · rintro hst ⟨n, rfl⟩
      refine timed (given := []) ?_
      rw [afterTimeout, w1.bearer, if_neg (fun e => absurd (hst.symm.trans e) (by decide))]
      exact w1.goSearching
    · rintro hst ⟨n, rfl⟩
      refine timed (given := [.dialFailed, .released]) ?_
      rw [afterTimeout, w1.bearer, if_pos (by exact hst)]
      exact w1.recampFailed
    · rintro hst rfl
      refine posted w1.goAvailable ?_
      rw [List.forall_mem_singleton]
      exact w1.goAvailable_posts (fun e => absurd (hst.symm.trans e) (by decide))
    · rintro rfl hp
      exact timed (w1.hangUpAnswered_settles hp)
    · rintro a rfl ha hp kept
      refine ⟨fun hk => ?_, fun hk => ?_⟩
      · exact posted (w1.hangUpAnswered_reserves ha hp hk) (fun _ hx => absurd hx List.not_mem_nil)
      · exact posted (w1.hangUpAnswered_dials ha hp hk) (fun _ hx => absurd hx List.not_mem_nil)
    · rintro a rfl ha
      have whung := (w1.notify .reportFailed).hangUp
      refine posted whung ?_
      rw [List.forall_mem_singleton]
      exact whung.noticed a.who (by rw [Bearer.holder, ha]; rfl) _ (List.mem_singleton.mpr rfl)
  · intro failed
    rw [commandTimedOut_second (by rw [hu]; exact ht), hu] at hrun
    have w0 := w.set { r with inFlight := none, timeouts := 0 }
    have hkept := enterFailed_kept_with l
      (setBearer l { r with inFlight := none, timeouts := 0 } (raise .bearerTimeout (atMoment now s.station)))
    have hother : (setBearer l { r with inFlight := none, timeouts := 0 }
        (raise .bearerTimeout (atMoment now s.station))).bearer (otherBearer l) = s.station.bearer (otherBearer l) := by
      rw [setBearer_bearer_any, if_neg (by cases l <;> decide), raise_bearer, atMoment_bearer]
    simp only [w0.bearer, w0.kept, w0.within, withBearer_withBearer, hother] at hkept
    refine ⟨fun hc => ⟨_, hrun, ?_⟩, fun hc => ⟨_, hrun, ?_⟩⟩
    · rw [if_neg hc] at hkept
      refine finish_kept_of hkept ?_ ?_
      · rw [withBearer_opState]
        exact awake_opState hs
      · rw [withBearer_waitingEntry]
        exact awake_waitingEntry hs
    · rw [if_pos hc] at hkept
      refine finish_kept_of hkept ?_ ?_
      · rw [raisedUnless_opState, withBearer_opState]
        exact awake_opState hs
      · rw [raisedUnless_waitingEntry, withBearer_waitingEntry]
        exact awake_waitingEntry hs

end Sys2Proof.Machine

/-! PROOFS. A dial that goes through, or ends (O22, O25): the notices that the end of a command takes first, the bridge that
ANSWERED adds, and the commands. -/

namespace Sys2Proof.Machine

/-! ### The first notices of the end of a command -/

theorem drain_drain (m n : Nat) (s : Station) : drain n (drain m s) = drain (m + n) s := by
  induction m generalizing s with
  | zero => rw [Nat.zero_add, drain]
  | succ m ih =>
    rw [Nat.succ_add]
    cases hw : s.work with
    | nil => rw [drain_nil _ hw, drain_nil _ hw, drain_nil _ hw]
    | cons t rest => rw [drain_cons hw, drain_cons hw, ih]

/-- Once the first notices are taken and none is left that a block takes, the end of the command leaves `core` and the frames
but the ANNOUNCE as they are. -/
theorem finish_drained {s : Station} {n : Nat} (hn : n ≤ 256) (hl : (drain n s).light)
    (hp : (drain n s).power.progress ≠ .waitingEntry) :
    (finish s).core = (drain n s).core ∧
      ∀ c e, c.isAnnounce = false → (drain n s).holdsFrame c e = true → (finish s).holdsFrame c e = true := by
  have hd : drain 256 s = drain (256 - n) (drain n s) := by rw [drain_drain, Nat.add_sub_cancel' hn]
  obtain ⟨c1, l1, k1⟩ := drain_light (256 - n) hl
  have hp1 := kept_waitingEntry k1 hp
  obtain ⟨c2, -, -⟩ := drain_light 128 (upkeep_light hp1 l1)
  unfold finish
  rw [hd]
  refine ⟨by rw [pump_core, keepIdle_core, c2, upkeep_core hp1, c1], fun c e hc h => ?_⟩
  exact pump_keeps (keepIdle_keeps (drain_keeps _ hc (upkeep_light hp1 l1) (upkeep_keeps hc hp1 (drain_keeps _ hc hl h))))

/-- A command that posted one notice: what holds once it is taken, where taking it posts none. -/
theorem finish_posted {s v : Station} {t : Task} (hs : s.work = []) (hv : takeTask t s = v) (hl : v.light)
    (hp : v.power.progress ≠ .waitingEntry) :
    (finish (post t s)).core = v.core ∧
      ∀ c e, c.isAnnounce = false → v.holdsFrame c e = true → (finish (post t s)).holdsFrame c e = true := by
  have hd : drain 1 (post t s) = v := by
    rw [drain_cons (rest := []) (by rw [post, hs]; rfl), drain, ← hv]
    congr 1
    cases s
    cases hs
    rfl
  have := finish_drained (s := post t s) (n := 1) (by decide)
  rw [hd] at this
  exact this hl hp

/-! ### ANSWERED (R56) -/

/-- The record of a bearer whose dial is answered. -/
def Bearer.answered (r : Bearer) : Bearer := { r with state := .inCall, timeouts := 0, inFlight := none, dialLimit := none }

/-- A record that leaves neither IN_CALL nor its class and grade, and does not enter AVAILABLE, is replaced silently. -/
theorem putBearer_silent {l : Letter} {q : Bearer} {s : Station} (hcall : (s.bearer l).state ≠ .inCall)
    (hcls : (s.bearer l).cls = q.cls) (hgrade : (s.bearer l).grade = q.grade) (hav : q.state ≠ .available) :
    putBearer l q s = setBearer l q s := by
  have hin : ((s.bearer l).state == BearerState.inCall) = false := beq_false_of_ne hcall
  have ha : (q.state == BearerState.available) = false := beq_false_of_ne hav
  unfold putBearer
  simp [hin, ha, hcls, hgrade]

theorem answered_silent {l : Letter} {s : Station} (hst : (s.bearer l).state = .dialing ∨ (s.bearer l).state = .ringing) :
    putBearer l (s.bearer l).answered s = setBearer l (s.bearer l).answered s := by
  refine putBearer_silent ?_ ?_ rfl (fun e => absurd (show BearerState.inCall = .available from e) (by decide))
  · rcases hst with h | h <;> rw [h] <;> decide
  · rcases hst with h | h <;> simp [Bearer.cls, Bearer.answered, h, BearerState.summaryClass]

/-- ANSWERED for a bearer that a claimant dials on: the record, and the notice to the claimant. -/
theorem answered_runs {l : Letter} {a : Allocation} {s : State} (hs : s.station.Awake) (hfit : s.station.fitted l = true)
    (hst : (s.station.bearer l).state = .dialing ∨ (s.station.bearer l).state = .ringing)
    (ha : (s.station.bearer l).alloc = some a) :
    exec (.answered l) s =
      .next
        { s with
          station :=
            finish (post (.notice a.who l .answered) (setBearer l (s.station.bearer l).answered (freshOut s.station))) } := by
  change execAnswered l s = _
  unfold execAnswered
  rw [takeIndication_taken hs.1 hfit (by rcases hst with h | h <;> rw [h] <;> rfl)]
  have hsilent := answered_silent (l := l) (s := freshOut s.station) (by rw [freshOut_bearer]; exact hst)
  rw [freshOut_bearer] at hsilent ⊢
  change Host.Outcome.next { s with station := finish (notify l .answered (putBearer l (s.station.bearer l).answered _)) } = _
  rw [hsilent, notify, setBearer_bearer_any, if_pos rfl]
  simp only [Bearer.answered, ha]

/-! ### The bridges that an answer adds (R119, R120) -/

theorem addBridge_overTone {m : Mode} {l : Letter} {t : Tag} {v : Station}
    (ha : v.audio = [⟨.tone, m.callerEnd, .origin t⟩]) (hin : (v.bearer l).state = .inCall) :
    addBridge ⟨m.callerEnd, .bearer l, .origin t⟩ v =
      .ok { v with audio := [⟨m.callerEnd, .bearer l, .origin t⟩] } := by
  cases m <;>
    simp [Mode.callerEnd, addBridge, pairAllowed, End.isCaller, Station.endInCall, Station.endGuarded, hin, ha,
      Bridge.meets, Bridge.replaceable, Owner.isOrigin]

/-- A notice of the panel where no bridge is the panel's: the FAILED period is over, the tone and the lamp are selected. -/
theorem showNotice_eq {v : Station} (tone : Tone) (lamp : Lamp) (ha : ∀ b ∈ v.audio, b.owner ≠ .panel) :
    showNotice tone lamp v = { v with panel := { v.panel with failed := none, tone := tone, lamp := lamp } } := by
  have hkeep : v.audio.filter (fun b => b.owner != .panel) = v.audio :=
    List.filter_eq_self.mpr fun b hb => bne_iff_ne.mpr (ha b hb)
  unfold showNotice endFailed
  split
  · simp only [removeBridges, hkeep]
  · next hf =>
    rw [Bool.not_eq_true, Option.isSome_eq_false_iff, Option.isNone_iff_eq_none] at hf
    rw [← hf]

theorem connectLocal_core {l : Letter} {o : Origin} {v : Station} (ho : v.call.origin = some o)
    (hp : o.phase = .dialingLocal) (hc : o.connected = false) (hf : v.keep.tally.frozen = false)
    (ha : v.audio = [⟨.tone, o.mode.callerEnd, .origin o.tag⟩]) (hin : (v.bearer l).state = .inCall) :
    (connectLocal l v).core =
        { v.core with
          tally := { v.keep.tally with connected := v.keep.tally.connected + 1 }
          call :=
            { v.call with
              origin :=
                some
                  { o with
                    phase := .connected, phaseDeadline := none, step := .none, stepDeadline := none
                    setupDeadline := none, connected := true } }
          audio := [⟨o.mode.callerEnd, .bearer l, .origin o.tag⟩]
          panel := { v.panel with failed := none, tone := .none, lamp := .steady } } ∧
      (connectLocal l v).work = v.work ∧ (connectLocal l v).power = v.power := by
  have hconn : enterConnected v =
      { v with
        keep.tally := { v.keep.tally with connected := v.keep.tally.connected + 1 }
        call.origin :=
          some
            { o with
              phase := .connected, phaseDeadline := none, step := .none, stepDeadline := none
              setupDeadline := none, connected := true } } := by
    unfold enterConnected
    simp [ho, hc, tallyUp, hf, updOrigin]
  have hbridge := addBridge_overTone (v := enterConnected v) (l := l) (m := o.mode)
    (by rw [hconn]; exact ha) (by rw [hconn]; exact hin)
  unfold connectLocal
  rw [ho]
  dsimp only
  rw [if_neg (by rw [hp]; decide), hbridge]
  dsimp only
  rw [hconn]
  unfold showConnected
  rw [showNotice_eq .none .steady (by simp)]
  exact ⟨rfl, rfl, rfl⟩

/-- Settles O25: ANSWERED connects a local call. -/
theorem answeredConnectsLocalCall : Obligations.AnsweredConnectsLocalCall := by
  intro l a o s hs hfit hst ha hwho ho hphase hcarrier hconn hfrozen haudio
  refine ⟨_, answered_runs hs hfit hst ha, ?_⟩
  have hcall : (setBearer l (s.station.bearer l).answered (freshOut s.station)).call.origin = some o := by
    rw [setBearer_call]
    exact ho
  obtain ⟨hcore, hwork, hpower⟩ := connectLocal_core (l := l) hcall hphase hconn
    (by rw [setBearer_keep]; exact hfrozen) (by rw [setBearer_audio]; exact haudio)
    (by rw [setBearer_bearer_any, if_pos rfl]; rfl)
  have htake : takeTask (.notice a.who l .answered) (setBearer l (s.station.bearer l).answered (freshOut s.station)) =
      connectLocal l (setBearer l (s.station.bearer l).answered (freshOut s.station)) := by
    rw [hwho, takeTask, takeNotice, originNotice, hcall]
    simp [hcarrier, Origin.activity, hphase]
  rw [setBearer_work] at hwork
  rw [setBearer_power] at hpower
  rw [(finish_posted (setBearer_work _ _ _) htake (light_of_nil hwork) (by rw [hpower]; exact hs.2.2)).1, hcore]
  cases l <;> rfl

/-! ### A lent call answered (R85) -/

theorem tallyLent_eq {v : Station} (hf : v.keep.tally.frozen = false) (hl : v.keep.tally.lent ≠ 4294967295) :
    tallyLent v = { v with keep.tally := { v.keep.tally with lent := v.keep.tally.lent + 1 } } := by
  unfold tallyLent countUp
  rw [if_neg (by rw [hf]; exact Bool.false_ne_true), if_neg hl]

/-- A lent call's bearer is joined to the circuit's far side where no bridge has either end and the list has room. -/
theorem addBridge_lent {l : Letter} {k : Carrier} {v : Station} {start refreshed : Stamp}
    (hin : (v.bearer l).state = .inCall) (he : v.entry k.circuit = .heldByPeer k.tag.origin k.tag start refreshed)
    (hfree : ∀ b ∈ v.audio, ∀ e ∈ [b.left, b.right], e ≠ .bearer l ∧ e ≠ .farSide k.circuit) (hroom : v.audio.length < 4) :
    addBridge ⟨.bearer l, .farSide k.circuit, .carrier k.tag⟩ v =
      .ok { v with audio := v.audio ++ [⟨.bearer l, .farSide k.circuit, .carrier k.tag⟩] } := by
  have hmeets : ∀ b ∈ v.audio, b.meets ⟨.bearer l, .farSide k.circuit, .carrier k.tag⟩ = false := by
    intro b hb
    have hl := hfree b hb b.left (by simp)
    have hr := hfree b hb b.right (by simp)
    simp [Bridge.meets, hl, hr]
  have hany : (v.audio.any fun b => b.meets ⟨.bearer l, .farSide k.circuit, .carrier k.tag⟩ &&
      !Bridge.replaceable ⟨.bearer l, .farSide k.circuit, .carrier k.tag⟩ b) = false := by
    rw [List.any_eq_false]
    intro b hb
    simp [hmeets b hb]
  have hkeep : (v.audio.filter fun b => !b.meets ⟨.bearer l, .farSide k.circuit, .carrier k.tag⟩) = v.audio :=
    List.filter_eq_self.mpr fun b hb => by simp [hmeets b hb]
  unfold addBridge
  dsimp only
  rw [hany, hkeep, if_pos hroom]
  simp [pairAllowed, Station.endInCall, Station.endGuarded, Station.mayBridge, hin, he]

/-- A lent call is connected (R85). -/
theorem carrierAnswered_effect {l : Letter} {k : Carrier} {v : Station} {start refreshed : Stamp}
    (hk : v.carrier? k.tag = some k) (hl : k.letter = l) (hp : k.phase = .dialing ∨ k.phase = .ringing)
    (hin : (v.bearer l).state = .inCall) (he : v.entry k.circuit = .heldByPeer k.tag.origin k.tag start refreshed)
    (hfree : ∀ b ∈ v.audio, ∀ e ∈ [b.left, b.right], e ≠ .bearer l ∧ e ≠ .farSide k.circuit) (hroom : v.audio.length < 4)
    (hf : v.keep.tally.frozen = false) (hlent : v.keep.tally.lent ≠ 4294967295) (hact : v.power.opState = .active)
    (hline : v.line.total < 7) (hlight : v.light) :
    (carrierNotice k.tag l .answered v).core =
        { v.core with
          tally := { v.keep.tally with lent := v.keep.tally.lent + 1 }
          call :=
            { v.call with
              carriers := v.call.carriers.map fun q => if q.tag = k.tag then { q with phase := .connected } else q }
          audio := v.audio ++ [⟨.bearer l, .farSide k.circuit, .carrier k.tag⟩] } ∧
      (carrierNotice k.tag l .answered v).light ∧
      (carrierNotice k.tag l .answered v).power = v.power ∧
      (carrierNotice k.tag l .answered v).holdsFrame (.connected k.tag) k.tag.origin = true := by
  have hgo : carrierNotice k.tag l .answered v =
      tallyLent (handOver (.connected k.tag) k.tag.origin (updCarrier k.tag (fun k => { k with phase := .connected })
        { v with audio := v.audio ++ [⟨.bearer l, .farSide k.circuit, .carrier k.tag⟩] })) := by
    have hb := addBridge_lent hin he hfree hroom
    unfold carrierNotice
    rw [hk]
    dsimp only
    rw [if_neg (Classical.not_not.mpr hl), hb]
    rcases hp with hp | hp <;> rw [hp]
  rw [hgo]
  generalize hw : updCarrier k.tag (fun k => { k with phase := .connected })
    { v with audio := v.audio ++ [⟨.bearer l, .farSide k.circuit, .carrier k.tag⟩] } = w
  have hwpower : w.power = v.power := by rw [← hw]; rfl
  have hwline : w.line = v.line := by rw [← hw]; rfl
  have hwtally : (handOver (.connected k.tag) k.tag.origin w).keep.tally = v.keep.tally :=
    (congrArg StationCore.tally (handOver_core (.connected k.tag) k.tag.origin w)).trans (by rw [← hw]; rfl)
  rw [tallyLent_eq (by rw [hwtally]; exact hf) (by rw [hwtally]; exact hlent), hwtally]
  refine ⟨?_, ?_, ?_, ?_⟩
  · change { (handOver (.connected k.tag) k.tag.origin w).core with
        tally := { v.keep.tally with lent := v.keep.tally.lent + 1 } } = _
    rw [handOver_core, ← hw]
    rfl
  · have hwlight : w.light := by
      rw [← hw]
      exact hlight
    exact handOver_light k.tag.origin (b := .connected k.tag) rfl hwlight
  · exact (handOver_power (.connected k.tag) k.tag.origin w).trans hwpower
  · have htakes : w.takesFrame (.connected k.tag) k.tag.origin = true := by
      unfold Station.takesFrame
      rw [hwpower, hact]
    exact handOver_holds htakes (by rw [hwline]; omega)

/-- Settles O22: a dial goes through, to a lent call too, or its limit ends it. -/
theorem dialGoesThroughOrEnds : Obligations.DialGoesThroughOrEnds := by
  intro l a s hs ha r
  refine ⟨fun hfit => ⟨fun hd hst => ?_, fun hst => ?_, ?_⟩, fun d now hd hnow => ?_⟩
  · have w := ((Wrote.ofEvent l s.station).put { r with timeouts := 0, state := .ringing }).notify .ringing
    change ∃ u, execProgress l s = _ ∧ _
    refine takeIndication_posts hs hfit (by rw [hst, hd]; rfl) (given := [.ringing]) ?_ ?_
    all_goals rw [freshOut_bearer]
    · exact w
    · exact w.noticed a.who (by rw [Bearer.holder, ha]; rfl) _ (List.mem_singleton.mpr rfl)
  · have w := ((Wrote.ofEvent l s.station).set r.answered)
    refine ⟨_, answered_runs hs hfit hst ha, w.bearer, ?_, List.mem_append_right _ (List.mem_singleton.mpr rfl)⟩
    have hbearer : (post (.notice a.who l .answered) (setBearer l r.answered (freshOut s.station))).bearer l = r.answered :=
      w.bearer
    rw [hbearer]
    refine finish_kept_of (k := s.station.kept.withBearer l r.answered) w.kept ?_ ?_
    · rw [withBearer_opState]
      exact awake_opState hs
    · rw [withBearer_waitingEntry]
      exact awake_waitingEntry hs
  · intro k start refreshed hst hwho hk hl hp he hfree hroom hf hlent hact hline
    refine ⟨_, answered_runs hs hfit hst ha, ?_⟩
    obtain ⟨hcore, hlight, hpower, hholds⟩ := carrierAnswered_effect (l := l) (k := k)
      (v := setBearer l r.answered (freshOut s.station))
      (by rw [Station.carrier?, setBearer_call]; exact hk) hl hp (by rw [setBearer_bearer_any, if_pos rfl]; rfl)
      (by rw [Station.entry, setBearer_circuits]; exact he) (by rw [setBearer_audio]; exact hfree)
      (by rw [setBearer_audio]; exact hroom) (by rw [setBearer_keep]; exact hf) (by rw [setBearer_keep]; exact hlent)
      (by rw [setBearer_power]; exact hact) (by rw [setBearer_line]; exact hline)
      (light_of_nil (setBearer_work _ _ _))
    rw [setBearer_power] at hpower
    obtain ⟨hfcore, hfholds⟩ := finish_posted (t := .notice a.who l .answered)
      (setBearer_work l r.answered (freshOut s.station)) (by rw [hwho, takeTask, takeNotice]) hlight
      (by rw [hpower]; exact hs.2.2)
    refine ⟨?_, hfholds _ _ rfl hholds⟩
    rw [hfcore, hcore]
    cases l <;> rfl
  · change ∃ u, execDialAnswerLimitExpiry l s = _ ∧ _
    obtain ⟨u, hrun, hu, hkept, hnoticed⟩ := takeExpiry_writes hs
      (timer := fun s => (s.bearer l).dialLimit) (f := fun s => hangUp l (notify l .noAnswer s))
      (by rwa [freshOut_bearer]) hnow ((Wrote.ofExpiry l now s.station).notify .noAnswer).hangUp
    exact ⟨u, hrun, hu, by rw [hu]; exact hkept, hnoticed a ha _ (List.mem_singleton.mpr rfl)⟩

end Sys2Proof.Machine

/-! PROOFS. The caller panel (O27, O29-O31): the classifier, the hook, the FAILED period. -/

namespace Sys2Proof.Machine

/-- An event that posts no notice, shown through `core`. -/
theorem takeEvent_shows_core {f : Station → Station} {s : State} {k : StationCore} (hs : s.station.Awake)
    (hk : (f (freshOut s.station)).core = k) (hl : (f (freshOut s.station)).light)
    (hp : (f (freshOut s.station)).power = s.station.power) : ∃ t, takeEvent f s = .next t ∧ t.station.core = k := by
  subst hk
  exact takeEvent_core hs.1 hl (by rw [hp]; exact hs.2.2)

theorem freshOut_awake {s : Station} (hs : s.Awake) : ¬ (freshOut s).power.opState = .standby := hs.2.1

/-! ### The button classifier (R111) -/

/-- Settles O27: what presses and releases make of the classifier. -/
theorem buttonClassifierMoves : Obligations.ButtonClassifierMoves := by
  intro s hs
  have ho := freshOut_awake hs
  have shows : ∀ {f : Station → Station} {k : Kept}, (f (freshOut s.station)).kept = k → k.opState = s.station.kept.opState →
      k.waitingEntry = s.station.kept.waitingEntry → ∃ t, takeEvent f s = .next t ∧ t.station.kept = k :=
    fun hk hop hw => takeEvent_shows hs hk (hop ▸ awake_opState hs) (hw.trans (awake_waitingEntry hs))
  have held : ∀ {b}, s.station.panel.disregard = b → (freshOut s.station).panel.disregard = b := fun h => h
  have at_ : ∀ {c}, s.station.panel.classifier = c → (freshOut s.station).panel.classifier = c := fun h => h
  refine ⟨fun hd hc => ?_, fun hd hc => ?_, fun hd hc => ?_, fun hd => ?_, fun close expired hc => ?_,
    fun close begun hc => ?_, fun close expired noted hd hst hc hbefore hcall => ?_⟩
  · change ∃ t, execButtonPressCounts s = _ ∧ _
    refine shows ?_ rfl rfl
    rw [if_neg ho, if_neg (by rw [held hd]; exact Bool.false_ne_true), at_ hc]
    rfl
  · change ∃ t, execButtonReleaseCounts s = _ ∧ _
    refine shows ?_ rfl rfl
    rw [if_neg (by rw [held hd]; exact Bool.false_ne_true), at_ hc]
    rfl
  · change ∃ t, execButtonReleaseCounts s = _ ∧ _
    refine shows ?_ rfl rfl
    rw [if_neg (by rw [held hd]; exact Bool.false_ne_true), at_ hc]
    rfl
  · change ∃ t, execButtonReleaseCounts s = _ ∧ _
    refine shows ?_ rfl rfl
    rw [if_pos (held hd)]
    rfl
  · change ∃ t, execButtonInputPressed s = _ ∧ _
    refine shows ?_ rfl rfl
    rw [at_ hc]
    rfl
  · change ∃ t, execCandidateFails s = _ ∧ _
    refine shows ?_ rfl rfl
    rw [at_ hc]
    rfl
  · change ∃ t, execButtonPressCounts s = _ ∧ _
    refine shows ?_ rfl rfl
    have hpress : ∀ begun, Stamp.before close begun = false →
        (pressInWindow close begun (freshOut s.station)).kept = { s.station.kept with classifier := .secondHeld } := by
      intro begun hb
      unfold pressInWindow doublePress
      rw [if_pos (by rw [beganInWindow, hb]; rfl), if_neg (by exact hst)]
      dsimp only
      rw [freshOut_call, hcall]
      rfl
    rw [if_neg ho, if_neg (by rw [held hd]; exact Bool.false_ne_true), at_ hc]
    cases noted <;> exact hpress _ hbefore

/-! ### The hook (R110, R113, R114) -/

/-- Settles O29: an off-hook moves a hands-free call to the handset. -/
theorem offHookMovesCallToHandset : Obligations.OffHookMovesCallToHandset := by
  intro o s hs hst hhook ho hmode moved
  have hmoved : moved = End.toHandset := by
    funext e
    cases e <;> rfl
  have hgo : ∀ u : Station, u.power.opState = s.station.power.opState → u.call.origin = some o →
      offHookAction u = moveToHandset u := by
    intro u hop hcall
    unfold offHookAction
    rw [if_neg (by rw [hop]; exact hst), hcall]
    dsimp only
    rw [hmode]
  change ∃ t, execOffHook s = _ ∧ _
  refine takeEvent_shows_core hs ?_ ?_ ?_
  all_goals rw [if_neg (freshOut_awake hs), show (freshOut s.station).panel.hook = .onHook from hhook]
  all_goals dsimp only
  all_goals rw [hgo _ (by rfl) (by exact ho)]
  · rw [hmoved, moveToHandset, updOrigin, show (freshOut s.station).call.origin = some o from ho]
    rfl
  · exact light_of_nil rfl
  · rfl

/-! ### The FAILED period (R112, R116) -/

theorem endFailed_of_running {u : Station} {d : Stamp} (h : u.panel.failed = some d) :
    endFailed u =
      { u with
        audio := u.audio.filter fun b => b.owner != .panel
        panel := { u.panel with failed := none, tone := .none, lamp := .off } } := by
  unfold endFailed
  rw [if_pos (by rw [h]; rfl)]
  rfl

/-- Settles O30: the FAILED period ends with its timer, and with an on-hook. -/
theorem failedPeriodEnds : Obligations.FailedPeriodEnds := by
  intro d now s hs hf hnow ended
  refine ⟨?_, fun hst hhook hmode => ?_⟩
  · change ∃ t, execFailedPeriodExpiry s = _ ∧ _
    have hend := endFailed_of_running (u := atMoment now s.station) hf
    refine takeExpiry_core hnow hs hf ?_ ?_ ?_
    all_goals rw [hend]
    · rfl
    · exact light_of_nil rfl
    · exact hs.2.2
  · have hgo : ∀ u : Station, u.power.opState = s.station.power.opState → u.call.origin = s.station.call.origin →
        onHookAction u = endFailed u := by
      intro u hop hcall
      unfold onHookAction
      rw [if_neg (by rw [hop]; exact hst), hcall]
      cases ho : s.station.call.origin with
      | none => rfl
      | some o =>
        dsimp only
        rw [hmode o ho]
    change ∃ t, execOnHook s = _ ∧ _
    refine takeEvent_shows_core hs ?_ ?_ ?_
    all_goals rw [if_neg (freshOut_awake hs), show (freshOut s.station).panel.hook = .offHook from hhook]
    all_goals dsimp only
    all_goals rw [hgo _ (by rfl) (by rfl), endFailed_of_running (d := d) (by exact hf)]
    · rfl
    · exact light_of_nil rfl
    · rfl

/-! ### The first level, and START (R110, R113) -/

/-- Settles O31: the first settled level is adopted, and in START the panel holds a call request. -/
theorem hookIsAdoptedAndStartHolds : Obligations.HookIsAdoptedAndStartHolds := by
  intro s hs shows p
  have shown : ∀ {f : Station → Station} {q : Panel}, f (freshOut s.station) = { freshOut s.station with panel := q } →
      ∃ t, takeEvent f s = .next t ∧ t.station.core = { s.station.core with panel := q } := by
    intro f q hf
    refine takeEvent_shows_core hs ?_ ?_ ?_
    all_goals rw [hf]
    · rfl
    · exact light_of_nil rfl
    · rfl
  refine ⟨fun hhook => ⟨?_, ?_⟩, fun hst => ⟨fun hhook => ?_, fun hhook hreq => ?_, ?_⟩⟩
  · change ∃ t, execOffHook s = _ ∧ _
    refine shown ?_
    rw [if_neg (freshOut_awake hs), show (freshOut s.station).panel.hook = .unadopted from hhook]
    rfl
  · change ∃ t, execOnHook s = _ ∧ _
    refine shown ?_
    rw [if_neg (freshOut_awake hs), show (freshOut s.station).panel.hook = .unadopted from hhook]
    rfl
  · change ∃ t, execOffHook s = _ ∧ _
    refine shown ?_
    rw [if_neg (freshOut_awake hs), show (freshOut s.station).panel.hook = .onHook from hhook]
    dsimp only
    rw [offHookAction, if_pos (by exact hst)]
    rfl
  · change ∃ t, execOnHook s = _ ∧ _
    refine shown ?_
    rw [if_neg (freshOut_awake hs), show (freshOut s.station).panel.hook = .offHook from hhook]
    dsimp only
    rw [onHookAction, if_pos (by exact hst), if_pos (by exact hreq)]
    rfl
  · intro close now hc hhook hnow hreq
    have hpress : ∀ u : Station, u.panel.hook = p.hook → u.power.opState = .start → u.panel.request = none →
        singlePress u = { u with panel.request := some .handsFree } := by
      intro u hu hop hr
      unfold singlePress
      rw [if_neg (by rw [hu]; exact hhook), if_pos hop, if_pos (by rw [hr]; rfl)]
    change ∃ t, execButtonWindowExpiry s = _ ∧ _
    refine takeExpiry_core (d := close) hnow hs ?_ ?_ ?_ ?_
    · rw [show (freshOut s.station).panel.classifier = .window close false none from hc]
      rfl
    all_goals rw [show (atMoment now s.station).panel.classifier = .window close false none from hc]
    all_goals dsimp only
    all_goals rw [hpress _ (by rfl) (by exact hst) (by exact hreq)]
    · rfl
    · exact light_of_nil rfl
    · exact hs.2.2

end Sys2Proof.Machine

/-! PROOFS. How a call ends (O28, O37): what the operations of the other blocks leave on the desk of the call engine
(`Station.desk`), and a context that is in ENDING and gone once no bearer is held for it. -/

namespace Sys2Proof.Machine

/-! ### The desk -/

/-- The call contexts, the panel, the report queue, and what they are worked on with: the clock, the configuration and the
operating state. -/
structure Desk where
  call : Call
  panel : Panel
  queue : List ReportEntry
  clock : Stamp
  config : Option Configuration
  opState : OpState

/-- The desk, read off the core. -/
def StationCore.desk (k : StationCore) : Desk :=
  { call := k.call, panel := k.panel, queue := k.queue, clock := k.clock, config := k.config, opState := k.opState }

/-- The desk of a station. -/
def Station.desk (s : Station) : Desk := s.core.desk

theorem desk_of_core {s t : Station} (h : t.core = s.core) : t.desk = s.desk := congrArg StationCore.desk h

section
variable {s t : Station} (h : t.desk = s.desk)
include h
theorem desk_call_eq : t.call = s.call := congrArg Desk.call h
theorem desk_panel_eq : t.panel = s.panel := congrArg Desk.panel h
theorem desk_queue_eq : t.reports.queue = s.reports.queue := congrArg Desk.queue h
theorem desk_clock_eq : t.keep.clock = s.keep.clock := congrArg Desk.clock h
end

@[simp] theorem post_desk (t : Task) (s : Station) : (post t s).desk = s.desk := rfl
@[simp] theorem raise_desk (k : FaultKind) (s : Station) : (raise k s).desk = s.desk := rfl
@[simp] theorem handOver_desk (b : TxBody) (d : Nat) (s : Station) : (handOver b d s).desk = s.desk :=
  desk_of_core (handOver_core b d s)
@[simp] theorem announceCause_desk (b : Bool) (s : Station) : (announceCause b s).desk = s.desk :=
  desk_of_core (announceCause_core b s)
@[simp] theorem removeUnbegun_desk (p : TxBody → Bool) (s : Station) : (removeUnbegun p s).desk = s.desk :=
  desk_of_core (removeUnbegun_core p s)
@[simp] theorem clearPartner_desk (t : Tag) (r : ClearReason) (d : Nat) (s : Station) :
    (clearPartner t r d s).desk = s.desk := handOver_desk _ d s

@[simp] theorem tallyUp_desk (f : Tally → Tally) (s : Station) : (tallyUp f s).desk = s.desk := by
  unfold tallyUp
  split <;> rfl

@[simp] theorem setEntry_desk (c : Circuit) (e : CircuitEntry) (s : Station) : (setEntry c e s).desk = s.desk := by
  unfold setEntry
  dsimp only
  split <;> rfl

@[simp] theorem dropCircuitBridge_desk (c : Circuit) (s : Station) : (dropCircuitBridge c s).desk = s.desk := rfl
@[simp] theorem removeBridges_desk (w : Owner) (s : Station) : (removeBridges w s).desk = s.desk := rfl

@[simp] theorem withdrawAttempt_desk (s : Station) : (withdrawAttempt s).desk = s.desk := removeUnbegun_desk _ _

@[simp] theorem abandonRound_desk (r : ClearReason) (d : Nat) (s : Station) : (abandonRound r d s).desk = s.desk := by
  unfold abandonRound
  split
  · rfl
  · split
    · exact withdrawAttempt_desk s
    · rfl
  · rfl

@[simp] theorem abandonOwnRound_desk (r : ClearReason) (p : Phase) (s : Station) : (abandonOwnRound r p s).desk = s.desk := by
  unfold abandonOwnRound
  split
  · exact abandonRound_desk r 63 s
  · rfl

/-! Bearer records, and what claimants do to them. -/

@[simp] theorem setBearer_desk (l : Letter) (r : Bearer) (s : Station) : (setBearer l r s).desk = s.desk := by
  cases l <;> rfl

@[simp] theorem putBearer_desk (l : Letter) (r : Bearer) (s : Station) : (putBearer l r s).desk = s.desk := by
  unfold putBearer
  dsimp only
  generalize hu : (if (s.bearer l).state == .inCall && r.state != .inCall then removeBearerBridges l s else s) = u
  have hdesk : (setBearer l r u).desk = s.desk := by
    rw [setBearer_desk, ← hu]
    split <;> rfl
  have hann : (announceCause false (setBearer l r u)).desk = s.desk := (announceCause_desk _ _).trans hdesk
  split <;> split
  · exact hann
  · exact hdesk
  · exact hann
  · exact hdesk

@[simp] theorem sendCommand_desk (l : Letter) (c : Command) (r : Bearer) (s : Station) :
    (sendCommand l c r s).desk = s.desk := putBearer_desk l _ _

@[simp] theorem notify_desk (l : Letter) (n : Notice) (s : Station) : (notify l n s).desk = s.desk := by
  unfold notify
  split <;> rfl

@[simp] theorem goAvailable_desk (l : Letter) (s : Station) : (goAvailable l s).desk = s.desk := putBearer_desk l _ s
@[simp] theorem goChecking_desk (l : Letter) (s : Station) : (goChecking l s).desk = s.desk := sendCommand_desk l _ _ s
@[simp] theorem hangUp_desk (l : Letter) (s : Station) : (hangUp l s).desk = s.desk := sendCommand_desk l _ _ s
@[simp] theorem sendDial_desk (l : Letter) (s : Station) : (sendDial l s).desk = s.desk := sendCommand_desk l _ _ s

@[simp] theorem leaveReserved_desk (l : Letter) (s : Station) : (leaveReserved l s).desk = s.desk := by
  unfold leaveReserved
  dsimp only
  split
  · rw [goChecking_desk, notify_desk]
  · rw [goAvailable_desk, notify_desk]

@[simp] theorem releaseBearer_desk (l : Letter) (s : Station) : (releaseBearer l s).desk = s.desk := by
  unfold releaseBearer
  dsimp only
  split
  · exact leaveReserved_desk l s
  · split
    · rw [hangUp_desk, putBearer_desk]
    · exact hangUp_desk l s
  · exact hangUp_desk l s
  · exact hangUp_desk l s
  · exact hangUp_desk l s
  · exact setBearer_desk l _ s
  · rfl

@[simp] theorem releaseFor_desk (who : Claimant) (l : Letter) (s : Station) : (releaseFor who l s).desk = s.desk := by
  unfold releaseFor
  split
  · split
    · exact releaseBearer_desk l s
    · rfl
  · rfl

@[simp] theorem releaseOwnBearer_desk (s : Station) : (releaseOwnBearer s).desk = s.desk := by
  unfold releaseOwnBearer
  split
  · split
    · exact releaseFor_desk _ _ s
    · rfl
  · rfl

/-! The held circuit released: the schedule of the context stops. -/

theorem updOrigin_desk (f : Origin → Origin) (s : Station) :
    (updOrigin f s).desk = { s.desk with call := { s.desk.call with origin := s.desk.call.origin.map f } } := rfl

theorem releaseHeld_desk (c : Circuit) (r : ClearReason) (d : Nat) (s : Station) :
    (releaseHeld c r d s).desk = s.desk ∨
      (releaseHeld c r d s).desk = (updOrigin (fun o => { o with schedule := none }) s).desk := by
  unfold releaseHeld
  split
  · right
    dsimp only
    rw [announceCause_desk, handOver_desk, updOrigin_desk, dropCircuitBridge_desk, setEntry_desk, updOrigin_desk]
  · exact Or.inl rfl

theorem releaseCircuit_desk (r : ClearReason) (d : Nat) (s : Station) :
    (releaseCircuit r d s).desk = s.desk ∨
      (releaseCircuit r d s).desk = (updOrigin (fun o => { o with schedule := none }) s).desk := by
  unfold releaseCircuit
  split
  · exact Or.inl rfl
  · exact releaseHeld_desk _ r d s

theorem releaseCircuit_panel (r : ClearReason) (d : Nat) (s : Station) : (releaseCircuit r d s).panel = s.panel := by
  rcases releaseCircuit_desk r d s with h | h <;> exact congrArg Desk.panel h

theorem releaseCircuit_queue (r : ClearReason) (d : Nat) (s : Station) :
    (releaseCircuit r d s).reports.queue = s.reports.queue := by
  rcases releaseCircuit_desk r d s with h | h <;> exact congrArg Desk.queue h

theorem releaseCircuit_clock (r : ClearReason) (d : Nat) (s : Station) :
    (releaseCircuit r d s).keep.clock = s.keep.clock := by
  rcases releaseCircuit_desk r d s with h | h <;> exact congrArg Desk.clock h

/-! ### A context in ENDING (R79-R81, R103-R106) -/

/-- The origin context of a tag is in ENDING. -/
def Station.Ending (s : Station) (tag : Tag) : Prop := ∃ p, s.call.origin = some p ∧ p.tag = tag ∧ p.phase = .ending

/-- The origin context of a tag is in ENDING or gone. -/
def Station.Ended (s : Station) (tag : Tag) : Prop :=
  s.call.origin = none ∨ ∃ p, s.call.origin = some p ∧ p.tag = tag ∧ p.phase = .ending

theorem Station.Ending.of_desk {s t : Station} {tag : Tag} (h : s.Ending tag) (hd : t.desk = s.desk) : t.Ending tag := by
  obtain ⟨p, hp, htag, hphase⟩ := h
  exact ⟨p, by rw [desk_call_eq hd, hp], htag, hphase⟩

theorem Station.Ending.releaseCircuit {s : Station} {tag : Tag} (h : s.Ending tag) (r : ClearReason) (d : Nat) :
    (releaseCircuit r d s).Ending tag := by
  rcases releaseCircuit_desk r d s with hd | hd
  · exact h.of_desk hd
  · obtain ⟨p, hp, htag, hphase⟩ := h
    have hcall := congrArg (fun k : Desk => k.call.origin) hd
    change _ = s.call.origin.map _ at hcall
    rw [hp] at hcall
    exact ⟨_, hcall, htag, hphase⟩

theorem enterEnding_ending {s : Station} {o : Origin} (h : s.call.origin = some o) : (enterEnding s).Ending o.tag := by
  unfold enterEnding
  rw [h]
  dsimp only
  have hupd : ∀ f : Origin → Origin, (removeBridges (.origin o.tag) (updOrigin f s)).call.origin = some (f o) :=
    fun f => congrArg (Option.map f) h
  split
  · refine Station.Ending.of_desk ?_ (removeUnbegun_desk _ _)
    exact ⟨_, hupd _, rfl, rfl⟩
  · exact ⟨_, hupd _, rfl, rfl⟩

theorem tryEnd_ended {s : Station} {tag : Tag} (h : s.Ending tag) : (tryEnd s).Ended tag := by
  unfold tryEnd
  split
  · split
    · exact Or.inl (congrArg Call.origin (desk_call_eq ((post_desk _ _).trans (removeUnbegun_desk _ _))))
    · exact Or.inr h
  · exact Or.inr h

theorem tryEnd_panel (s : Station) : (tryEnd s).panel = s.panel := by
  unfold tryEnd
  split
  · split
    · exact congrArg Desk.panel (removeUnbegun_desk _ _)
    · rfl
  · rfl

theorem tryEnd_queue (s : Station) : (tryEnd s).reports.queue = s.reports.queue := by
  unfold tryEnd
  split
  · split
    · exact congrArg Desk.queue (removeUnbegun_desk _ _)
    · rfl
  · rfl

/-! ### The caller ends the call (R80, R105) -/

theorem showEnded_panel (s : Station) : (showEnded s).panel.tone = .none ∧ (showEnded s).panel.lamp = .off := ⟨rfl, rfl⟩

theorem endFailed_call (s : Station) : (endFailed s).call = s.call := by
  unfold endFailed
  split <;> rfl

theorem endFailed_keep (s : Station) : (endFailed s).keep = s.keep := by
  unfold endFailed
  split <;> rfl

theorem tallyUp_withdrawn_kept (s : Station) :
    (tallyUp (fun t => { t with withdrawn := t.withdrawn + 1 }) s).kept =
      if s.keep.tally.frozen then s.kept else { s.kept with withdrawn := s.kept.withdrawn + 1 } := by
  unfold tallyUp
  split <;> rfl

theorem endRequest_effect {s : Station} {o : Origin} (ho : s.call.origin = some o) (hp : o.phase ≠ .ending) :
    (endRequest s).Ended o.tag ∧ (endRequest s).panel.tone = .none ∧ (endRequest s).panel.lamp = .off ∧
      (endRequest s).kept =
        if o.connected || s.keep.tally.frozen then s.kept else { s.kept with withdrawn := s.kept.withdrawn + 1 } := by
  unfold endRequest
  rw [ho]
  dsimp only
  rw [if_neg hp]
  generalize hv : (if o.connected = true then s else tallyUp (fun t => { t with withdrawn := t.withdrawn + 1 }) s) = v
  have hvcall : v.call.origin = some o := by
    rw [← hv, ← ho]
    split
    · rfl
    · exact congrArg Call.origin (desk_call_eq (tallyUp_desk _ _))
  have hvkept : v.kept =
      if o.connected || s.keep.tally.frozen then s.kept else { s.kept with withdrawn := s.kept.withdrawn + 1 } := by
    rw [← hv]
    cases o.connected
    · exact tallyUp_withdrawn_kept s
    · rfl
  generalize hw : enterEnding (abandonOwnRound .callerEnded o.activity v) = w
  have hwending : w.Ending o.tag := by
    rw [← hw]
    exact enterEnding_ending (by rw [desk_call_eq (abandonOwnRound_desk _ _ v), hvcall])
  have hwkept : w.kept = v.kept := by rw [← hw, enterEnding_kept, abandonOwnRound_kept]
  have tail : ∀ x : Station, x.Ending o.tag → x.kept = w.kept →
      (tryEnd (showEnded (releaseOwnBearer x))).Ended o.tag ∧
        (tryEnd (showEnded (releaseOwnBearer x))).panel.tone = .none ∧
        (tryEnd (showEnded (releaseOwnBearer x))).panel.lamp = .off ∧
        (tryEnd (showEnded (releaseOwnBearer x))).kept = w.kept := by
    intro x hx hxk
    have hr : (releaseOwnBearer x).Ending o.tag := hx.of_desk (releaseOwnBearer_desk x)
    have hshow : (showEnded (releaseOwnBearer x)).Ending o.tag := by
      obtain ⟨p, hp, hrest⟩ := hr
      exact ⟨p, (congrArg Call.origin (endFailed_call _)).trans hp, hrest⟩
    refine ⟨tryEnd_ended hshow, ?_, ?_, by simp [hxk]⟩
    · rw [tryEnd_panel]
      rfl
    · rw [tryEnd_panel]
      rfl
  rw [← hvkept, ← hwkept]
  split
  · exact tail _ (hwending.releaseCircuit _ _) (by simp)
  · split
    · exact tail _ (hwending.of_desk (clearPartner_desk _ _ _ w)) (by simp)
    · exact tail _ hwending rfl
  · exact tail _ hwending rfl

/-- Settles O28: an on-hook, or a double press, ends the caller's call. -/
theorem callerEndsCall : Obligations.CallerEndsCall := by
  intro o s hs hst ho hp counted ended
  have shown : ∀ {f : Station → Station} {v : Station} {k : Kept}, f (freshOut s.station) = endRequest v →
      v.call.origin = some o → v.keep.tally.frozen = s.station.keep.tally.frozen → counted v.kept = k →
      k.opState = s.station.kept.opState → k.waitingEntry = s.station.kept.waitingEntry →
      ∃ u, takeEvent f s = .next { s with station := finish u } ∧ ended u ∧ (finish u).kept = k := by
    intro f v k hf hv hfrozen hk hop hw
    obtain ⟨hended, htone, hlamp, hkept⟩ := endRequest_effect hv hp
    rw [hfrozen] at hkept
    exact ⟨_, (takeEvent_running hs.1).trans (by rw [hf]), ⟨hended, htone, hlamp⟩,
      finish_kept_of (hkept.trans hk) (hop ▸ awake_opState hs) (hw.trans (awake_waitingEntry hs))⟩
  have counted_opState : ∀ k : Kept, (counted k).opState = k.opState := by
    intro k
    simp only [counted]
    split <;> rfl
  have counted_waitingEntry : ∀ k : Kept, (counted k).waitingEntry = k.waitingEntry := by
    intro k
    simp only [counted]
    split <;> rfl
  refine ⟨fun hhook hmode => ?_, fun close expired begun hd hmode hc hb => ?_⟩
  · change ∃ u, execOnHook s = _ ∧ _
    have hact : ∀ v : Station, v.power.opState = s.station.power.opState → v.call.origin = some o →
        onHookAction v = endRequest (endFailed v) := by
      intro v hop hv
      unfold onHookAction
      rw [if_neg (by rw [hop]; exact hst), hv]
      dsimp only
      rw [hmode]
    refine shown (v := endFailed { freshOut s.station with panel.hook := .onHook }) ?_ ?_ ?_ ?_ (counted_opState _)
      (counted_waitingEntry _)
    · rw [if_neg (freshOut_awake hs), show (freshOut s.station).panel.hook = .offHook from hhook]
      exact hact _ rfl ho
    · rw [endFailed_call]
      exact ho
    · rw [endFailed_keep]
      rfl
    · rw [endFailed_kept]
      simp only [counted]
      split <;> rfl
  · change ∃ u, execButtonPressCounts s = _ ∧ _
    refine shown (v := { freshOut s.station with panel.classifier := .secondHeld }) ?_ ho rfl ?_ (counted_opState _)
      (counted_waitingEntry _)
    · rw [if_neg (freshOut_awake hs),
        if_neg (by rw [show (freshOut s.station).panel.disregard = false from hd]; exact Bool.false_ne_true),
        show (freshOut s.station).panel.classifier = .window close expired (some begun) from hc]
      dsimp only
      rw [pressInWindow, if_pos (by rw [beganInWindow, hb]; rfl), doublePress, if_neg (by exact hst)]
      dsimp only
      rw [show (freshOut s.station).call.origin = some o from ho]
      dsimp only
      rw [hmode]
    · simp only [counted]
      split <;> rfl

end Sys2Proof.Machine

/-! PROOFS. How a call fails (O37-O39): a report handed over, the panel's FAILED period, the carrier lost, a recovery. -/

namespace Sys2Proof.Machine

/-! ### A report handed over (R132, R133) -/

/-- A report finds a place: the queue has room, or an entry that waits (R133). -/
def Station.reportFits (s : Station) : Prop :=
  s.reports.queue.length < 8 ∨ (s.reports.queue.any fun e => e.waits) = true

theorem mapFirst_any_kind {k : ReportKind} {p : ReportEntry → Bool} {f : ReportEntry → ReportEntry} {q : List ReportEntry}
    (hp : (q.any p) = true) (hk : ∀ e, p e = true → e.record.kind = k) (hf : ∀ e, (f e).record.kind = e.record.kind) :
    ((mapFirst p f q).any fun e => e.record.kind == k) = true := by
  induction q with
  | nil => exact absurd hp Bool.false_ne_true
  | cons e es ih =>
    unfold mapFirst
    split
    · next he => simp [hf, hk e he]
    · next he =>
      rw [Bool.not_eq_true] at he
      rw [List.any_cons, he, Bool.false_or] at hp
      rw [List.any_cons, ih hp, Bool.or_true]

theorem merge_kind (h : CabinetEvent) (e : ReportEntry) : (ReportEntry.merge h e).record.kind = e.record.kind := by
  unfold ReportEntry.merge
  dsimp only
  split <;> rfl

theorem handReport_queues {h : CabinetEvent} {s : Station} (hf : s.reportFits) :
    ((handReport h s).reports.queue.any fun e => e.record.kind == h.kind) = true := by
  have hlast : ∀ (q : List ReportEntry) (r : Record) (x : Rat), r.kind = h.kind →
      ((q ++ [newEntry r x]).any fun e => e.record.kind == h.kind) = true := by
    intro q r x hr
    simp [newEntry, hr]
  unfold handReport
  dsimp only
  split
  · next hany =>
    refine mapFirst_any_kind hany (fun e he => ?_) (merge_kind h)
    rw [Bool.and_eq_true, beq_iff_eq] at he
    exact he.2
  · split
    · exact hlast _ _ _ rfl
    · next hfull =>
      obtain ⟨n, free, hdropped, -⟩ := countDropped_shape (raise .reportDropped s)
      rw [hdropped]
      change ((if (s.reports.queue.any fun e => e.waits) = true then _ else _ : Station).reports.queue.any _) = true
      rw [if_pos (hf.resolve_left hfull)]
      exact hlast _ _ _ rfl

theorem handReport_frame (h : CabinetEvent) (s : Station) :
    (handReport h s).call = s.call ∧ (handReport h s).panel = s.panel ∧ (handReport h s).keep.clock = s.keep.clock ∧
      (handReport h s).line = s.line ∧ ∀ t ∈ s.work, t ∈ (handReport h s).work := by
  have hpost : ∀ t ∈ s.work, t ∈ s.work ++ [Task.decideReports] := fun t ht => List.mem_append_left _ ht
  unfold handReport
  dsimp only
  split
  · exact ⟨rfl, rfl, rfl, rfl, hpost⟩
  · split
    · exact ⟨rfl, rfl, rfl, rfl, hpost⟩
    · obtain ⟨n, free, hdropped, -⟩ := countDropped_shape (raise .reportDropped s)
      rw [hdropped]
      split
      · exact ⟨rfl, rfl, rfl, rfl, hpost⟩
      · exact ⟨rfl, rfl, rfl, rfl, fun t ht => ht⟩

/-! ### Bridges asked for (R120) -/

theorem addBridge_shape {r : Bridge} {s t : Station} (h : addBridge r s = .ok t) : ∃ audio, t = { s with audio := audio } := by
  unfold addBridge at h
  dsimp only at h
  split at h
  · cases h
  · split at h
    · cases h
    · split at h
      · cases h
      · split at h
        · cases h
        · split at h
          · cases h
            exact ⟨_, rfl⟩
          · cases h

theorem tryBridge_shape (r : Bridge) (s : Station) : ∃ audio, tryBridge r s = { s with audio := audio } := by
  unfold tryBridge
  split
  · next t ht => exact addBridge_shape ht
  · exact ⟨s.audio, rfl⟩

/-! ### The FAILED period (R116) -/

theorem showFailed_shape (e : End) (s : Station) :
    ∃ audio, showFailed e s =
      { s with
        audio := audio
        panel := { s.panel with tone := .failed, lamp := .fastFlash, failed := some (s.within 60000) } } := by
  unfold showFailed
  exact tryBridge_shape _ _

/-! ### A call that fails: the report, and the panel (R79, R103) -/

/-- What is left of a call of a tag that has failed at a time: a context that ends, its report, the FAILED period. -/
structure Station.CallFailed (u : Station) (tag : Tag) (kind : ReportKind) (now : Stamp) : Prop where
  ended : u.Ended tag
  reported : (u.reports.queue.any fun g => g.record.kind == kind) = true
  tone : u.panel.tone = .failed
  lamp : u.panel.lamp = .fastFlash
  failed : u.panel.failed = some (Stamp.later now 60000)

/-- The last steps of a call that fails; `x` is the station when the report is handed over. -/
theorem callFails {e : CabinetEvent} {caller : End} {tag : Tag} {s x : Station} (hs : s.Ending tag) (hf : s.reportFits)
    (hcall : x.call = (handReport e s).call) (hreports : x.reports = (handReport e s).reports)
    (hclock : x.keep.clock = (handReport e s).keep.clock) :
    (tryEnd (showFailed caller x)).CallFailed tag e.kind s.keep.clock := by
  obtain ⟨hrcall, -, hrclock, -⟩ := handReport_frame e s
  obtain ⟨audio, hshow⟩ := showFailed_shape caller x
  have hending : (showFailed caller x).Ending tag := by
    obtain ⟨p, hp, hrest⟩ := hs
    exact ⟨p, by rw [hshow]; exact (congrArg Call.origin (hcall.trans hrcall)).trans hp, hrest⟩
  have hwithin : x.within 60000 = Stamp.later s.keep.clock 60000 := congrArg (Stamp.later · 60000) (hclock.trans hrclock)
  refine ⟨tryEnd_ended hending, ?_, ?_, ?_, ?_⟩
  · rw [tryEnd_queue, hshow]
    change (x.reports.queue.any _) = true
    rw [hreports]
    exact handReport_queues hf
  all_goals rw [tryEnd_panel, hshow]
  rw [← hwithin]

theorem enterEnding_queue (s : Station) : (enterEnding s).reports.queue = s.reports.queue := by
  unfold enterEnding
  split
  · dsimp only
    split
    · exact congrArg Desk.queue (removeUnbegun_desk _ _)
    · rfl
  · rfl

/-! ### The setup deadline (R79) -/

theorem tallyUp_unplaced_kept (s : Station) :
    (tallyUp (fun t => { t with unplaced := t.unplaced + 1 }) s).kept =
      if s.keep.tally.frozen then s.kept else { s.kept with unplaced := s.kept.unplaced + 1 } := by
  unfold tallyUp
  split <;> rfl

theorem unplaced_effect {s : Station} {o : Origin} (ho : s.call.origin = some o) (hf : s.reportFits) :
    (unplaced s).CallFailed o.tag .callUnplaced s.keep.clock ∧
      (unplaced s).kept =
        (if s.keep.tally.frozen then s.kept else { s.kept with unplaced := s.kept.unplaced + 1 }).raised .callUnplaced := by
  unfold unplaced
  rw [ho]
  dsimp only
  generalize hv : abandonOwnRound .setupExpired o.activity
    (tallyUp (fun t => { t with unplaced := t.unplaced + 1 }) s) = v
  have hvdesk : v.desk = s.desk := by rw [← hv, abandonOwnRound_desk, tallyUp_desk]
  have hvkept : v.kept = if s.keep.tally.frozen then s.kept else { s.kept with unplaced := s.kept.unplaced + 1 } := by
    rw [← hv, abandonOwnRound_kept, tallyUp_unplaced_kept]
  generalize hw : releaseOwnBearer (releaseCircuit .setupExpired o.releaseDest (enterEnding v)) = w
  have hwending : w.Ending o.tag := by
    rw [← hw]
    refine Station.Ending.of_desk ?_ (releaseOwnBearer_desk _)
    exact (enterEnding_ending (by rw [desk_call_eq hvdesk, ho])).releaseCircuit _ _
  have hwkept : w.kept = v.kept := by
    rw [← hw]
    simp
  have hwqueue : w.reports.queue = s.reports.queue := by
    rw [← hw, desk_queue_eq (releaseOwnBearer_desk _), releaseCircuit_queue, enterEnding_queue, desk_queue_eq hvdesk]
  have hwclock : w.keep.clock = s.keep.clock := (congrArg Kept.clock hwkept).trans (desk_clock_eq hvdesk)
  refine ⟨?_, ?_⟩
  · have hfails := callFails (e := callReport .callUnplaced w.now) (caller := o.mode.callerEnd)
      (x := raise .callUnplaced (handReport (callReport .callUnplaced w.now) w)) hwending
      (by rw [Station.reportFits, hwqueue]; exact hf) rfl rfl rfl
    rw [hwclock] at hfails
    exact hfails
  · rw [tryEnd_kept]
    simp [raise_kept_raised, hwkept, hvkept]

/-- Settles O37: a call is unplaced at its setup deadline. -/
theorem setupDeadlineUnplacesCall : Obligations.SetupDeadlineUnplacesCall := by
  intro o d now s hs ho hd hnow hf
  have hcall : (atMoment now s.station).call.origin = some o := ho
  obtain ⟨⟨hended, hreported, htone, hlamp, hfailed⟩, hkept⟩ := unplaced_effect hcall hf
  refine ⟨_, ?_, hended, hreported, htone, hlamp, hfailed, ?_⟩
  · change execSetupDeadlineExpiry s = _
    unfold execSetupDeadlineExpiry
    rw [takeExpiry_running (d := d) hs.1 (by rw [freshOut_call, ho]; exact hd), ← hnow]
  · refine finish_kept_of (hkept.trans ?_) ?_ ?_
    · change (if s.station.keep.tally.frozen = true then _ else _ : Kept).raised _ = _
      dsimp only
      split <;> rfl
    all_goals dsimp only; split
    · exact awake_opState hs
    · exact awake_opState hs
    · exact awake_waitingEntry hs
    · exact awake_waitingEntry hs

end Sys2Proof.Machine

/-! PROOFS. Recoveries and dropped calls (O39): how a recovery begins, how its step is closed, how a call is dropped. -/

namespace Sys2Proof.Machine

/-! ### A call dropped (R103) -/

theorem updOrigin_some {s : Station} {o : Origin} (h : s.call.origin = some o) (f : Origin → Origin) :
    (updOrigin f s).call.origin = some (f o) := congrArg (Option.map f) h

/-- The station of a dropped call before its bearer and its report: the circuit is released, or the lost lender cleared. -/
def dropRelease (owed : Option (ClearReason × Nat)) (tag : Tag) (s : Station) : Station :=
  match owed, s.ownCircuit with
  | some w, some _ => releaseCircuit w.1 w.2 s
  | none, some _ => releaseCircuit .noAnswer 63 s
  | some w, none => clearPartner tag w.1 w.2 s
  | none, none => s

theorem dropCall_eq {s : Station} {o : Origin} (ho : s.call.origin = some o) (owed : Option (ClearReason × Nat)) :
    dropCall owed s =
      tryEnd (showFailed o.mode.callerEnd
        (handReport (callReport .callDropped (releaseOwnBearer (dropRelease owed o.tag (enterEnding s))).now)
          (releaseOwnBearer (dropRelease owed o.tag (enterEnding s))))) := by
  unfold dropCall dropRelease
  rw [ho] <;> rfl

theorem dropRelease_ending {owed : Option (ClearReason × Nat)} {tag : Tag} {s : Station} (h : s.Ending tag) :
    (dropRelease owed tag s).Ending tag ∧ (dropRelease owed tag s).reports.queue = s.reports.queue ∧
      (dropRelease owed tag s).keep.clock = s.keep.clock := by
  unfold dropRelease
  split
  · exact ⟨h.releaseCircuit _ _, releaseCircuit_queue _ _ s, releaseCircuit_clock _ _ s⟩
  · exact ⟨h.releaseCircuit _ _, releaseCircuit_queue _ _ s, releaseCircuit_clock _ _ s⟩
  · have hd := clearPartner_desk tag
    exact ⟨h.of_desk (hd _ _ s), desk_queue_eq (hd _ _ s), desk_clock_eq (hd _ _ s)⟩
  · exact ⟨h, rfl, rfl⟩

theorem dropCall_effect {s : Station} {o : Origin} (ho : s.call.origin = some o) (owed : Option (ClearReason × Nat))
    (hf : s.reportFits) : (dropCall owed s).CallFailed o.tag .callDropped s.keep.clock := by
  obtain ⟨hending, hqueue, hclock⟩ := dropRelease_ending (owed := owed) (enterEnding_ending ho)
  have heclock : (enterEnding s).keep.clock = s.keep.clock := congrArg Kept.clock (enterEnding_kept s)
  rw [dropCall_eq ho]
  generalize hw : releaseOwnBearer (dropRelease owed o.tag (enterEnding s)) = w
  have hdesk : w.desk = (dropRelease owed o.tag (enterEnding s)).desk := by rw [← hw, releaseOwnBearer_desk]
  have hfits : w.reportFits := by rw [Station.reportFits, desk_queue_eq hdesk, hqueue, enterEnding_queue]; exact hf
  have hfails := callFails (e := callReport .callDropped w.now) (caller := o.mode.callerEnd) (hending.of_desk hdesk) hfits
    rfl rfl rfl
  rw [desk_clock_eq hdesk, hclock, heclock] at hfails
  exact hfails

/-! ### A recovery begins (R99, R102) -/

/-- A recovery of the origin context has begun: the count, the limit, the step. -/
theorem beginRecovery_effect {s : Station} {o : Origin} (ho : s.call.origin = some o) :
    (∃ step, (beginRecovery s).call.origin =
        some
          { o with
            recoveries := o.recoveries + 1, phase := .recovering, phaseDeadline := some (s.within 60000)
            step := step, stepDeadline := none }) ∧
      (beginRecovery s).line = s.line ∧ (o.releasing = none → .select o.tag ∈ (beginRecovery s).work) := by
  unfold beginRecovery
  rw [ho]
  dsimp only
  split
  · next hr => exact ⟨⟨_, updOrigin_some ho _⟩, rfl, fun e => absurd (e ▸ hr) (by decide)⟩
  · exact ⟨⟨_, updOrigin_some ho _⟩, rfl, fun _ => List.mem_append_right _ (List.mem_singleton.mpr rfl)⟩

/-! ### The step of a recovery closed (R102) -/

theorem closeStep_effect {s : Station} {o : Origin} (ho : s.call.origin = some o) :
    (∃ p, (closeStep s).call.origin = some p ∧ p.tag = o.tag ∧ p.recoveries = o.recoveries) ∧
      (closeStep s).reports.queue = s.reports.queue := by
  have hround := abandonOwnRound_desk .noAnswer o.activity s
  generalize hv : abandonOwnRound .noAnswer o.activity s = v at hround
  have same : ∀ {x : Station}, x.desk = v.desk → x.call.origin = some o ∧ x.reports.queue = s.reports.queue :=
    fun hx => ⟨by rw [desk_call_eq (hx.trans hround), ho], desk_queue_eq (hx.trans hround)⟩
  unfold closeStep
  rw [ho]
  dsimp only
  rw [hv]
  cases o.carrier with
  | absent =>
    obtain ⟨hx, hq⟩ := same (x := v) rfl
    exact ⟨⟨_, updOrigin_some hx _, rfl, rfl⟩, hq⟩
  | own l =>
    obtain ⟨hx, hq⟩ := same (releaseFor_desk (.origin o.tag) l v)
    exact ⟨⟨_, updOrigin_some (updOrigin_some hx _) _, rfl, rfl⟩, hq⟩
  | asked l =>
    obtain ⟨hx, hq⟩ := same (clearPartner_desk o.tag .noAnswer l v)
    exact ⟨⟨_, updOrigin_some (updOrigin_some hx _) _, rfl, rfl⟩, hq⟩
  | lent l x =>
    obtain ⟨hx, hq⟩ := same (clearPartner_desk o.tag .noAnswer l v)
    exact ⟨⟨_, updOrigin_some (updOrigin_some hx _) _, rfl, rfl⟩, hq⟩

theorem recoveryFails_again {s : Station} {o : Origin} (ho : s.call.origin = some o) (hr : o.recoveries < 2) :
    ∃ q, (recoveryFails s).call.origin = some q ∧ q.tag = o.tag ∧ q.phase = .recovering ∧
      q.recoveries = o.recoveries + 1 ∧ q.tried = [] ∧ q.localTried = false ∧
      q.phaseDeadline = some (Stamp.later s.keep.clock 60000) := by
  obtain ⟨⟨p, hp, htag, hrec⟩, -⟩ := closeStep_effect ho
  obtain ⟨⟨step, hq⟩, -⟩ := beginRecovery_effect (updOrigin_some hp fun o => { o with tried := [], localTried := false })
  have hclock : (closeStep s).keep.clock = s.keep.clock := congrArg Kept.clock (closeStep_kept s)
  unfold recoveryFails
  rw [ho]
  dsimp only
  rw [if_pos hr]
  refine ⟨_, hq, htag, rfl, congrArg (· + 1) hrec, rfl, rfl, ?_⟩
  rw [← hclock]
  rfl

theorem recoveryFails_drops {s : Station} {o : Origin} (ho : s.call.origin = some o) (hr : 2 ≤ o.recoveries)
    (hf : s.reportFits) : (recoveryFails s).CallFailed o.tag .callDropped s.keep.clock := by
  obtain ⟨⟨p, hp, htag, -⟩, hqueue⟩ := closeStep_effect ho
  have hclock : (closeStep s).keep.clock = s.keep.clock := congrArg Kept.clock (closeStep_kept s)
  have hdrop := dropCall_effect hp none (by rw [Station.reportFits, hqueue]; exact hf)
  rw [htag, hclock] at hdrop
  unfold recoveryFails
  rw [ho]
  dsimp only
  rw [if_neg (Nat.not_lt.mpr hr)]
  exact hdrop

/-- Settles O39: the end of a pause starts a new round, the recovery limit a new recovery or the end of the call. -/
theorem pausesAndRecoveriesStartAgain : Obligations.PausesAndRecoveriesStartAgain := by
  intro o d now s hs ho hd hnow
  have hcall : (atMoment now s.station).call.origin = some o := ho
  have kept : ∀ {u : Station}, u.kept = (atMoment now s.station).kept →
      (finish u).kept = { s.station.kept with clock := now } :=
    fun hu => finish_kept_of hu (awake_opState hs) (awake_waitingEntry hs)
  have hlimit : o.phase = .recovering → exec .recoveryLimitExpiry s =
      .next { s with station := finish (recoveryFails (atMoment now s.station)) } := by
    intro hp
    change execRecoveryLimitExpiry s = _
    unfold execRecoveryLimitExpiry
    rw [takeExpiry_running (d := d) hs.1 (by simp [Station.recoveryLimit, ho, hp, hd]), ← hnow]
  refine ⟨fun hp => ?_, fun hp hr => ?_, fun hp hr hf => ?_⟩
  · have hact : o.activity = .paused := by simp [Origin.activity, hp]
    have hdue : (freshOut s.station).phaseTimer .paused = some d := by
      simp [Station.phaseTimer, ho, hact, Origin.activityDeadline, hp, hd]
    have hrun : exec .pauseExpiry s = .next { s with station := finish (post (.select o.tag) (enterPhase .selecting none
        (updOrigin (fun o => { o with tried := [], localTried := false }) (atMoment now s.station)))) } := by
      change execPauseExpiry s = _
      unfold execPauseExpiry
      rw [takeExpiry_running (d := d) hs.1 hdue, ← hnow, hcall]
    have hround := congrArg StationCore.call (enterPhase_core (p := .selecting) (d := none)
      (updOrigin_some hcall fun o => { o with tried := [], localTried := false }))
    refine ⟨_, hrun, hround.trans ?_, List.mem_append_right _ (List.mem_singleton.mpr rfl), kept (by simp)⟩
    simp only [Origin.enter, hp]
    rfl
  · obtain ⟨q, hq, htag, hphase, hrec, htried, hlocal, hdead⟩ := recoveryFails_again hcall hr
    exact ⟨_, q, hlimit hp, hq, htag, hphase, hrec, htried, hlocal, hdead, kept (recoveryFails_kept _)⟩
  · obtain ⟨hended, hreported, htone, hlamp, -⟩ := recoveryFails_drops hcall hr hf
    exact ⟨_, hlimit hp, hended, hreported, htone, hlamp, kept (recoveryFails_kept _)⟩

end Sys2Proof.Machine

/-! PROOFS. Lenders asked, lost and heard (O32-O34, O36). -/

namespace Sys2Proof.Machine

/-! ### The next lender asked (R72, R73) -/

/-- The tried list with an address (R65). -/
def triedWith (l : Nat) (tried : List Nat) : List Nat := if tried.contains l then tried else tried ++ [l]

/-- The station when BORROW has been sent to a lender and ASKING entered. -/
theorem askLender_effect {s : Station} {o : Origin} {c : Circuit} {m : Nat} (ho : s.call.origin = some o)
    (hc : s.ownCircuit = some c) (hact : s.power.opState = .active) (hroom : s.line.total < 8) (hlight : s.light) :
    (askLender m s).core =
        { s.core with
          panel :=
            if o.phase = .recovering then s.panel
            else { s.panel with failed := none, tone := .connecting, lamp := .slowFlash }
          audio :=
            if o.phase ≠ .recovering ∧ s.panel.failed.isSome = true then s.audio.filter fun b => b.owner != .panel
            else s.audio
          call :=
            { s.call with
              origin := some (Origin.enter .asking (some (s.within s.answerMs)) { o with carrier := .asked m }) } } ∧
      (askLender m s).holdsFrame (.borrowVoice o.tag c) m = true ∧ (askLender m s).light ∧
      (askLender m s).power = s.power ∧
      ∀ b d, s.holdsFrame b d = true → (askLender m s).holdsFrame b d = true := by
  generalize hv : handOver (.borrowVoice o.tag c) m (updOrigin (fun o => { o with carrier := .asked m }) s) = v
  have hgo : askLender m s = enterPhase .asking (some (s.within s.answerMs)) v := by
    unfold askLender
    rw [ho, hc, ← hv]
    rfl
  have hvcore : v.core = (updOrigin (fun o => { o with carrier := .asked m }) s).core := by rw [← hv, handOver_core]
  have hvo : v.call.origin = some { o with carrier := .asked m } := by
    rw [core_call_eq hvcore]
    exact updOrigin_some ho _
  have htakes : (updOrigin (fun o => { o with carrier := .asked m }) s).takesFrame (.borrowVoice o.tag c) m = true := by
    unfold Station.takesFrame
    rw [updOrigin_power, hact]
  have hline : (enterPhase .asking (some (s.within s.answerMs)) v).line = v.line := enterPhase_line _ _ v
  rw [hgo]
  refine ⟨?_, ?_, ?_, ?_, fun b d hb => ?_⟩
  · rw [enterPhase_core hvo, hvcore, core_panel_eq hvcore, core_audio_eq hvcore, core_call_eq hvcore]
    rfl
  · rw [holdsFrame_of_line hline, ← hv]
    exact handOver_holds htakes hroom
  · refine light_of_work (enterPhase_work _ _ v) ?_
    rw [← hv]
    exact handOver_light m (b := .borrowVoice o.tag c) rfl hlight
  · rw [enterPhase_power, ← hv, handOver_power]
    rfl
  · rw [holdsFrame_of_line hline, ← hv]
    exact handOver_keeps (s := updOrigin (fun o => { o with carrier := .asked m }) s) hroom hb

theorem chooseLender_asks {s : Station} {o : Origin} {m : Nat} {rest : List Nat} (ho : s.call.origin = some o)
    (ht : o.tried.length < 4) (hr : s.ranking o.tried = m :: rest) : chooseLender s = askLender m s := by
  unfold chooseLender
  rw [ho]
  dsimp only
  rw [if_neg (Nat.not_le.mpr ht), hr]

theorem tryAddress_eq (l : Nat) (o : Origin) : o.tryAddress l = { o with tried := triedWith l o.tried } := by
  unfold Origin.tryAddress triedWith
  split <;> rfl

/-- What a station is when the first of the ranking has been asked after a context's tried list has become `tried`. -/
structure Asks (o : Origin) (tried : List Nat) (m : Nat) (c : Circuit) (s t : Station) : Prop where
  core : t.core =
    { s.core with
      panel :=
        if o.phase ≠ .recovering then { s.panel with failed := none, tone := .connecting, lamp := .slowFlash }
        else s.panel
      audio :=
        if o.phase ≠ .recovering ∧ s.panel.failed.isSome = true then s.audio.filter fun b => b.owner != .panel
        else s.audio
      call :=
        { s.call with
          origin :=
            some (Origin.enter .asking (some (s.within s.answerMs)) { o with tried := tried, carrier := .asked m }) } }
  asked : t.holdsFrame (.borrowVoice o.tag c) m = true
  light : t.light
  power : t.power = s.power
  keeps : ∀ b d, s.holdsFrame b d = true → t.holdsFrame b d = true

theorem tried_asks {s : Station} {o : Origin} {f : Origin → Origin} {tried : List Nat} {r : CarrierRef} {c : Circuit}
    {m : Nat} {rest : List Nat} (ho : s.call.origin = some o) (hf : f o = { o with tried := tried, carrier := r })
    (hc : s.ownCircuit = some c) (hact : s.power.opState = .active) (hroom : s.line.total < 8) (hlight : s.light)
    (ht : tried.length < 4) (hr : s.ranking tried = m :: rest) : Asks o tried m c s (chooseLender (updOrigin f s)) := by
  have hupd := updOrigin_some ho f
  rw [hf] at hupd
  have hgo : chooseLender (updOrigin f s) = askLender m (updOrigin f s) := chooseLender_asks hupd ht hr
  obtain ⟨hcore, hasked, hl, hp, hk⟩ := askLender_effect (s := updOrigin f s) (m := m) hupd hc hact hroom hlight
  rw [← hgo] at hcore hasked hl hp hk
  refine ⟨hcore.trans ?_, hasked, hl, hp, hk⟩
  by_cases hp : o.phase = .recovering
  · simp only [hp, if_true, ne_eq, not_true_eq_false, if_false]
    rfl
  · simp only [hp, if_false, ne_eq, not_false_eq_true, if_true]
    rfl

theorem passOver_asks {s : Station} {o : Origin} {l : Nat} {c : Circuit} {m : Nat} {rest : List Nat}
    (ho : s.call.origin = some o) (hc : s.ownCircuit = some c) (hact : s.power.opState = .active)
    (hroom : s.line.total < 8) (hlight : s.light) (ht : (triedWith l o.tried).length < 4)
    (hr : s.ranking (triedWith l o.tried) = m :: rest) : Asks o (triedWith l o.tried) m c s (passOver l s) :=
  tried_asks (r := .absent) ho (by rw [tryAddress_eq]) hc hact hroom hlight ht hr

/-- The end of a command after which a lender has been asked. -/
theorem Asks.finished {o : Origin} {tried : List Nat} {m : Nat} {c : Circuit} {s t : Station} (h : Asks o tried m c s t)
    (hp : s.power.progress ≠ .waitingEntry) :
    (finish t).core = t.core ∧ (finish t).holdsFrame (.borrowVoice o.tag c) m = true := by
  have hpt : t.power.progress ≠ .waitingEntry := by rw [h.power]; exact hp
  exact ⟨finish_core h.light hpt, finish_holds rfl h.light hpt h.asked⟩

theorem ranking_of_core {s t : Station} (h : t.core = s.core) (x : List Nat) : t.ranking x = s.ranking x := by
  unfold Station.ranking Station.rankedEntries Station.tagOrigin Station.config
  rw [core_directory_eq h, core_config_eq h]

theorem ownCircuit_of_core {s t : Station} (h : t.core = s.core) : t.ownCircuit = s.ownCircuit := by
  unfold Station.ownCircuit Station.entry
  rw [core_circuits_eq h]

theorem clearPartner_effect {tag : Tag} {r : ClearReason} {d : Nat} {s : Station} (hact : s.power.opState = .active)
    (hroom : s.line.total < 8) (hlight : s.light) :
    (clearPartner tag r d s).core = s.core ∧ (clearPartner tag r d s).light ∧ (clearPartner tag r d s).power = s.power ∧
      (clearPartner tag r d s).holdsFrame (.clear tag none r) d = true ∧
      (clearPartner tag r d s).line.total ≤ s.line.total + 1 := by
  refine ⟨handOver_core _ d s, handOver_light d (b := .clear tag none r) rfl hlight, handOver_power _ d s,
    handOver_holds ?_ hroom, handOver_total hroom⟩
  unfold Station.takesFrame
  rw [hact]

/-- Settles O32: a lender passed over joins the tried list, and the next one is asked. -/
theorem nextLenderIsAsked : Obligations.NextLenderIsAsked := by
  intro o l m rest c s hs hact ho hc hroom tried hlen hrank shown asks
  have hroom8 : s.station.line.total < 8 := Nat.lt_succ_of_lt hroom
  have asked : ∀ {w t : Station} {now : Stamp} {directory : Directory},
      w.core = { s.station.core with clock := now, directory := directory } → w.power = s.station.power →
      Asks o tried m c w t → asks now directory { s with station := finish t } := by
    intro w t now directory hw hpower h
    obtain ⟨hcore, hholds⟩ := h.finished (by rw [hpower]; exact hs.2.2)
    have hpanel : w.panel = s.station.panel := congrArg StationCore.panel hw
    have haudio : w.audio = s.station.audio := congrArg StationCore.audio hw
    have hcall : w.call = s.station.call := congrArg StationCore.call hw
    have hclock : w.keep.clock = now := congrArg StationCore.clock hw
    have hconfig : w.keep.config = s.station.keep.config := congrArg StationCore.config hw
    have hdead : w.within w.answerMs = Stamp.later now s.station.answerMs := by
      simp only [Station.within, Station.now, Station.answerMs, Station.config, hclock, hconfig]
    exact ⟨by rw [hcore, h.core, hw, hpanel, haudio, hcall, hdead], hholds⟩
  have due : ∀ {p : Phase} {d : Stamp}, o.activity = p → o.activityDeadline = some d →
      (freshOut s.station).phaseTimer p = some d := by
    intro p d hp hd
    simp [Station.phaseTimer, ho, hp, hd]
  have passed : ∀ now, Asks o tried m c (atMoment now s.station) (passOver l (atMoment now s.station)) := fun now =>
    passOver_asks ho hc hact hroom8 (atMoment_light now s.station) hlen hrank
  refine ⟨fun f hears hdest horigin hbody hsource hphase hcarrier => ?_, fun d now hphase hcarrier hdead hnow => ?_,
    fun d now hphase hcarrier hdead hnow => ?_, fun d now hphase hwoken hdead hnow => ?_⟩
  · have hgo : takeDecline l o.tag (heardFrom l s.station) = passOver l (heardFrom l s.station) := by
      unfold takeDecline
      rw [heardFrom_call, ho]
      dsimp only
      rw [if_pos ⟨by rw [heardFrom_isOwn]; exact horigin, rfl, hphase, hcarrier⟩]
    have hasks : Asks o tried m c (heardFrom l s.station) (passOver l (heardFrom l s.station)) :=
      passOver_asks (by rw [heardFrom_call]; exact ho) (by simpa [Station.ownCircuit] using hc)
        (by rw [heardFrom_power]; exact hact) (by rw [heardFrom_total]; exact hroom8) (heardFrom_light l s.station) hlen
        (by rw [heardFrom_ranking]; exact hrank)
    refine ⟨_, (takeAddressed_heard hears hdest hbody).trans (by rw [hsource, hgo]), asked ?_ ?_ hasks⟩
    · rw [heardFrom_core, heardFrom_directory]
      rfl
    · exact heardFrom_power l s.station
  · change ∃ t, execAnswerTimeoutExpiry s = _ ∧ _
    refine ⟨_, takeExpiry_running hs.1 (due hphase hdead), ?_⟩
    rw [← hnow]
    have hgo : passOverCarrier none (atMoment now s.station) = passOver l (atMoment now s.station) := by
      unfold passOverCarrier
      rw [show (atMoment now s.station).call.origin = some o from ho]
      dsimp only
      rw [hcarrier]
    rw [hgo]
    exact asked (w := atMoment now s.station) rfl rfl (passed now)
  · change ∃ t, execAwaitingConnectExpiry s = _ ∧ _
    refine ⟨_, takeExpiry_running hs.1 (due hphase hdead), ?_⟩
    rw [← hnow]
    have hgo : passOverCarrier (some .noAnswer) (atMoment now s.station) =
        passOver l (clearPartner o.tag .noAnswer l (atMoment now s.station)) := by
      unfold passOverCarrier
      rw [show (atMoment now s.station).call.origin = some o from ho]
      dsimp only
      rw [hcarrier]
    obtain ⟨hcore, hlight, hpower, hholds, hcroom⟩ := clearPartner_effect (tag := o.tag) (r := .noAnswer) (d := l)
      (s := atMoment now s.station) hact hroom8 (atMoment_light now s.station)
    have hasks : Asks o tried m c (clearPartner o.tag .noAnswer l (atMoment now s.station))
        (passOver l (clearPartner o.tag .noAnswer l (atMoment now s.station))) :=
      passOver_asks (by rw [core_call_eq hcore]; exact ho) ((ownCircuit_of_core hcore).trans hc) (by rw [hpower]; exact hact)
        (Nat.lt_of_le_of_lt hcroom (Nat.succ_lt_succ hroom)) hlight hlen ((ranking_of_core hcore _).trans hrank)
    rw [hgo]
    refine ⟨asked hcore hpower hasks, finish_holds rfl hasks.light ?_ (hasks.keeps _ _ hholds)⟩
    rw [hasks.power, hpower]
    exact hs.2.2
  · change ∃ t, execWakeAllowanceExpiry s = _ ∧ _
    refine ⟨_, takeExpiry_running hs.1 (due hphase hdead), ?_⟩
    rw [← hnow]
    refine asked (w := atMoment now s.station) rfl rfl (tried_asks (r := o.carrier) ho ?_ hc hact hroom8
      (atMoment_light now s.station) hlen hrank)
    have htry := tryAddress_eq o.woken o
    rw [congrArg (triedWith · o.tried) hwoken] at htry
    exact htry

/-- A phase entered in ACTIVE by a station whose core is known, at the end of the command. -/
theorem finish_enterPhase_core {p : Phase} {d : Timer} {o : Origin} {x : Station} {k : StationCore} (hx : x.core = k)
    (ho : x.call.origin = some o) (hl : x.light) (hp : x.power.progress ≠ .waitingEntry) :
    (finish (enterPhase p d x)).core =
      { k with
        panel :=
          if o.phase = .recovering then k.panel
          else { k.panel with failed := none, tone := .connecting, lamp := .slowFlash }
        audio :=
          if o.phase ≠ .recovering ∧ k.panel.failed.isSome = true then k.audio.filter fun b => b.owner != .panel
          else k.audio
        call := { k.call with origin := some (o.enter p d) } } := by
  subst hx
  rw [finish_core (light_of_work (enterPhase_work p d x) hl) (by rw [enterPhase_power]; exact hp), enterPhase_core ho]
  rfl

/-- Settles O33: a LEND from the lender asked starts AWAITING_CONNECT. -/
theorem lendStartsAwaitingConnect : Obligations.LendStartsAwaitingConnect := by
  intro f b o s hears hdest horigin hbody ho htag hphase hcarrier
  have hwo : (heardFrom f.source.toNat s.station).call.origin = some o := by rw [heardFrom_call, ho]
  have hgo : takeLend f.source.toNat b (heardFrom f.source.toNat s.station) =
      enterPhase .awaitingConnect (some (s.station.within 65000))
        (updOrigin (fun o => { o with carrier := .lent f.source.toNat b.letter, lastPartner := some s.station.now })
          (heardFrom f.source.toNat s.station)) := by
    unfold takeLend
    rw [hwo]
    simp only [heardFrom_isOwn, heardFrom_within, heardFrom_now, htag, horigin, Bool.not_true, Bool.false_eq_true,
      if_false, hphase, hcarrier, and_self, if_true]
  refine ⟨_, (takeAddressed_heard hears hdest hbody).trans (by rw [hgo]), ?_⟩
  refine (finish_enterPhase_core (k := { s.station.core with
      directory := (refreshPeer f.source.toNat s.station).directory
      call := { s.station.call with
        origin := some { o with carrier := .lent f.source.toNat b.letter, lastPartner := some s.station.now } } })
    ?_ (updOrigin_some hwo _) ?_ ?_).trans rfl
  · rw [← heardFrom_directory]
    simp [Station.core, updOrigin, ho]
  · exact heardFrom_light f.source.toNat s.station
  · rw [updOrigin_power, heardFrom_power]
    exact hears.1.2.2

end Sys2Proof.Machine

/-! PROOFS. CONNECTED from the carrier, and the CALL_STATUS schedule (O34, O36). -/

namespace Sys2Proof.Machine

/-! ### A borrowed call connected (R76, R90) -/

theorem addBridge_circuitOverTone {m : Mode} {c : Circuit} {t : Tag} {h : Nat} {start : Stamp} {v : Station}
    (ha : v.audio = [⟨.tone, m.callerEnd, .origin t⟩]) (he : v.entry c = .heldOwn h t start) :
    addBridge ⟨m.callerEnd, .callerSide c, .origin t⟩ v =
      .ok { v with audio := [⟨m.callerEnd, .callerSide c, .origin t⟩] } := by
  cases m <;>
    simp [Mode.callerEnd, addBridge, pairAllowed, End.isCaller, Station.endInCall, Station.endGuarded, Station.mayBridge,
      he, ha, Bridge.meets, Bridge.replaceable, Owner.isOrigin]

theorem enterConnected_eq {v : Station} {o : Origin} (ho : v.call.origin = some o) (hc : o.connected = false)
    (hf : v.keep.tally.frozen = false) :
    enterConnected v =
      { v with
        keep.tally := { v.keep.tally with connected := v.keep.tally.connected + 1 }
        call.origin :=
          some
            { o with
              phase := .connected, phaseDeadline := none, step := .none, stepDeadline := none
              setupDeadline := none, connected := true } } := by
  unfold enterConnected
  simp [ho, hc, tallyUp, hf, updOrigin]

theorem connectBorrowed_eq {v : Station} {o : Origin} {c : Circuit} {h : Nat} {start : Stamp}
    (ho : v.call.origin = some o) (hconn : o.connected = false) (hf : v.keep.tally.frozen = false)
    (hc : v.ownCircuit = some c) (he : v.entry c = .heldOwn h o.tag start)
    (ha : v.audio = [⟨.tone, o.mode.callerEnd, .origin o.tag⟩]) :
    connectBorrowed v =
      { v with
        keep.tally := { v.keep.tally with connected := v.keep.tally.connected + 1 }
        call.origin :=
          some
            { o with
              phase := .connected, phaseDeadline := none, step := .none, stepDeadline := none
              setupDeadline := none, connected := true, lastPartner := some v.now }
        audio := [⟨o.mode.callerEnd, .callerSide c, .origin o.tag⟩]
        panel := { v.panel with failed := none, tone := .none, lamp := .steady } } := by
  have hconnected := enterConnected_eq (v := { v with call.origin := some { o with lastPartner := some v.now } }) rfl
    hconn hf
  have hbridge := addBridge_circuitOverTone (m := o.mode) (c := c) (v := enterConnected
    { v with call.origin := some { o with lastPartner := some v.now } }) (by rw [hconnected]; exact ha)
    (by rw [hconnected]; exact he)
  unfold connectBorrowed
  rw [ho]
  dsimp only
  rw [show Station.ownCircuit (enterConnected _) = some c by rw [hconnected]; exact hc]
  dsimp only
  rw [hbridge, hconnected]
  exact showNotice_eq .none .steady (by simp)

/-- Settles O34: CONNECTED from the carrier connects a borrowed call. -/
theorem connectedJoinsCircuit : Obligations.ConnectedJoinsCircuit := by
  intro f o c h start s hears hdest horigin hbody ho hphase hcarrier hconn hc he hf ha
  have hwo : (heardFrom f.source.toNat s.station).call.origin = some o := by rw [heardFrom_call, ho]
  have hact : o.activity = .awaitingConnect := by simp [Origin.activity, hphase]
  have hgo : takeConnected f.source.toNat o.tag (heardFrom f.source.toNat s.station) =
      connectBorrowed (heardFrom f.source.toNat s.station) := by
    unfold takeConnected
    rw [hwo]
    simp only [heardFrom_isOwn, horigin, Bool.not_true, Bool.false_eq_true, if_false, hcarrier, and_self, if_true, hact]
  have heq := connectBorrowed_eq hwo hconn (by rw [heardFrom_keep]; exact hf)
    (by simpa [Station.ownCircuit] using hc) (by rw [heardFrom_entry]; exact he) (by rw [heardFrom_audio]; exact ha)
  refine ⟨_, (takeAddressed_heard hears hdest hbody).trans (by rw [hgo, heq]), ?_⟩
  dsimp only
  rw [finish_core]
  · rw [← heardFrom_directory]
    simp [Station.core]
  · exact light_of_nil (heardFrom_work f.source.toNat s.station)
  · dsimp only
    rw [heardFrom_power]
    exact hears.1.2.2

/-! ### CALL_STATUS on schedule (R91) -/

/-- A frame of a body stands in the line interface, whatever its destination. -/
theorem queued_body_iff (s : Station) (b : TxBody) :
    s.queued (fun g => g.body == b) = true ↔ ∃ d, s.holdsFrame b d = true := by
  rw [queued_iff]
  constructor
  · rintro ⟨g, hg, hb⟩
    exact ⟨g.dest, (holdsFrame_iff s b g.dest).mpr ⟨g, hg, eq_of_beq hb, rfl⟩⟩
  · rintro ⟨d, hd⟩
    obtain ⟨g, hg, hb, -⟩ := (holdsFrame_iff s b d).mp hd
    exact ⟨g, hg, beq_iff_eq.mpr hb⟩

theorem queueStatus_effect {b : TxBody} {d : Nat} {s : Station} (hact : s.power.opState = .active)
    (hroom : s.line.total < 8) (hclaim : b.isClaim = false) (hl : s.light) :
    (queueStatus b d s).core = s.core ∧ (queueStatus b d s).light ∧ (queueStatus b d s).power = s.power ∧
      (queueStatus b d s).queued (fun g => g.body == b) = true ∧
      ((s.queued fun g => g.body == b && !g.begun) = false → (queueStatus b d s).holdsFrame b d = true) := by
  have htakes : s.takesFrame b d = true := by
    unfold Station.takesFrame
    rw [hact]
  have hholds := handOver_holds htakes hroom
  unfold queueStatus
  split
  · next hq =>
    refine ⟨rfl, hl, rfl, ?_, fun h => absurd (hq.symm.trans h) (by decide)⟩
    obtain ⟨g, hg, hb⟩ := (queued_iff _ _).mp hq
    exact (queued_iff _ _).mpr ⟨g, hg, (Bool.and_eq_true _ _ ▸ hb).1⟩
  · exact ⟨handOver_core b d s, handOver_light d hclaim hl, handOver_power b d s,
      (queued_body_iff _ b).mpr ⟨d, hholds⟩, fun _ => hholds⟩

/-- The end of a command that has queued a CALL_STATUS. -/
theorem finish_queueStatus {b : TxBody} {d : Nat} {s : Station} (hact : s.power.opState = .active)
    (hroom : s.line.total < 8) (hclaim : b.isClaim = false) (hann : b.isAnnounce = false) (hl : s.light)
    (hp : s.power.progress ≠ .waitingEntry) :
    (finish (queueStatus b d s)).core = s.core ∧
      (finish (queueStatus b d s)).queued (fun g => g.body == b) = true ∧
      ((s.queued fun g => g.body == b && !g.begun) = false → (finish (queueStatus b d s)).holdsFrame b d = true) := by
  obtain ⟨hcore, hlight, hpower, hqueued, hholds⟩ := queueStatus_effect (d := d) hact hroom hclaim hl
  have hpq : (queueStatus b d s).power.progress ≠ .waitingEntry := by rw [hpower]; exact hp
  obtain ⟨e, he⟩ := (queued_body_iff _ b).mp hqueued
  exact ⟨(finish_core hlight hpq).trans hcore, (queued_body_iff _ b).mpr ⟨e, finish_holds hann hlight hpq he⟩,
    fun h => finish_holds hann hlight hpq (hholds h)⟩

/-- Settles O36: a CALL_STATUS stands in the queue at each expiry of a context's schedule. -/
theorem callStatusIsSentOnSchedule : Obligations.CallStatusIsSentOnSchedule := by
  intro d now s hs hact hroom hnow
  refine ⟨fun o ho hd => ?_, fun k hk hd => ?_⟩
  · have hcall : (atMoment now s.station).call.origin = some o := ho
    have hgo : statusDue .origin (atMoment now s.station) = queueStatus (.callStatusOrigin o.tag) o.partner
        (updOrigin (fun o => { o with schedule := some (Stamp.later now 5000) }) (atMoment now s.station)) := by
      unfold statusDue
      rw [hcall]
      rfl
    change ∃ t, execCallStatusScheduleExpiry .origin s = _ ∧ _
    refine ⟨_, takeExpiry_running (d := d) hs.1 ?_, ?_⟩
    · simp [Station.scheduleOf, ho, hd]
    · rw [← hnow, hgo]
      obtain ⟨hcore, hqueued, hholds⟩ := finish_queueStatus (b := .callStatusOrigin o.tag) (d := o.partner)
        (s := updOrigin (fun o => { o with schedule := some (Stamp.later now 5000) }) (atMoment now s.station))
        hact hroom rfl rfl (atMoment_light now s.station) hs.2.2
      refine ⟨hcore.trans ?_, hqueued, hholds⟩
      rw [updOrigin, hcall]
      rfl
  · have hgo : statusDue (.carrier k.tag) (atMoment now s.station) =
        queueStatus (.callStatusCarrier k.tag k.circuit) k.tag.origin
          (updCarrier k.tag (fun k => { k with schedule := some (Stamp.later now 5000) }) (atMoment now s.station)) := by
      unfold statusDue
      dsimp only
      rw [show (atMoment now s.station).carrier? k.tag = some k from hk]
      rfl
    change ∃ t, execCallStatusScheduleExpiry (.carrier k.tag) s = _ ∧ _
    refine ⟨_, takeExpiry_running (d := d) hs.1 ?_, ?_⟩
    · rw [Station.scheduleOf, show (freshOut s.station).carrier? k.tag = some k from hk]
      exact hd
    · rw [← hnow, hgo]
      exact finish_queueStatus (b := .callStatusCarrier k.tag k.circuit) (d := k.tag.origin)
        (s := updCarrier k.tag (fun k => { k with schedule := some (Stamp.later now 5000) }) (atMoment now s.station))
        hact hroom rfl rfl (atMoment_light now s.station) hs.2.2

end Sys2Proof.Machine

/-! PROOFS. The partner's silence (O38): what a release of a bearer and the end of a call leave in the transmit queue. -/

namespace Sys2Proof.Machine

/-! ### Places in the transmit queue -/

/-- A station whose queue has one place less at the most. -/
def Station.OneMore (s t : Station) : Prop := t.line.total ≤ s.line.total + 1

theorem putBearer_total {l : Letter} {r : Bearer} {s : Station} (h : s.line.total < 8) :
    s.OneMore (putBearer l r s) := by
  unfold putBearer
  dsimp only
  generalize hu : (if (s.bearer l).state == .inCall && r.state != .inCall then removeBearerBridges l s else s) = u
  have hline : (setBearer l r u).line = s.line := by
    rw [← hu]
    cases l <;> (dsimp only [setBearer]; split <;> rfl)
  have hann : s.OneMore (announceCause false (setBearer l r u)) := by
    unfold Station.OneMore
    rw [← hline] at h ⊢
    exact announceCause_total h
  have hsame : s.OneMore (setBearer l r u) := by
    unfold Station.OneMore
    rw [hline]
    exact Nat.le_succ _
  split <;> split
  · exact hann
  · exact hsame
  · exact hann
  · exact hsame

theorem notify_line (l : Letter) (n : Notice) (s : Station) : (notify l n s).line = s.line := by
  unfold notify
  split <;> rfl

/-- HANGUP after a re-camp that is given up: the record without a network is the one change of class or grade. -/
theorem hangUp_uncamped_total {l : Letter} {s : Station} (h : s.line.total < 8) (hst : (s.bearer l).state = .dialing) :
    s.OneMore (hangUp l (putBearer l (s.bearer l).uncamped s)) := by
  have hu := putBearer_total (l := l) (r := (s.bearer l).uncamped) h
  have hb := putBearer_bearer l (s.bearer l).uncamped s
  generalize putBearer l (s.bearer l).uncamped s = u at hu hb
  have hdial : (u.bearer l).state = .dialing := by rw [hb]; exact hst
  unfold hangUp sendCommand
  rw [putBearer_silent (s := emit _ u)]
  · cases l <;> exact hu
  · change (u.bearer l).state ≠ _
    rw [hdial]
    decide
  · change (u.bearer l).state.summaryClass = _
    rw [hdial]
    rfl
  · rfl
  · exact fun e => absurd (show BearerState.ending = .available from e) (by decide)

theorem releaseFor_total {who : Claimant} {l : Letter} {s : Station} (h : s.line.total < 8) :
    s.OneMore (releaseFor who l s) := by
  have hang : s.OneMore (hangUp l s) := putBearer_total (s := emit _ s) h
  have hleave : s.OneMore (leaveReserved l s) := by
    have hn := notify_line l .released s
    unfold leaveReserved
    dsimp only
    unfold Station.OneMore
    rw [← hn] at h ⊢
    split
    · exact putBearer_total (s := emit _ _) h
    · exact putBearer_total h
  have hid : s.OneMore s := Nat.le_succ _
  unfold releaseFor
  split
  · split
    · unfold releaseBearer
      dsimp only
      split
      · exact hleave
      · next hst =>
        split
        · exact hangUp_uncamped_total h hst
        · exact hang
      · exact hang
      · exact hang
      · exact hang
      · cases l <;> exact hid
      · exact hid
    · exact hid
  · exact hid

theorem leaveService_frames (s : Station) : (leaveService s).line.frames = s.line.queue := rfl

/-- A frame of another kind survives the removal of frames that have not begun. -/
theorem removeUnbegun_holds {p : TxBody → Bool} {b : TxBody} {d : Nat} {s : Station} (hb : p b = false)
    (h : s.holdsFrame b d = true) : (removeUnbegun p s).holdsFrame b d = true := by
  rw [holdsFrame_iff] at h ⊢
  obtain ⟨g, hg, hbody, hdest⟩ := h
  have hkeep : (g.begun || !p g.body) = true := by rw [hbody, hb, Bool.not_false, Bool.or_true]
  refine ⟨g, ?_, hbody, hdest⟩
  unfold removeUnbegun
  dsimp only
  cases hv : s.line.service with
  | none =>
    rw [Line.frames, hv] at hg
    simpa [Line.frames, hv, hkeep] using hg
  | some v =>
    rw [Line.frames, hv] at hg
    rcases List.mem_append.mp hg with hg | hg
    · have hgv : g = v.frame := by simpa using hg
      have hstays : ¬ (!v.frame.begun && p v.frame.body) = true := by
        rw [← hgv, hbody, hb, Bool.and_false]
        decide
      dsimp only
      rw [if_neg hstays]
      simp [Line.frames, hv, hgv]
    · dsimp only
      split
      · rw [leaveService_frames]
        exact List.mem_filter.mpr ⟨hg, hkeep⟩
      · exact List.mem_append_right _ (List.mem_filter.mpr ⟨hg, hkeep⟩)

theorem removeUnbegun_total (p : TxBody → Bool) (s : Station) : (removeUnbegun p s).line.total ≤ s.line.total := by
  have hfilter : (s.line.queue.filter fun g => g.begun || !p g.body).length ≤ s.line.queue.length :=
    List.length_filter_le _ _
  unfold removeUnbegun
  dsimp only
  cases hv : s.line.service with
  | none => simpa [Line.total, hv] using hfilter
  | some v =>
    dsimp only
    split
    · simp [leaveService, withdrawDraw, Line.total, hv]
      omega
    · simpa [Line.total, hv] using hfilter

/-! ### A call dropped with its lender silent (R94, R103) -/

/-- The end of a context leaves the circuits and the power unit, and hands no frame over. -/
theorem enterEnding_frame (s : Station) :
    (enterEnding s).circuits = s.circuits ∧ (enterEnding s).power.opState = s.power.opState ∧
      (enterEnding s).line.total ≤ s.line.total := by
  unfold enterEnding
  split
  · dsimp only
    split
    · refine ⟨?_, ?_, removeUnbegun_total _ _⟩
      · rw [core_circuits_eq (removeUnbegun_core _ _)]
        rfl
      · exact congrArg StationCore.opState (removeUnbegun_core _ _)
    · exact ⟨rfl, rfl, Nat.le_refl _⟩
  · exact ⟨rfl, rfl, Nat.le_refl _⟩

/-- A release is made of records replaced, commands and notices: what these keep, it keeps. -/
theorem releaseFor_keeps {P : Station → Prop} (hput : ∀ l r t, P t → P (putBearer l r t))
    (hset : ∀ l r t, P t → P (setBearer l r t)) (hemit : ∀ o t, P t → P (emit o t))
    (hnotify : ∀ l n t, P t → P (notify l n t)) {who : Claimant} {l : Letter} {s : Station} (h : P s) :
    P (releaseFor who l s) := by
  have hang : ∀ t, P t → P (hangUp l t) := by
    intro t ht
    unfold hangUp sendCommand
    exact hput _ _ _ (hemit _ _ ht)
  have hleave : P (leaveReserved l s) := by
    unfold leaveReserved goChecking goAvailable sendCommand
    dsimp only
    split
    · exact hput _ _ _ (hemit _ _ (hnotify _ _ _ h))
    · exact hput _ _ _ (hnotify _ _ _ h)
  unfold releaseFor
  split
  · split
    · unfold releaseBearer
      dsimp only
      split
      · exact hleave
      · split
        · exact hang _ (hput _ _ _ h)
        · exact hang _ h
      · exact hang _ h
      · exact hang _ h
      · exact hang _ h
      · exact hset _ _ _ h
      · exact h
    · exact h
  · exact h

theorem releaseFor_holds {who : Claimant} {l : Letter} {b : TxBody} {d : Nat} {s : Station} (hb : b.isAnnounce = false)
    (h : s.holdsFrame b d = true) : (releaseFor who l s).holdsFrame b d = true :=
  releaseFor_keeps (P := fun t => t.holdsFrame b d = true) (fun _ _ _ ht => putBearer_holds hb ht)
    (fun l r t ht => (holdsFrame_of_line (setBearer_line l r t) b d).trans ht) (fun _ _ ht => ht)
    (fun l n t ht => (holdsFrame_of_line (notify_line l n t) b d).trans ht) h

theorem releaseOwnBearer_holds {b : TxBody} {d : Nat} {s : Station} (hb : b.isAnnounce = false)
    (h : s.holdsFrame b d = true) : (releaseOwnBearer s).holdsFrame b d = true := by
  unfold releaseOwnBearer
  split
  · split
    · exact releaseFor_holds hb h
    · exact h
  · exact h

theorem tryEnd_holds {b : TxBody} {d : Nat} {s : Station} (hb : ∀ t, TxBody.isOriginStatus t b = false)
    (h : s.holdsFrame b d = true) : (tryEnd s).holdsFrame b d = true := by
  unfold tryEnd
  split
  · split
    · exact removeUnbegun_holds (hb _) h
    · exact h
  · exact h

/-- The frame with which a dropped call has released its circuit, or cleared its lender, stays in the queue. -/
theorem dropCall_holds {s : Station} {o : Origin} {owed : Option (ClearReason × Nat)} {b : TxBody} {d : Nat}
    (ho : s.call.origin = some o) (hb : b.isAnnounce = false) (hs : ∀ t, TxBody.isOriginStatus t b = false)
    (h : (dropRelease owed o.tag (enterEnding s)).holdsFrame b d = true) :
    (dropCall owed s).holdsFrame b d = true := by
  rw [dropCall_eq ho]
  generalize hw : releaseOwnBearer (dropRelease owed o.tag (enterEnding s)) = w
  have hheld : w.holdsFrame b d = true := by
    rw [← hw]
    exact releaseOwnBearer_holds hb h
  obtain ⟨-, -, -, hline, -⟩ := handReport_frame (callReport .callDropped w.now) w
  obtain ⟨audio, hshow⟩ := showFailed_shape o.mode.callerEnd (handReport (callReport .callDropped w.now) w)
  refine tryEnd_holds hs ?_
  rw [hshow]
  exact (holdsFrame_of_line hline b d).trans hheld

/-- What clears the lender of a dropped call: the release of the circuit held, or a CLEAR of its own. -/
theorem dropRelease_clears {s : Station} {tag : Tag} {r : ClearReason} {l : Nat} (hact : s.power.opState = .active)
    (hroom : s.line.total < 8) :
    (s.ownCircuit = none → (dropRelease (some (r, l)) tag s).holdsFrame (.clear tag none r) l = true) ∧
      ∀ c h start, s.ownCircuit = some c → s.entry c = .heldOwn h tag start →
        (dropRelease (some (r, l)) tag s).holdsFrame (.clear tag (some c) r) l = true := by
  unfold dropRelease
  refine ⟨fun hc => ?_, fun c h start hc hentry => ?_⟩
  · rw [hc]
    refine handOver_holds ?_ hroom
    unfold Station.takesFrame
    rw [hact]
  · rw [hc]
    dsimp only
    rw [releaseCircuit_held hc]
    exact (releaseHeld_effect hentry hroom hact).2

/-! ### The lender of a connected call lost (R99, R102) -/

theorem showNotice_shape (tone : Tone) (lamp : Lamp) (s : Station) :
    ∃ audio panel, showNotice tone lamp s = { s with audio := audio, panel := panel } := by
  unfold showNotice endFailed
  dsimp only
  split
  · exact ⟨_, _, rfl⟩
  · exact ⟨s.audio, _, rfl⟩

/-- A connected borrowed call whose lender is lost goes into a recovery, with the lender alone in the tried list. -/
theorem carrierLost_recovers {s : Station} {o : Origin} {l : Nat} {x : Option Letter} {r : ClearReason}
    (ho : s.call.origin = some o) (hcar : o.carrier = .lent l x) (hr : o.recoveries < 2) :
    (∃ q, (carrierLost (some r) false s).call.origin = some q ∧ q.tag = o.tag ∧ q.phase = .recovering ∧
        q.recoveries = o.recoveries + 1 ∧ q.tried = [l] ∧ q.phaseDeadline = some (Stamp.later s.keep.clock 60000) ∧
        q.carrier = .absent) ∧
      .select o.tag ∈ (carrierLost (some r) false s).work ∧
      (carrierLost (some r) false s).line = (clearPartner o.tag r l s).line := by
  generalize hw : removeBridges (.origin o.tag)
    (updOrigin
      (fun o =>
        { o with
          tried := o.carrier.lender.toList, localTried := o.carrier.ownBearer.isSome, releasing := o.carrier.ownBearer
          carrier := .absent })
      (clearPartner o.tag r l s)) = w
  obtain ⟨audio₁, hbridge⟩ := tryBridge_shape ⟨.tone, o.mode.callerEnd, .origin o.tag⟩ w
  obtain ⟨audio₂, panel, hshow⟩ := showNotice_shape .recovering .slowFlash { w with audio := audio₁ }
  have hgo : carrierLost (some r) false s = beginRecovery { w with audio := audio₂, panel := panel } := by
    rw [← hshow, ← hbridge, ← hw]
    unfold carrierLost
    rw [ho]
    dsimp only
    rw [if_neg (Nat.not_le.mpr hr), hcar]
    rfl
  have hclear : (clearPartner o.tag r l s).desk = s.desk := clearPartner_desk o.tag r l s
  have hwo : w.call.origin = some { o with tried := [l], localTried := false, releasing := none, carrier := .absent } := by
    rw [← hw]
    refine (updOrigin_some (show (clearPartner o.tag r l s).call.origin = some o by rw [desk_call_eq hclear, ho]) _).trans ?_
    rw [hcar]
    rfl
  obtain ⟨⟨step, hq⟩, hline, hselect⟩ := beginRecovery_effect (s := { w with audio := audio₂, panel := panel }) hwo
  have hclock : w.keep.clock = s.keep.clock := by
    rw [← hw]
    exact (show (clearPartner o.tag r l s).keep.clock = s.keep.clock from desk_clock_eq hclear)
  rw [hgo]
  refine ⟨⟨_, hq, rfl, rfl, rfl, rfl, ?_, rfl⟩, hselect rfl, hline.trans ?_⟩
  · rw [← hclock]
    rfl
  · rw [← hw]
    rfl

/-! ### A carrier context closed (R96) -/

theorem closeCarrier_ends (tag : Tag) (s : Station) :
    ∀ q ∈ (closeCarrier tag s).call.carriers, q.tag = tag → q.phase = .ending ∧ q.schedule = none := by
  intro q hq htag
  obtain ⟨k, -, hk⟩ := List.mem_map.mp (show q ∈ s.call.carriers.map _ from hq)
  split at hk
  · subst hk
    exact ⟨rfl, rfl⟩
  · next hne =>
    subst hk
    exact absurd htag hne

/-- Settles O38: the silence of the partner is the loss of the carrier, of the lender asked, or of the origin. -/
theorem partnerSilenceIsLoss : Obligations.PartnerSilenceIsLoss := by
  intro d now s hs hnow
  have kept : ∀ {u : Station}, u.kept = (raise .partnerLost (atMoment now s.station)).kept →
      (finish u).kept = { s.station.kept.raised .partnerLost with clock := now } :=
    fun hu => finish_kept_of (hu.trans ((raise_kept_raised _ _).trans rfl)) (awake_opState hs) (awake_waitingEntry hs)
  have hlight : (raise .partnerLost (atMoment now s.station)).light := atMoment_light now s.station
  have silent : ∀ {o : Origin} {l : Nat} {x : Option Letter} {p : Stamp}, s.station.call.origin = some o →
      o.carrier = .lent l x → o.lastPartner = some p → Stamp.later p 15000 = d → o.phase ≠ .ending →
      exec .partnerSilence s = .next { s with station := finish (originSilent (atMoment now s.station)) } := by
    intro o l x p ho hcar hlast hd hphase
    have hdead : o.silenceDeadline = some d := by
      unfold Origin.silenceDeadline
      rw [hcar, hlast]
      dsimp only
      rw [if_neg hphase, hd]
    change execPartnerSilence s = _
    unfold execPartnerSilence
    rw [takeExpiry_running (d := d) hs.1 (by rw [freshOut_call, ho]; exact hdead), ← hnow]
  refine ⟨fun o l x p ho hphase hcar hlast hd => ?_,
    fun o l x p m rest c ho hact hcar hlast hd hop hc hroom => ?_, fun k hk hphase hd hop hroom => ?_⟩
  · have hgo : originSilent (atMoment now s.station) =
        carrierLost (some .partnerSilent) false (raise .partnerLost (atMoment now s.station)) := by
      unfold originSilent
      dsimp only
      rw [show (raise .partnerLost (atMoment now s.station)).call.origin = some o from ho]
      dsimp only
      rw [if_pos (by simp [Origin.activity, hphase])]
    have hrun := (silent ho hcar hlast hd (by rw [hphase]; decide)).trans (by rw [hgo])
    refine ⟨fun hr => ?_, fun hr hf => ?_⟩
    · obtain ⟨⟨q, hq, htag, hrec, hcount, htried, hdead, habsent⟩, hselect, hline⟩ :=
        carrierLost_recovers (s := raise .partnerLost (atMoment now s.station)) (r := .partnerSilent) ho hcar hr
      refine ⟨_, q, hrun, hq, htag, hrec, hcount, htried, hdead, habsent, hselect, fun hop hroom => ?_,
        kept (carrierLost_kept _ _ _)⟩
      rw [holdsFrame_of_line hline]
      exact (clearPartner_effect (s := raise .partnerLost (atMoment now s.station)) hop (Nat.lt_succ_of_lt hroom)
        hlight).2.2.2.1
    · have hdrop : carrierLost (some .partnerSilent) false (raise .partnerLost (atMoment now s.station)) =
          dropCall (some (.partnerSilent, l)) (raise .partnerLost (atMoment now s.station)) := by
        unfold carrierLost
        rw [show (raise .partnerLost (atMoment now s.station)).call.origin = some o from ho]
        dsimp only
        rw [if_pos hr, hcar]
        rfl
      obtain ⟨hended, hreported, htone, hlamp, -⟩ := dropCall_effect (s := raise .partnerLost (atMoment now s.station)) ho
        (some (.partnerSilent, l)) hf
      rw [hdrop] at hrun
      refine ⟨_, hrun, hended, hreported, htone, hlamp, fun hop hroom => ?_, kept (dropCall_kept _ _)⟩
      obtain ⟨hcircuits, hstate, htotal⟩ := enterEnding_frame (raise .partnerLost (atMoment now s.station))
      obtain ⟨hnone, hsome⟩ := dropRelease_clears (s := enterEnding (raise .partnerLost (atMoment now s.station)))
        (tag := o.tag) (r := .partnerSilent) (l := l) (hstate.trans hop) (Nat.lt_of_le_of_lt htotal (Nat.lt_add_right 2 hroom))
      unfold Station.ownCircuit Station.entry at hnone hsome
      rw [hcircuits] at hnone hsome
      exact ⟨fun hc => dropCall_holds ho rfl (fun _ => rfl) (hnone hc),
        fun c h start hc hentry => dropCall_holds ho rfl (fun _ => rfl) (hsome c h start hc hentry)⟩
  · intro tried hlen hrank
    have hwait : o.phase ≠ .ending := by
      intro he
      rw [Origin.activity, he] at hact
      exact absurd (show Phase.ending = .awaitingConnect from hact) (by decide)
    obtain ⟨hcore, hclight, hpower, hholds, hcroom⟩ := clearPartner_effect (tag := o.tag) (r := .partnerSilent) (d := l)
      (s := raise .partnerLost (atMoment now s.station)) hop (Nat.lt_succ_of_lt hroom) hlight
    have hgo : originSilent (atMoment now s.station) =
        passOver l (clearPartner o.tag .partnerSilent l (raise .partnerLost (atMoment now s.station))) := by
      unfold originSilent
      dsimp only
      rw [show (raise .partnerLost (atMoment now s.station)).call.origin = some o from ho]
      dsimp only
      rw [if_neg (by rw [hact]; decide)]
      unfold passOverCarrier
      rw [show (raise .partnerLost (atMoment now s.station)).call.origin = some o from ho]
      dsimp only
      rw [hcar]
      rfl
    have hasks := passOver_asks (l := l) (m := m) (rest := rest) (c := c)
      (by rw [core_call_eq hcore]; exact ho) ((ownCircuit_of_core hcore).trans hc) (by rw [hpower]; exact hop)
      (Nat.lt_of_le_of_lt hcroom (Nat.succ_lt_succ hroom)) hclight hlen ((ranking_of_core hcore _).trans hrank)
    have hprog : (clearPartner o.tag .partnerSilent l (raise .partnerLost (atMoment now s.station))).power.progress ≠
        .waitingEntry := by
      rw [hpower]
      exact hs.2.2
    obtain ⟨hfcore, hborrow⟩ := hasks.finished hprog
    have hclear := finish_holds (by rfl) hasks.light (by rw [hasks.power]; exact hprog) (hasks.keeps _ _ hholds)
    rw [← hgo] at hfcore hborrow hclear hasks
    refine ⟨_, silent ho hcar hlast hd hwait, ?_, hclear, hborrow, kept ?_⟩
    · refine (core_call_eq hfcore).trans ((congrArg StationCore.call hasks.core).trans ?_)
      have hdead : (clearPartner o.tag .partnerSilent l (raise .partnerLost (atMoment now s.station))).keep.clock = now :=
        core_clock_eq hcore
      have hconfig : (clearPartner o.tag .partnerSilent l (raise .partnerLost (atMoment now s.station))).keep.config =
          (atMoment now s.station).keep.config := core_config_eq hcore
      simp only [Station.within, Station.now, Station.answerMs, Station.config, hdead, hconfig, core_call_eq hcore]
      rfl
    · rw [hgo]
      simp [clearPartner]
  · have hcarrier : (atMoment now s.station).carrier? k.tag = some k := hk
    have hrun : exec (.carrierPartnerSilence k.tag) s =
        .next { s with station := finish (carrierSilent k (atMoment now s.station)) } := by
      change execCarrierPartnerSilence k.tag s = _
      unfold execCarrierPartnerSilence
      rw [takeExpiry_running (d := d) hs.1, ← hnow, hcarrier]
      rw [show (freshOut s.station).carrier? k.tag = some k from hk]
      unfold Carrier.silenceDeadline
      simp [hphase, hd]
    generalize hv : releaseFor (.carrier k.tag) k.letter (raise .partnerLost (atMoment now s.station)) = v
    have hvop : v.power.opState = .active := by
      rw [← hv]
      exact (congrArg Desk.opState (releaseFor_desk _ _ _)).trans hop
    have hvroom : v.line.total < 8 := by
      rw [← hv]
      exact Nat.lt_of_le_of_lt (releaseFor_total (Nat.lt_succ_of_lt hroom)) (Nat.succ_lt_succ hroom)
    refine ⟨_, hrun, closeCarrier_ends k.tag _, ?_, kept (by simp [carrierSilent])⟩
    unfold carrierSilent
    rw [hv]
    refine (holdsFrame_of_line rfl _ _).trans (handOver_holds (s := v) ?_ hvroom)
    unfold Station.takesFrame
    rw [hvop]

end Sys2Proof.Machine

/-! PROOFS. Frames from the corridor line (O40-O42): the checks, what every frame row does, the sender's entry. -/

namespace Sys2Proof.Machine

/-! ### What a frame row does (R142, R143, R155) -/

/-- A command is a frame of a kind taken by owners that leave a station in STANDBY alone, a WAKE excepted. -/
def TakesFrame (kind : Nat) (f : RxFrame) (c : Instr) : Prop :=
  ∃ owners : Station → Station, (∀ s, exec c s = takeEvent (receiveFrame kind f owners) s) ∧
    (kind ≠ 2 → ∀ v : Station, v.power.opState = .standby → owners v = v)

theorem fromPeer_standby {α : Type} (f : RxFrame) (read : List Byte → Option α) (owners : α → Station → Station)
    {v : Station} (h : v.power.opState = .standby) : fromPeer f read owners v = v := by
  unfold fromPeer
  rw [if_neg fun e => absurd (h.symm.trans e.1) (by decide)]

theorem takesFrame_peer {α : Type} {kind : Nat} {f : RxFrame} {c : Instr} {read : List Byte → Option α}
    {owners : α → Station → Station} (h : ∀ s, exec c s = takeEvent (receiveFrame kind f (fromPeer f read owners)) s) :
    TakesFrame kind f c := ⟨_, h, fun _ _ hv => fromPeer_standby f read owners hv⟩

theorem takesFrame_addressed {α : Type} {kind : Nat} {f : RxFrame} {c : Instr} {read : List Byte → Option α}
    {owner : α → Station → Station} (h : ∀ s, exec c s = takeAddressed kind f read owner s) : TakesFrame kind f c :=
  takesFrame_peer h

theorem takesFrame_service {kind : Nat} {f : RxFrame} {c : Instr} {respond : Byte → Byte → Station → Station}
    (h : ∀ s, exec c s = takeService kind f respond s) : TakesFrame kind f c := by
  refine ⟨_, h, fun _ v hv => ?_⟩
  split
  · rw [if_neg (by simp [Station.servesFrame, hv])]
  · rfl

theorem takesFrame_announce (f : RxFrame) : TakesFrame 1 f (.announce f) := by
  refine ⟨_, fun s => show execAnnounce f s = _ from rfl, fun _ v hv => ?_⟩
  rw [if_neg fun e => absurd (hv.symm.trans e.1) (by decide)]

theorem takesFrame_frameRow {f : RxFrame} {row : Nat × Instr}
    (h : row ∈
      [(1, Instr.announce f), (2, .wakeFrame f), (3, .claim f), (4, .callStatus f), (5, .borrowVoice f)
      , (5, .borrowReport f), (6, .lendCall f), (6, .lendReport f), (7, .declineCall f), (7, .declineReport f)
      , (8, .connected f), (9, .clear f), (10, .reportResult f), (11, .queryStation f), (11, .queryFaults f)
      , (11, .queryDirectory f), (11, .queryCircuits f), (11, .queryBearer f), (11, .queryQueues f)
      , (11, .unknownSelector f), (12, .status f), (13, .clearFaults f), (13, .restart f), (13, .reload f)
      , (13, .recapture f), (13, .unknownOrder f)]) : TakesFrame row.1 f row.2 := by
  simp only [List.mem_cons, List.not_mem_nil, or_false] at h
  rcases h with rfl | rfl | rfl | rfl | rfl | rfl | rfl | rfl | rfl | rfl | rfl | rfl | rfl | rfl | rfl | rfl | rfl |
    rfl | rfl | rfl | rfl | rfl | rfl | rfl | rfl | rfl
  · exact takesFrame_announce f
  · exact ⟨takeWakeFrame f, fun _ => rfl, fun h => absurd rfl h⟩
  · exact takesFrame_peer (fun s => show execClaim f s = _ from rfl)
  · exact takesFrame_peer (fun s => show execCallStatus f s = _ from rfl)
  · exact takesFrame_addressed (fun s => show execBorrowVoice f s = _ from rfl)
  · exact takesFrame_addressed (fun s => show execBorrowReport f s = _ from rfl)
  · exact takesFrame_addressed (fun s => show execLendCall f s = _ from rfl)
  · exact takesFrame_addressed (fun s => show execLendReport f s = _ from rfl)
  · exact takesFrame_addressed (fun s => show execDeclineCall f s = _ from rfl)
  · exact takesFrame_addressed (fun s => show execDeclineReport f s = _ from rfl)
  · exact takesFrame_addressed (fun s => show execConnected f s = _ from rfl)
  · exact takesFrame_peer (fun s => show execClear f s = _ from rfl)
  · exact takesFrame_addressed (fun s => show execReportResult f s = _ from rfl)
  · exact takesFrame_service (fun s => show execQueryStation f s = _ from rfl)
  · exact takesFrame_service (fun s => show execQueryFaults f s = _ from rfl)
  · exact takesFrame_service (fun s => show execQueryDirectory f s = _ from rfl)
  · exact takesFrame_service (fun s => show execQueryCircuits f s = _ from rfl)
  · exact takesFrame_service (fun s => show execQueryBearer f s = _ from rfl)
  · exact takesFrame_service (fun s => show execQueryQueues f s = _ from rfl)
  · exact takesFrame_service (fun s => show execUnknownSelector f s = _ from rfl)
  · exact takesFrame_peer (fun s => show execStatus f s = _ from rfl)
  · exact takesFrame_service (fun s => show execClearFaults f s = _ from rfl)
  · exact takesFrame_service (fun s => show execRestart f s = _ from rfl)
  · exact takesFrame_service (fun s => show execReload f s = _ from rfl)
  · exact takesFrame_service (fun s => show execRecapture f s = _ from rfl)
  · exact takesFrame_service (fun s => show execUnknownOrder f s = _ from rfl)

/-! ### The end of a command with nothing left to do, in STANDBY too -/

theorem upkeep_idle {s : Station} (hp : s.power.progress = .none) (hw : s.work = []) :
    (upkeep s).kept = s.kept ∧ (upkeep s).work = [] := by
  have hstall : (markReload (keepStall s)).work = s.work ∧ (markReload (keepStall s)).power.progress = s.power.progress := by
    unfold markReload keepStall
    repeat' split
    all_goals exact ⟨rfl, rfl⟩
  refine ⟨upkeep_kept (by rw [hp]; decide), ?_⟩
  unfold upkeep standbyCheck
  rw [hstall.2, hp]
  dsimp only
  rw [keepIdle_work, hstall.1, hw]

/-- The end of a command that leaves no notice, of a station that is not on its way into STANDBY. -/
theorem finish_idle_kept {s : Station} (hp : s.power.progress = .none) (hw : s.work = []) : (finish s).kept = s.kept := by
  obtain ⟨hkept, hwork⟩ := upkeep_idle hp hw
  unfold finish
  rw [drain_nil 256 hw, drain_nil 128 hwork, pump_kept, keepIdle_kept, hkept]

/-! ### The checks (R143, R145) -/

theorem judge_discarded {kind : Nat} {f : RxFrame} {owners : Station → Station} {s : Station}
    (hc : frameCheckOk kind f = true) (h : s.power.opState = .start ∨ s.segmentOk kind f = false) :
    judgeFrame kind f owners s = s := by
  unfold judgeFrame
  rw [if_neg (by simp [hc]), if_pos (by rcases h with h | h <;> simp [h])]

theorem judge_clash {kind : Nat} {f : RxFrame} {owners : Station → Station} {s : Station}
    (hc : frameCheckOk kind f = true) (ho : s.power.opState = .active) (hg : s.segmentOk kind f = true)
    (hi : s.isOwn f.source.toNat = true) : judgeFrame kind f owners s = addressClash s := by
  unfold judgeFrame
  rw [if_neg (by simp [hc]), if_neg (by simp [ho, hg]), if_pos (by simp [ho, hi])]

/-- In STANDBY a frame whose owners leave the station alone is discarded (R155). -/
theorem judge_standby {kind : Nat} {f : RxFrame} {owners : Station → Station} {s : Station}
    (hc : frameCheckOk kind f = true) (ho : s.power.opState = .standby)
    (hstays : ∀ v : Station, v.power.opState = .standby → owners v = v) : judgeFrame kind f owners s = s := by
  unfold judgeFrame
  rw [if_neg (by simp [hc])]
  split
  · rfl
  · rw [if_neg (by simp [ho])]
    split
    · exact hstays s ho
    · rfl

theorem TakesFrame.runs {kind : Nat} {f : RxFrame} {c : Instr} {s : State} (h : TakesFrame kind f c)
    (hr : s.station.running = true) (ht : s.station.transmitting = false) (ha : s.station.line.assembly ≠ .skipping) :
    ∃ owners : Station → Station,
      exec c s = .next { s with station := finish (judgeFrame kind f owners (assembled s.station)) } ∧
        (kind ≠ 2 → ∀ v : Station, v.power.opState = .standby → owners v = v) := by
  obtain ⟨owners, hrun, hstays⟩ := h
  refine ⟨owners, ?_, hstays⟩
  rw [hrun, takeEvent_running hr, receive_assembled (s := freshOut s.station) ht ha]
  rfl

theorem assembled_kept (s : Station) : (assembled s).kept = { s.kept with assembly := .skipping } := rfl

theorem frameCheck_counter {s t : Station} (h : t.kept.counters = s.kept.counters) :
    t.keep.faults.counter .frameCheck = s.keep.faults.counter .frameCheck :=
  (List.cons.inj h).1

/-- The station when its own address has been heard from the line (R145). -/
theorem clash_kept {s : Station} (h : s.kept.waitingEntry = false) :
    (addressClash (assembled s)).kept =
      { s.kept.raised .addressClash with
        opState := .isolated, clash := true, assembly := .skipping
        directory := { entries := [], effective := s.config.circuits } } := by
  have hraised : (raise .addressClash (assembled s)).kept = { s.kept.raised .addressClash with assembly := .skipping } :=
    raise_kept_raised _ _
  have hclash : ({ raise .addressClash (assembled s) with power.clash := true } : Station).kept =
      { (raise .addressClash (assembled s)).kept with clash := true } := rfl
  rw [addressClash, enterIsolated_kept, hclash, hraised, ← h]
  rfl

/-- Settles O40: the checks decide first what a frame does. -/
theorem frameChecksDecideFirst : Obligations.FrameChecksDecideFirst := by
  intro f row s hrow ht ha
  have hframe := takesFrame_frameRow hrow
  refine ⟨fun hs => ?_, fun hr hstate hprog => ?_⟩
  · obtain ⟨owners, hrun, -⟩ := hframe.runs hs.1 ht ha
    have hlight : (assembled s.station).light := light_of_nil rfl
    have hstate := awake_opState hs
    have hentry := awake_waitingEntry hs
    refine ⟨fun hc => ?_, fun hc h => ?_, fun hc hact hg hi => ?_⟩
    · rw [judge_wrong hc] at hrun
      have hkept : (raise .frameCheck (assembled s.station)).kept =
          { s.station.kept.raised .frameCheck with assembly := .skipping } := raise_kept_raised _ _
      have hcore := finish_core (s := raise .frameCheck (assembled s.station)) hlight hs.2.2
      exact ⟨_, hrun, hcore, finish_kept_of hkept hstate hentry⟩
    · rw [judge_discarded (s := assembled s.station) hc h] at hrun
      exact ⟨_, hrun, finish_core hlight hs.2.2, finish_kept_of (assembled_kept _) hstate hentry⟩
    · rw [judge_clash (s := assembled s.station) hc hact hg hi] at hrun
      have hkept := finish_kept_of (clash_kept hentry) (show OpState.isolated ≠ .standby by decide) hentry
      refine ⟨_, hrun, ?_⟩
      dsimp only
      exact hkept
  · obtain ⟨owners, hrun, hstays⟩ := hframe.runs hr ht ha
    refine fun h => ⟨_, hrun, ?_⟩
    have hdone : ∀ {u : Station}, u.core = (assembled s.station).core → u.work = [] → u.power.progress = .none →
        (finish u).core = s.station.core ∧ (finish u).kept = u.kept := fun hcore hw hp =>
      ⟨(finish_core (light_of_nil hw) (by rw [hp]; decide)).trans hcore, finish_idle_kept hp hw⟩
    by_cases hc : frameCheckOk row.1 f = true
    · rw [if_pos hc, judge_standby (s := assembled s.station) hc hstate (hstays (h.resolve_left (by simp [hc])))]
      obtain ⟨hcore, hkept⟩ := hdone (u := assembled s.station) rfl rfl hprog
      exact ⟨hcore, congrArg Kept.assembly hkept, frameCheck_counter (s := s.station)
        (congrArg Kept.counters hkept : _ = (assembled s.station).kept.counters)⟩
    · rw [Bool.not_eq_true] at hc
      rw [if_neg (by simp [hc]), judge_wrong hc]
      obtain ⟨hcore, hkept⟩ := hdone (u := raise .frameCheck (assembled s.station)) rfl rfl hprog
      refine ⟨hcore, congrArg Kept.assembly hkept, ?_⟩
      exact (frameCheck_counter (congrArg Kept.counters hkept)).trans (raised_counter_same _ _ _)

end Sys2Proof.Machine

/-! PROOFS. The sender's entry (O41, O42): what the owners of a frame leave as it was, and the frames that do no more. -/

namespace Sys2Proof.Machine

/-! ### What the owners of frames leave (R144) -/

theorem takeCarrierStatus_kept (a : Nat) (t : Tag) (p : Nat) (s : Station) : (takeCarrierStatus a t p s).kept = s.kept := by
  unfold takeCarrierStatus
  dsimp only
  repeat' split
  all_goals simp

theorem takeOriginStatus_kept (a : Nat) (t : Tag) (s : Station) : (takeOriginStatus a t s).kept = s.kept := by
  unfold takeOriginStatus
  split <;> rfl

theorem whenAddressed_kept (f : RxFrame) {op : Station → Station} {s : Station} (h : (op s).kept = s.kept) :
    (whenAddressed f op s).kept = s.kept := by
  unfold whenAddressed
  split
  · exact h
  · rfl

theorem takeCallStatusFrame_kept (f : RxFrame) (b : CallStatusBody) (s : Station) :
    (takeCallStatusFrame f b s).kept = s.kept := by
  unfold takeCallStatusFrame
  dsimp only
  generalize hw : (if b.role = .origin then takeHolding f.source.toNat b.circuit b.tag b.age s else s) = w
  have hkept : w.kept = s.kept := by
    rw [← hw]
    split
    · exact takeHolding_kept _ _ _ _ s
    · rfl
  refine (whenAddressed_kept f ?_).trans hkept
  split
  · split
    · exact takeCarrierStatus_kept _ _ _ _
    · rfl
  · exact takeOriginStatus_kept _ _ _

theorem takeCarrierClear_kept (a : Nat) (t : Tag) (r : ClearReason) (s : Station) : (takeCarrierClear a t r s).kept = s.kept := by
  unfold takeCarrierClear
  repeat' split
  all_goals simp

theorem takeOriginClear_kept (a : Nat) (t : Tag) (s : Station) : (takeOriginClear a t s).kept = s.kept := by
  unfold takeOriginClear
  repeat' split
  all_goals simp

theorem takeClearFrame_kept (f : RxFrame) (b : ClearBody) (s : Station) : (takeClearFrame f b s).kept = s.kept := by
  unfold takeClearFrame
  refine (whenAddressed_kept f ?_).trans (takeClearIntoView_kept _ _ _ _)
  split
  · exact takeCarrierClear_kept _ _ _ _
  · exact takeOriginClear_kept _ _ _

theorem acceptBorrow_kept (t : Tag) (c : Circuit) (l : Letter) (s : Station) : (acceptBorrow t c l s).kept = s.kept := by
  unfold acceptBorrow sendLend
  dsimp only
  rw [orderDial_kept, handOver_kept, recordLending_kept, notingLendReady_kept rfl]

theorem judgeBorrow_kept (t : Tag) (n : Nat) (s : Station) : (judgeBorrow t n s).kept = s.kept := by
  have hclaim : (claimVoice (.carrier t) s.config.lendMinimum s).2.kept = s.kept := claimVoice_kept _ _ _
  unfold judgeBorrow
  dsimp only
  split
  · exact handOver_kept _ _ _
  · split
    · exact handOver_kept _ _ _
    · split
      · exact handOver_kept _ _ _
      · split
        · exact handOver_kept _ _ _
        · split
          · next hv => rw [acceptBorrow_kept, ← hclaim, hv]
          · next hv => rw [handOver_kept, ← hclaim, hv]

theorem takeBorrow_kept (a : Nat) (b : VoiceBody) (s : Station) : (takeBorrow a b s).kept = s.kept := by
  unfold takeBorrow
  split
  · split
    · exact judgeBorrow_kept _ _ _
    · split
      · exact handOver_kept _ _ _
      · split
        · simp [sendLend]
        · simp
  · rfl

theorem takeReportBorrow_kept (a : Nat) (r : Record) (s : Station) : (takeReportBorrow a r s).kept = s.kept := by
  unfold takeReportBorrow
  dsimp only
  repeat' split
  all_goals simp

theorem takeLend_kept (a : Nat) (b : LendBody) (s : Station) : (takeLend a b s).kept = s.kept := by
  unfold takeLend
  repeat' split
  all_goals simp [clearPartner]

theorem takeConnected_kept (a : Nat) (t : Tag) (s : Station) : (takeConnected a t s).kept = s.kept := by
  unfold takeConnected
  repeat' split
  all_goals simp [clearPartner]

theorem takeDecline_kept (a : Nat) (t : Tag) (s : Station) : (takeDecline a t s).kept = s.kept := by
  unfold takeDecline
  repeat' split
  all_goals simp

theorem reportLent_kept (a : Nat) (t : Tag) (s : Station) : (reportLent a t s).kept = s.kept := by
  unfold reportLent
  repeat' split
  all_goals simp

theorem reportDeclined_kept (a : Nat) (t : Tag) (s : Station) : (reportDeclined a t s).kept = s.kept := by
  unfold reportDeclined
  repeat' split
  all_goals simp

theorem takeResult_kept (a : Nat) (b : ResultBody) (s : Station) : (takeResult a b s).kept = s.kept := by
  unfold takeResult
  repeat' split
  all_goals simp

theorem judge_reaches {kind : Nat} {f : RxFrame} {owners : Station → Station} {s : Station}
    (hc : frameCheckOk kind f = true) (hi : s.isOwn f.source.toNat = false) :
    judgeFrame kind f owners s = s ∨ judgeFrame kind f owners s = owners s := by
  unfold judgeFrame
  rw [if_neg (by simp [hc])]
  split
  · exact Or.inl rfl
  · rw [if_neg (by simp [hi])]
    split
    · exact Or.inr rfl
    · exact Or.inl rfl

/-! ### A frame heard, and its sender's entry (R4) -/

theorem isPeer_of_hears {s : Station} {kind : Nat} {f : RxFrame} (h : s.Hears kind f) :
    s.isPeer f.source.toNat = true := by
  obtain ⟨-, -, -, -, -, -, hpeer, -⟩ := h
  exact hpeer

theorem source_of_hears {s : Station} {kind : Nat} {f : RxFrame} (h : s.Hears kind f) : f.source ≠ 0 := by
  intro e
  have hpeer := isPeer_of_hears h
  rw [e] at hpeer
  exact absurd hpeer (by simp [Station.isPeer])

/-- A frame that is heard reaches its owners (R142-R144). -/
theorem receive_reaches {kind : Nat} {f : RxFrame} {owners : Station → Station} {s : Station} (h : s.Hears kind f) :
    receiveFrame kind f owners (freshOut s) = owners (assembled s) := by
  have hpeer := isPeer_of_hears h
  obtain ⟨-, hact, ht, ha, hc, hg, -, hd⟩ := h
  have hown : f.source.toNat ≤ 32 ∧ s.isOwn f.source.toNat = false := by
    simp [Station.isPeer] at hpeer
    exact ⟨hpeer.1.2, hpeer.2⟩
  rw [receive_assembled (s := freshOut s) ht ha]
  refine judge_passed (s := assembled s) hc (fun e => absurd (hact.symm.trans e) (by decide)) ?_ hown.2 ?_
  · change s.segmentOk kind f = true
    simp [Station.segmentOk, hg]
  · simp [frameAddressesDefined, addressDefined, hown.1]
    simpa [addressDefined] using hd

/-- The directory with the sender's entry refreshed. -/
def Station.heardDirectory (s : Station) (a : Nat) : Directory :=
  { s.directory with
    entries := s.directory.entries.map fun e => if e.address = a then { e with lastHeard := s.now } else e }

theorem refreshPeer_heardDirectory {a : Nat} {s : Station} (h : s.isPeer a = true) :
    (refreshPeer a s).directory = s.heardDirectory a := by
  unfold refreshPeer
  rw [if_pos h]
  rfl

theorem heardFrom_kept (a : Nat) (s : Station) :
    (heardFrom a s).kept = { s.kept with assembly := .skipping, directory := (refreshPeer a s).directory } := by
  have hk : (heardFrom a s).kept = { (assembled s).kept with directory := (heardFrom a s).directory } := by
    unfold heardFrom refreshPeer
    split <;> rfl
  rw [hk, heardFrom_directory]
  rfl

section
variable {α : Type} {kind : Nat} {f : RxFrame} {c : Instr} {read : List Byte → Option α} {s : State}

/-- A frame that is heard, of a kind whose owners change nothing kept. -/
theorem heard_kept {owners : α → Station → Station} {b : α}
    (hrun : exec c s = takeEvent (receiveFrame kind f (fromPeer f read owners)) s) (h : s.station.Hears kind f)
    (hb : read f.body = some b) (hkept : ∀ v : Station, (owners b v).kept = v.kept) :
    ∃ t, exec c s = .next t ∧
      t.station.kept =
        { s.station.kept with assembly := .skipping, directory := (refreshPeer f.source.toNat s.station).directory } := by
  refine ⟨_, (hrun.trans (takeEvent_running h.1.1)).trans (by rw [receive_heard h hb]), ?_⟩
  exact finish_kept_of ((hkept _).trans (heardFrom_kept _ _)) (awake_opState h.1) (awake_waitingEntry h.1)

theorem heard_refreshes {owners : α → Station → Station}
    (hrun : exec c s = takeEvent (receiveFrame kind f (fromPeer f read owners)) s)
    (hkept : ∀ b (v : Station), (owners b v).kept = v.kept) (h : s.station.Hears kind f)
    (hread : (read f.body).isSome = true) :
    ∃ t, exec c s = .next t ∧ t.station.directory = s.station.heardDirectory f.source.toNat := by
  obtain ⟨b, hb⟩ := Option.isSome_iff_exists.mp hread
  obtain ⟨t, ht, hk⟩ := heard_kept hrun h hb (hkept b)
  exact ⟨t, ht, (congrArg Kept.directory hk).trans (refreshPeer_heardDirectory (isPeer_of_hears h))⟩

theorem addressed_refreshes {owner : α → Station → Station} (hrun : exec c s = takeAddressed kind f read owner s)
    (hkept : ∀ b (v : Station), (owner b v).kept = v.kept) (h : s.station.Hears kind f)
    (hread : (read f.body).isSome = true) :
    ∃ t, exec c s = .next t ∧ t.station.directory = s.station.heardDirectory f.source.toNat :=
  heard_refreshes hrun (fun b v => whenAddressed_kept f (hkept b v)) h hread

/-- A query whose answer changes nothing kept leaves the directory. -/
theorem served_directory {respond : Byte → Byte → Station → Station} (hrun : exec c s = takeService kind f respond s)
    (hkept : ∀ a b (v : Station), (respond a b v).kept = v.kept) (h : s.station.Serves kind f) :
    ∃ t, exec c s = .next t ∧ t.station.directory = s.station.directory := by
  obtain ⟨ha, ht, hs, hc, hg, hi, hd, hv⟩ := h
  have hsrc : f.source.toNat = 0 := by
    simp [Station.servesFrame] at hv
    exact hv.1
  have hown : (assembled s.station).isOwn f.source.toNat = false := by
    rw [hsrc]
    exact hi
  refine ⟨_, hrun.trans (takeEvent_running ha.1), ?_⟩
  rw [receive_assembled (s := freshOut s.station) ht hs]
  have hstays : ∀ {u : Station}, u.kept = (assembled s.station).kept → (finish u).directory = s.station.directory :=
    fun hu => congrArg Kept.directory (finish_kept_of hu (awake_opState ha) (awake_waitingEntry ha))
  rcases judge_reaches (kind := kind) (s := assembled s.station) hc hown with h | h
  · rw [show judgeFrame kind f _ { freshOut s.station with line.assembly := .skipping, line.gap := false } = _ from h]
    exact hstays rfl
  · rw [show judgeFrame kind f _ { freshOut s.station with line.assembly := .skipping, line.gap := false } = _ from h]
    dsimp only
    split
    · split
      · exact hstays (hkept _ _ _)
      · exact hstays rfl
    · exact hstays rfl

end

theorem wakeInActive_kept {s : Station} (h : s.power.progress ≠ .waitingEntry) : (wakeInActive s).kept = s.kept :=
  (abandonStandby_kept (s := { s with power.idleTimer := none }) h).trans rfl

/-- A WAKE heard in ACTIVE. -/
theorem wake_refreshes {f : RxFrame} {s : State} (h : s.station.Hears 2 f) (hread : (readWake f.body).isSome = true) :
    ∃ t, exec (.wakeFrame f) s = .next t ∧ t.station.directory = s.station.heardDirectory f.source.toNat := by
  have hact : s.station.power.opState = .active := h.2.1
  have hkept : (takeWakeFrame f (assembled s.station)).kept = (heardFrom f.source.toNat s.station).kept := by
    unfold takeWakeFrame
    rw [if_pos ⟨source_of_hears h, hread⟩]
    dsimp only
    rw [if_pos (show (assembled s.station).power.opState = .active from hact),
      show refreshPeer f.source.toNat (assembled s.station) = heardFrom f.source.toNat s.station from rfl]
    split
    · rw [if_pos (by rw [heardFrom_power]; exact hact)]
      exact wakeInActive_kept (by rw [heardFrom_power]; exact h.1.2.2)
    · rfl
  have hrun : exec (.wakeFrame f) s = .next { s with station := finish (takeWakeFrame f (assembled s.station)) } := by
    change execWakeFrame f s = _
    unfold execWakeFrame
    rw [takeEvent_running h.1.1, receive_reaches h]
  have hfinal := finish_kept_of (hkept.trans (heardFrom_kept _ _)) (awake_opState h.1) (awake_waitingEntry h.1)
  exact ⟨_, hrun, (congrArg Kept.directory hfinal).trans (refreshPeer_heardDirectory (isPeer_of_hears h))⟩

theorem answerService_kept (g : BitVec 16) (c i : Byte) (r : StatusResult) (x : List Byte) (s : Station) :
    (answerService g c i r x s).kept = s.kept := handOver_kept _ _ s

/-- Settles O41: a frame refreshes the entry of its sender, a query none. -/
theorem frameRefreshesItsSender : Obligations.FrameRefreshesItsSender := by
  intro f s refreshes
  refine ⟨wake_refreshes, fun h hr => ?_, fun h hr => ?_, fun h hr => ?_, fun h hr => ?_, fun h hr => ?_, fun h hr => ?_,
    fun h hr => ?_, fun h hr => ?_, fun h hr => ?_, fun h hr => ?_, fun h hr => ?_, fun h hr => ?_, fun c hc h => ?_⟩
  · exact heard_refreshes (show execClaim f s = _ from rfl) (fun _ _ => takeClaim_kept _ _ _ _ _) h hr
  · exact heard_refreshes (show execCallStatus f s = _ from rfl) (takeCallStatusFrame_kept f) h hr
  · exact addressed_refreshes (show execBorrowVoice f s = _ from rfl) (takeBorrow_kept _) h hr
  · exact addressed_refreshes (show execBorrowReport f s = _ from rfl) (takeReportBorrow_kept _) h hr
  · exact addressed_refreshes (show execLendCall f s = _ from rfl) (takeLend_kept _) h hr
  · exact addressed_refreshes (show execLendReport f s = _ from rfl) (reportLent_kept _) h hr
  · exact addressed_refreshes (show execDeclineCall f s = _ from rfl) (takeDecline_kept _) h hr
  · exact addressed_refreshes (show execDeclineReport f s = _ from rfl) (reportDeclined_kept _) h hr
  · exact addressed_refreshes (show execConnected f s = _ from rfl) (takeConnected_kept _) h hr
  · exact heard_refreshes (show execClear f s = _ from rfl) (takeClearFrame_kept f) h hr
  · exact addressed_refreshes (show execReportResult f s = _ from rfl) (takeResult_kept _) h hr
  · exact heard_refreshes (show execStatus f s = _ from rfl) (fun _ _ => rfl) h hr
  · simp only [List.mem_cons, List.not_mem_nil, or_false] at hc
    rcases hc with rfl | rfl | rfl | rfl | rfl | rfl
    · exact served_directory (show execQueryStation f s = _ from rfl) (fun _ _ _ => answerService_kept _ _ _ _ _ _) h
    · exact served_directory (show execQueryFaults f s = _ from rfl) (fun _ _ _ => answerService_kept _ _ _ _ _ _) h
    · refine served_directory (show execQueryDirectory f s = _ from rfl) (fun _ i v => ?_) h
      dsimp only
      split <;> exact answerService_kept _ _ _ _ _ _
    · exact served_directory (show execQueryCircuits f s = _ from rfl) (fun _ _ _ => answerService_kept _ _ _ _ _ _) h
    · refine served_directory (show execQueryBearer f s = _ from rfl) (fun _ i v => ?_) h
      repeat' split
      all_goals exact answerService_kept _ _ _ _ _ _
    · refine served_directory (show execQueryQueues f s = _ from rfl) (fun _ i v => ?_) h
      repeat' split
      all_goals exact answerService_kept _ _ _ _ _ _

/-! ### Inputs discarded silently (R142, R186, R188) -/

/-- Settles O42: STATUS refreshes its sender; an unknown kind, a malformed frame and an undecodable indication do
nothing. -/
theorem silentlyDiscardedInputs : Obligations.SilentlyDiscardedInputs := by
  refine ⟨fun f s h hread => ?_, fun kind f s h => ?_, fun count s hs ht => ?_, fun l kind params s hs => ?_⟩
  · obtain ⟨b, hb⟩ := Option.isSome_iff_exists.mp hread
    have hrun : exec (.status f) s = .next { s with station := finish (heardFrom f.source.toNat s.station) } := by
      change execStatus f s = _
      unfold execStatus
      rw [takeEvent_running h.1.1, receive_heard h hb]
    refine ⟨_, hrun, (finish_core (heardFrom_light _ _) ?_).trans ?_,
      finish_kept_of (heardFrom_kept _ _) (awake_opState h.1) (awake_waitingEntry h.1)⟩
    · rw [heardFrom_power]
      exact h.1.2.2
    · rw [heardFrom_core, heardFrom_directory]
  · have hrun : exec (.unknownFrameKind kind f) s = .next { s with station := finish (assembled s.station) } := by
      change execUnknownFrameKind kind f s = _
      unfold execUnknownFrameKind
      rw [takeEvent_running h.1.1, receive_reaches h]
    exact ⟨_, hrun, finish_core (light_of_nil rfl) h.1.2.2,
      finish_kept_of (assembled_kept _) (awake_opState h.1) (awake_waitingEntry h.1)⟩
  · have hrun : exec (.malformedFrame count) s = .next { s with station := finish (assembled s.station) } := by
      change execMalformedFrame count s = _
      unfold execMalformedFrame
      rw [takeEvent_running hs.1, if_neg (by rw [Bool.not_eq_true]; exact ht)]
      rfl
    exact ⟨_, hrun, finish_core (light_of_nil rfl) hs.2.2,
      finish_kept_of (assembled_kept _) (awake_opState hs) (awake_waitingEntry hs)⟩
  · have hrun : exec (.undecodableIndication l kind params) s = .next { s with station := finish (freshOut s.station) } := by
      change execUndecodableIndication l kind params s = _
      unfold execUndecodableIndication takeIndication
      rw [takeEvent_running hs.1, ite_self]
    exact ⟨_, hrun, finish_core (light_of_nil rfl) hs.2.2,
      finish_kept_of (s := freshOut s.station) rfl (awake_opState hs) (awake_waitingEntry hs)⟩

end Sys2Proof.Machine

/-! PROOFS. The peer directory (O43): entries filed and aged, the effective count. -/

namespace Sys2Proof.Machine

/-! ### Entries (R1, R3) -/

theorem mem_putEntry_self (x : PeerEntry) (l : List PeerEntry) : x ∈ putEntry x l := by
  induction l with
  | nil => simp [putEntry]
  | cons f fs ih =>
    unfold putEntry
    split
    · simp
    · split
      · simp
      · exact List.mem_cons_of_mem _ ih

/-- An entry put in its place replaces those of its address and no other. -/
theorem mem_putEntry_other {x e : PeerEntry} {l : List PeerEntry} (h : e.address ≠ x.address) :
    e ∈ putEntry x l ↔ e ∈ l := by
  have hne : e ≠ x := fun hx => h (congrArg PeerEntry.address hx)
  induction l with
  | nil => simp [putEntry, hne]
  | cons f fs ih =>
    unfold putEntry
    split
    · next hf =>
      have hef : e ≠ f := fun hx => h (hx ▸ hf)
      simp [hne, hef]
    · split
      · simp [hne]
      · simp [ih]

theorem before_false {a b : Stamp} : Stamp.before a b = false ↔ Stamp.ms b ≤ Stamp.ms a := by
  simp [Stamp.before]

theorem oldestEntry_none {l : List PeerEntry} (h : oldestEntry l = none) : l = [] := by
  cases l with
  | nil => rfl
  | cons x xs =>
    unfold oldestEntry at h
    split at h
    · exact nomatch h
    · split at h <;> exact nomatch h

/-- The entry heard longest ago; of several the one of the lowest address (R3). -/
theorem oldestEntry_spec {l : List PeerEntry} {old : PeerEntry}
    (hs : List.Pairwise (fun e f => e.address < f.address) l) (h : oldestEntry l = some old) :
    ∀ e ∈ l, Stamp.before e.lastHeard old.lastHeard = false ∧ (e.lastHeard = old.lastHeard → old.address ≤ e.address) := by
  induction l generalizing old with
  | nil => exact fun e he => absurd he List.not_mem_nil
  | cons x xs ih =>
    obtain ⟨hfirst, hrest⟩ := List.pairwise_cons.mp hs
    intro e he
    unfold oldestEntry at h
    cases hx : oldestEntry xs with
    | none =>
      rw [hx] at h
      cases h
      rw [oldestEntry_none hx, List.mem_singleton] at he
      subst he
      exact ⟨before_false.mpr (Nat.le_refl _), fun _ => Nat.le_refl _⟩
    | some f =>
      have hspec := ih hrest hx
      have hf := oldestEntry_mem hx
      rw [hx] at h
      dsimp only at h
      split at h
      · next hb =>
        have hfo : f = old := Option.some.inj h
        subst hfo
        rcases List.mem_cons.mp he with rfl | he
        · have hlt : Stamp.ms f.lastHeard < Stamp.ms e.lastHeard := by simpa [Stamp.before] using hb
          exact ⟨before_false.mpr (Nat.le_of_lt hlt), fun heq => absurd (congrArg Stamp.ms heq).symm (Nat.ne_of_lt hlt)⟩
        · exact hspec e he
      · next hb =>
        cases h
        rcases List.mem_cons.mp he with rfl | he
        · exact ⟨before_false.mpr (Nat.le_refl _), fun _ => Nat.le_refl _⟩
        · have hle : Stamp.ms x.lastHeard ≤ Stamp.ms f.lastHeard := by simpa [Stamp.before] using hb
          exact ⟨before_false.mpr (Nat.le_trans hle (before_false.mp (hspec e he).1)), fun _ => Nat.le_of_lt (hfirst e he)⟩

theorem mem_fileEntry_self (x : PeerEntry) (l : List PeerEntry) : x ∈ fileEntry x l := by
  unfold fileEntry
  repeat' split
  all_goals exact mem_putEntry_self _ _

theorem fileEntry_room {x : PeerEntry} {l : List PeerEntry} (h : l.length < 31) : fileEntry x l = putEntry x l := by
  unfold fileEntry
  rw [if_pos (by simp [h])]

/-- Where 31 entries stand and none is of the new address, the oldest makes place. -/
theorem fileEntry_full {x : PeerEntry} {l : List PeerEntry} (h : 31 ≤ l.length) (hx : ∀ e ∈ l, e.address ≠ x.address) :
    ∃ old, oldestEntry l = some old ∧ fileEntry x l = putEntry x (l.filter fun f => f.address != old.address) := by
  have hnone : ¬ ((l.any fun f => f.address == x.address) || decide (l.length < 31)) = true := by
    simp only [Bool.or_eq_true, List.any_eq_true, beq_iff_eq, decide_eq_true_eq, not_or]
    exact ⟨fun ⟨e, he, hea⟩ => hx e he hea, Nat.not_lt.mpr h⟩
  unfold fileEntry
  rw [if_neg hnone]
  cases ho : oldestEntry l with
  | none =>
    rw [oldestEntry_none ho] at h
    exact absurd h (by decide)
  | some old => exact ⟨old, rfl, rfl⟩

/-- Entries sorted by address are known by it. -/
theorem eq_of_address_eq {l : List PeerEntry} {e f : PeerEntry} (hs : List.Pairwise (fun e f => e.address < f.address) l)
    (he : e ∈ l) (hf : f ∈ l) (ha : e.address = f.address) : e = f := by
  induction l with
  | nil => exact absurd he List.not_mem_nil
  | cons x rest ih =>
    obtain ⟨hx, hrest⟩ := List.pairwise_cons.mp hs
    rcases List.mem_cons.mp he with rfl | hin
    · rcases List.mem_cons.mp hf with rfl | hfin
      · rfl
      · exact absurd ha (Nat.ne_of_lt (hx f hfin))
    · rcases List.mem_cons.mp hf with rfl | hfin
      · exact absurd ha.symm (Nat.ne_of_lt (hx e hin))
      · exact ih hrest hin hfin

theorem mem_filter_address {l : List PeerEntry} {old e : PeerEntry}
    (hs : List.Pairwise (fun e f => e.address < f.address) l) (ho : old ∈ l) :
    e ∈ (l.filter fun f => f.address != old.address) ↔ e ∈ l ∧ e ≠ old := by
  rw [List.mem_filter, bne_iff_ne]
  refine and_congr_right fun he => ⟨fun h hx => h (congrArg PeerEntry.address hx), fun h ha => h (eq_of_address_eq hs he ho ha)⟩

/-! ### The effective count (R7) -/

/-- A view when the directory's entries have become `entries`, and the effective count has been recomputed. -/
def Station.counted (s : Station) (entries : List PeerEntry) (k : Kept) : Kept :=
  let n := entries.foldl (fun n e => min n e.circuits) s.config.circuits
  let k := { k with directory := { entries := entries, effective := n } }
  if n < s.config.circuits ∧ (s.config.circuits ≤ s.directory.effective ∨ n < s.directory.effective) then
    k.raised .circuitMismatch
  else k

theorem recount_kept (s : Station) (entries : List PeerEntry) :
    (recount s.mismatched { s with directory.entries := entries }).kept = s.counted entries s.kept := by
  have hraises : (if s.mismatched = true then
        entries.foldl (fun n e => min n e.circuits) s.config.circuits < s.directory.effective
      else decide (entries.foldl (fun n e => min n e.circuits) s.config.circuits < s.config.circuits) = true) ↔
      entries.foldl (fun n e => min n e.circuits) s.config.circuits < s.config.circuits ∧
        (s.config.circuits ≤ s.directory.effective ∨
          entries.foldl (fun n e => min n e.circuits) s.config.circuits < s.directory.effective) := by
    unfold Station.mismatched
    generalize entries.foldl (fun n e => min n e.circuits) s.config.circuits = n
    by_cases hm : s.directory.effective < s.config.circuits
    · rw [if_pos (decide_eq_true hm)]
      omega
    · rw [if_neg (by simpa using hm), decide_eq_true_eq]
      omega
  unfold recount
  rw [countChanged_kept]
  unfold recomputeCount Station.counted
  dsimp only
  by_cases hr : entries.foldl (fun n e => min n e.circuits) s.config.circuits < s.config.circuits ∧
      (s.config.circuits ≤ s.directory.effective ∨
        entries.foldl (fun n e => min n e.circuits) s.config.circuits < s.directory.effective)
  · rw [if_pos hr]
    exact (congrArg Station.kept (if_pos (hraises.mpr hr))).trans (raise_kept_raised _ _)
  · rw [if_neg hr]
    exact congrArg Station.kept (if_neg fun h => hr (hraises.mp h))

/-! ### An ANNOUNCE, and the ageing of an entry (R3, R5) -/

theorem takeSolicit_kept (s : Station) : (takeSolicit s).kept = s.kept := by
  have hdraw : ∀ (d : Nat) (t : Station), (replyDraw d t).kept = t.kept := by
    intro d t
    unfold replyDraw
    split <;> rfl
  unfold takeSolicit
  split
  · have hd := requestDraw_kept .reply { s with announcing.reply := .waitingDraw }
    split
    · next hr =>
      rw [hr] at hd
      exact (hdraw _ _).trans hd
    · next hr =>
      rw [hr] at hd
      exact hd
  · rfl

/-- The station when the directory and the circuit unit have taken an ANNOUNCE (R3, R21). -/
def announceFiled (a : Nat) (b : AnnounceBody) (s : Station) : Station :=
  match b.held with
  | some h =>
    if b.fileable then takeHolding a h.circuit h.tag h.age (fileAnnounce a b s) else fileAnnounce a b s
  | none => fileAnnounce a b s

theorem takeAnnounceFrame_eq (a : Nat) (b : AnnounceBody) (s : Station) :
    takeAnnounceFrame a b s =
      if b.solicit && (announceFiled a b s).isPeer a then takeSolicit (announceFiled a b s) else announceFiled a b s := by
  unfold takeAnnounceFrame announceFiled
  cases b.held <;> rfl

theorem announceFiled_kept (a : Nat) (b : AnnounceBody) (s : Station) :
    (announceFiled a b s).kept = (fileAnnounce a b s).kept := by
  unfold announceFiled
  split
  · split
    · exact takeHolding_kept _ _ _ _ _
    · rfl
  · rfl

theorem takeAnnounceFrame_kept (a : Nat) (b : AnnounceBody) (s : Station) :
    (takeAnnounceFrame a b s).kept = (fileAnnounce a b s).kept := by
  rw [takeAnnounceFrame_eq]
  split
  · exact (takeSolicit_kept _).trans (announceFiled_kept a b s)
  · exact announceFiled_kept a b s

theorem announce_runs {f : RxFrame} {b : AnnounceBody} {s : State} (h : s.station.Hears 1 f)
    (hb : readAnnounce f.body = some b) :
    exec (.announce f) s =
      .next { s with station := finish (takeAnnounceFrame f.source.toNat b (assembled s.station)) } := by
  change execAnnounce f s = _
  unfold execAnnounce
  rw [takeEvent_running h.1.1, receive_reaches h, if_pos ⟨h.2.1, source_of_hears h⟩, hb]

theorem counted_awake {s : Station} {entries : List PeerEntry} {k : Kept} (ho : k.opState ≠ .standby)
    (hw : k.waitingEntry = false) :
    (s.counted entries k).opState ≠ .standby ∧ (s.counted entries k).waitingEntry = false ∧
      (s.counted entries k).directory.entries = entries := by
  unfold Station.counted
  dsimp only
  split <;> exact ⟨ho, hw, rfl⟩

theorem fileAnnounce_filed {a : Nat} {b : AnnounceBody} {s : Station} (hpeer : (assembled s).isPeer a = true)
    (hfile : b.fileable = true) :
    (fileAnnounce a b (assembled s)).kept =
      s.counted (fileEntry (b.entry a s.now) s.directory.entries) { s.kept with assembly := .skipping } := by
  unfold fileAnnounce
  rw [if_neg (by simpa using hpeer), if_pos hfile]
  exact recount_kept (assembled s) _

/-- Settles O43: an ANNOUNCE is filed, an entry ages, and the count is the smallest. -/
theorem directoryFilesAndAges : Obligations.DirectoryFilesAndAges := by
  refine ⟨fun f b s h hb => ?_, fun a e d now s hs he hd hnow => ?_⟩
  · have hpeer : (assembled s.station).isPeer f.source.toNat = true :=
      show s.station.isPeer f.source.toNat = true from isPeer_of_hears h
    refine ⟨fun hfile => ?_, fun hfile => ?_⟩
    · have hfiled := (takeAnnounceFrame_kept f.source.toNat b (assembled s.station)).trans (fileAnnounce_filed hpeer hfile)
      obtain ⟨hstate, hentry, hentries⟩ := counted_awake (s := s.station)
        (entries := fileEntry (b.entry f.source.toNat s.station.now) s.station.directory.entries)
        (k := { s.station.kept with assembly := .skipping }) (awake_opState h.1) (awake_waitingEntry h.1)
      have hkept := finish_kept_of hfiled hstate hentry
      have hdirectory : (finish (takeAnnounceFrame f.source.toNat b (assembled s.station))).directory.entries =
          fileEntry (b.entry f.source.toNat s.station.now) s.station.directory.entries :=
        (congrArg (fun k : Kept => k.directory.entries) hkept).trans hentries
      refine ⟨_, announce_runs h hb, hkept, ?_, fun hroom e he => ?_, fun hfull hsorted hnew => ?_⟩
      · rw [hdirectory]
        exact mem_fileEntry_self _ _
      · rw [hdirectory, fileEntry_room hroom]
        exact mem_putEntry_other he
      · obtain ⟨old, hold, hfe⟩ := fileEntry_full hfull hnew
        refine ⟨old, oldestEntry_mem hold, oldestEntry_spec hsorted hold, fun e he => ?_⟩
        rw [hdirectory, hfe, mem_putEntry_other he]
        exact mem_filter_address hsorted (oldestEntry_mem hold)
    · refine ⟨_, announce_runs h hb, finish_kept_of ?_ (awake_opState h.1) (awake_waitingEntry h.1)⟩
      rw [takeAnnounceFrame_kept]
      unfold fileAnnounce
      rw [if_neg (by simpa using hpeer), if_neg (by simp [hfile])]
      exact heardFrom_kept _ _
  · have hdead : e.deadline = d := by
      rw [hd, PeerEntry.deadline, PeerEntry.limitMs]
      cases e.power <;> rfl
    have hdue : ((freshOut s.station).directory.entries.find? fun e => e.address == a).map (fun e => e.deadline) = some d := by
      rw [freshOut_directory, he, ← hdead]
      rfl
    have hrun : exec (.peerAgeingExpiry a) s = .next { s with station := finish (agePeer a (atMoment now s.station)) } := by
      change execPeerAgeingExpiry a s = _
      unfold execPeerAgeingExpiry
      rw [takeExpiry_running (d := d) hs.1 hdue, ← hnow]
    obtain ⟨hstate, hentry, -⟩ := counted_awake (s := atMoment now s.station)
      (entries := s.station.directory.entries.filter fun e => e.address != a) (k := (atMoment now s.station).kept)
      (awake_opState hs) (awake_waitingEntry hs)
    exact ⟨_, hrun, finish_kept_of (recount_kept (atMoment now s.station) _) hstate hentry⟩

end Sys2Proof.Machine

/-! PROOFS. Announcing (O44): the timers that queue an ANNOUNCE, and the reply to a solicit. -/

namespace Sys2Proof.Machine

/-! ### What the reply to a solicit is made of (R14, R161) -/

/-- The reply, the source of its draw, and the power unit. -/
structure ReplySide where
  reply : Reply
  mode : DrawMode
  pool : List Nat
  fallback : Option Fallback
  power : Power

/-- The view of a station. -/
def Station.replySide (s : Station) : ReplySide :=
  { reply := s.announcing.reply, mode := s.draw.mode, pool := s.draw.pool, fallback := s.draw.fallback, power := s.power }

theorem displace_replySide (s : Station) : (displace s).replySide = s.replySide := by
  unfold displace
  split
  · split <;> rfl
  · rfl

theorem addFrame_replySide (f : TxFrame) (s : Station) : (addFrame f s).replySide = s.replySide := by
  unfold addFrame
  dsimp only
  split
  · exact displace_replySide s
  · rfl

theorem reportDrop_replySide (b : TxBody) (s : Station) : (reportDrop b s).replySide = s.replySide := by
  unfold reportDrop
  cases b <;> rfl

theorem takeRoutine_replySide {s t : Station} {g : TxFrame} (h : takeRoutine s = some (g, t)) :
    t.replySide = s.replySide := by
  revert h
  unfold takeRoutine
  dsimp only
  repeat' split
  all_goals
    intro h
    cases h
  all_goals rfl

theorem handOver_replySide (b : TxBody) (d : Nat) (s : Station) : (handOver b d s).replySide = s.replySide := by
  unfold handOver
  dsimp only
  split
  · rfl
  · split
    · exact addFrame_replySide _ s
    · split
      · split
        · next hg => exact (addFrame_replySide _ _).trans ((reportDrop_replySide _ _).trans (takeRoutine_replySide hg))
        · exact reportDrop_replySide _ s
      · exact reportDrop_replySide _ s

theorem mergeAnnounce_replySide (x y : Bool) (s : Station) : (mergeAnnounce x y s).replySide = s.replySide := by
  unfold mergeAnnounce
  split
  · dsimp only
    split <;> rfl
  · exact handOver_replySide _ _ _

theorem announceCause_replySide (y : Bool) (s : Station) : (announceCause y s).replySide = s.replySide := by
  unfold announceCause
  split
  · split
    · rfl
    · rfl
    · exact mergeAnnounce_replySide _ _ s
    · exact mergeAnnounce_replySide _ _ s
  · rfl

theorem setEntry_replySide (c : Circuit) (e : CircuitEntry) (s : Station) : (setEntry c e s).replySide = s.replySide := by
  unfold setEntry
  dsimp only
  split <;> rfl

theorem adoptHolding_replySide {c : Circuit} {e : CircuitEntry} {s : Station} (h : s.circuits.round = none) :
    (adoptHolding c e s).replySide = s.replySide := by
  unfold adoptHolding
  rw [show s.contesting c = false by simp [Station.contesting, Station.ownClaim, h]]
  exact setEntry_replySide c e s

theorem yieldCircuit_replySide (c : Circuit) (t : Tag) (e : CircuitEntry) (s : Station) :
    (yieldCircuit c t e s).replySide = s.replySide :=
  (announceCause_replySide _ _).trans (setEntry_replySide c e s)

theorem reassert_replySide (s : Station) : (reassert s).replySide = s.replySide := by
  unfold reassert
  split
  · split
    · rfl
    · exact handOver_replySide _ _ s
  · rfl

theorem takeHolding_replySide {a n : Nat} {t : Tag} {g : Nat} {s : Station} (h : s.circuits.round = none) :
    (takeHolding a n t g s).replySide = s.replySide := by
  unfold takeHolding
  split
  · split
    · rfl
    · dsimp only
      split
      · exact adoptHolding_replySide h
      · exact adoptHolding_replySide h
      · split
        · exact setEntry_replySide _ _ s
        · split
          · rfl
          · exact setEntry_replySide _ _ s
      · split
        · exact reassert_replySide s
        · exact yieldCircuit_replySide _ _ _ s
  · rfl

/-- An ANNOUNCE filed while no claim round stands leaves the reply and its source, and no claim round. -/
theorem fileAnnounce_replySide {a : Nat} {b : AnnounceBody} {s : Station} (h : s.circuits.round = none) :
    (fileAnnounce a b s).replySide = s.replySide ∧ (fileAnnounce a b s).circuits.round = none := by
  have hcount : ∀ (m : Bool) (t : Station), (recomputeCount m t).replySide = t.replySide ∧
      (recomputeCount m t).circuits = t.circuits := by
    intro m t
    unfold recomputeCount
    dsimp only
    split
    all_goals
      split <;> exact ⟨rfl, rfl⟩
  have hround : ∀ t : Station, t.circuits.round = none → countChanged t = t := by
    intro t ht
    unfold countChanged
    rw [ht]
  unfold fileAnnounce
  split
  · exact ⟨rfl, h⟩
  · split
    · obtain ⟨hside, hcircuits⟩ := hcount s.mismatched
        { s with directory.entries := fileEntry (b.entry a s.now) s.directory.entries }
      have hnone := (congrArg Circuits.round hcircuits).trans h
      unfold recount
      rw [hround _ hnone]
      exact ⟨hside, hnone⟩
    · unfold refreshPeer
      split <;> exact ⟨rfl, h⟩

theorem announceFiled_replySide {a : Nat} {b : AnnounceBody} {s : Station} (h : s.circuits.round = none) :
    (announceFiled a b s).replySide = s.replySide := by
  obtain ⟨hside, hround⟩ := fileAnnounce_replySide (a := a) (b := b) h
  unfold announceFiled
  split
  · split
    · exact (takeHolding_replySide hround).trans hside
    · exact hside
  · exact hside

/-! ### An ANNOUNCE in the transmit queue (R12, R13) -/

theorem announceQueued_iff (s : Station) : s.announceQueued = true ↔ ∃ g ∈ s.line.frames, g.body.isAnnounce = true := by
  unfold Station.announceQueued Line.frames
  cases s.line.service <;> simp [or_comm]

theorem isAnnounce_mergedWith (x y : Bool) (b : TxBody) : (TxBody.mergedWith x y b).isAnnounce = b.isAnnounce := by
  cases b <;> rfl

theorem mapAnnounce_queued {x y : Bool} {s : Station} (h : s.announceQueued = true) :
    (mapAnnounce (TxBody.mergedWith x y) s).announceQueued = true := by
  rw [announceQueued_iff] at h ⊢
  obtain ⟨g, hg, ha⟩ := h
  refine ⟨{ g with body := TxBody.mergedWith x y g.body }, ?_, (isAnnounce_mergedWith x y g.body).trans ha⟩
  rcases List.mem_append.mp hg with hg | hg
  · refine List.mem_append_left _ ?_
    simp only [mapAnnounce, Option.map_map]
    simp only [Option.mem_toList, Option.map_eq_some_iff] at hg ⊢
    obtain ⟨v, hv, rfl⟩ := hg
    exact ⟨v, hv, rfl⟩
  · exact List.mem_append_right _ (List.mem_map_of_mem hg)

/-- What an operation of the announcer leaves to be sent: an ANNOUNCE, no notice, the reply as it was. -/
structure Announces (s t : Station) : Prop where
  queued : t.announceQueued = true
  work : t.work = s.work
  reply : t.announcing.reply = s.announcing.reply

theorem mergeAnnounce_announces {x y : Bool} {s : Station} (hact : s.power.opState = .active) (hroom : s.line.total < 8) :
    Announces s (mergeAnnounce x y s) := by
  unfold mergeAnnounce
  split
  · next hq =>
    have hm := mapAnnounce_queued (x := x) (y := y) hq
    dsimp only
    split
    · exact ⟨hm, rfl, rfl⟩
    · exact ⟨hm, rfl, rfl⟩
  · have hside := handOver_replySide (.announce x y) 63 { s with announcing.period := none }
    rw [handOver_room (s := { s with announcing.period := none }) (by unfold Station.takesFrame; rw [hact]) hroom] at hside ⊢
    refine ⟨(announceQueued_iff _).mpr ⟨_, (addFrame_frames _ _ _).mpr (Or.inl rfl), rfl⟩, addFrame_work _ _,
      congrArg ReplySide.reply hside⟩

theorem announceCause_announces {y : Bool} {s : Station} (hact : s.power.opState = .active) (hroom : s.line.total < 8)
    (hp : s.power.progress = .none ∨ s.power.progress = .waitingCommand) : Announces s (announceCause y s) := by
  unfold announceCause
  rw [if_pos hact]
  rcases hp with hp | hp
  · rw [hp]
    exact mergeAnnounce_announces hact hroom
  · rw [hp]
    exact mergeAnnounce_announces hact hroom

theorem requestDraw_announcing (c : Consumer) (s : Station) : (requestDraw c s).2.announcing = s.announcing := by
  unfold requestDraw
  repeat' split
  all_goals rfl

theorem enterService_announcing (f : TxFrame) (s : Station) : (enterService f s).announcing = s.announcing := by
  have hd := requestDraw_announcing .line { s with line.service := some ⟨f, .waitingDraw⟩ }
  unfold enterService requestLineDraw
  split
  · next hr =>
    rw [hr] at hd
    unfold lineDraw
    split <;> exact hd
  · next hr =>
    rw [hr] at hd
    exact hd

theorem tryAttempt_announcing (s : Station) : (tryAttempt s).announcing = s.announcing := by
  unfold tryAttempt
  repeat' split
  all_goals rfl

theorem pump_announcing (s : Station) : (pump s).announcing = s.announcing := by
  unfold pump
  split
  · exact (tryAttempt_announcing _).trans (enterService_announcing _ _)
  · exact tryAttempt_announcing s

theorem pump_queued {s : Station} (h : s.announceQueued = true) : (pump s).announceQueued = true := by
  rw [announceQueued_iff] at h ⊢
  obtain ⟨g, hg, ha⟩ := h
  have hkept := pump_keeps ((holdsFrame_iff s g.body g.dest).mpr ⟨g, hg, rfl, rfl⟩)
  obtain ⟨f, hf, hb, -⟩ := (holdsFrame_iff _ _ _).mp hkept
  exact ⟨f, hf, by rw [hb]; exact ha⟩

theorem keepIdle_announces {s : Station} (h : s.announceQueued = true) : Announces s (keepIdle s) := by
  obtain ⟨x, hx⟩ := keepIdle_eq s
  rw [hx]
  exact ⟨h, rfl, rfl⟩

theorem standbyCheck_announces {s : Station} (hp : s.power.progress = .none ∨ s.power.progress = .waitingCommand)
    (h : s.announceQueued = true) : Announces s (standbyCheck s) := by
  unfold standbyCheck
  rcases hp with hp | hp
  · rw [hp]
    exact keepIdle_announces h
  · rw [hp]
    dsimp only
    split
    · unfold abandonStandby
      rw [hp]
      exact ⟨h, rfl, rfl⟩
    · split
      · unfold decideStandby mergeAnnounce
        rw [if_pos (show Station.announceQueued { s with power.progress := .announcing } = true from h)]
        have hm := mapAnnounce_queued (x := true) (y := false)
          (show Station.announceQueued { s with power.progress := .announcing } = true from h)
        dsimp only
        split
        · exact ⟨hm, rfl, rfl⟩
        · exact ⟨hm, rfl, rfl⟩
      · exact ⟨h, rfl, rfl⟩

theorem upkeep_announces {s : Station} (hp : s.power.progress = .none ∨ s.power.progress = .waitingCommand)
    (h : s.announceQueued = true) : Announces s (upkeep s) := by
  have hsame : (markReload (keepStall s)).line = s.line ∧ (markReload (keepStall s)).work = s.work ∧
      (markReload (keepStall s)).announcing = s.announcing ∧
      (markReload (keepStall s)).power.progress = s.power.progress := by
    unfold markReload keepStall
    repeat' split
    all_goals exact ⟨rfl, rfl, rfl, rfl⟩
  obtain ⟨hline, hwork, hann, hprog⟩ := hsame
  obtain ⟨hq, hw, hr⟩ := standbyCheck_announces (s := markReload (keepStall s)) (by rw [hprog]; exact hp)
    (by unfold Station.announceQueued; rw [hline]; exact h)
  exact ⟨hq, hw.trans hwork, hr.trans (congrArg Announcing.reply hann)⟩

/-- The end of a command that leaves no notice keeps the ANNOUNCE in the queue, and the reply. -/
theorem finish_announces {s : Station} (hw : s.work = [])
    (hp : s.power.progress = .none ∨ s.power.progress = .waitingCommand) (h : s.announceQueued = true) :
    (finish s).announceQueued = true ∧ (finish s).announcing.reply = s.announcing.reply := by
  obtain ⟨hq, hwork, hr⟩ := upkeep_announces hp h
  obtain ⟨hq', -, hr'⟩ := keepIdle_announces hq
  unfold finish
  rw [drain_nil 256 hw, drain_nil 128 (hwork.trans hw), pump_announcing]
  exact ⟨pump_queued hq', hr'.trans hr⟩

/-- A command whose one effect is a cause of ANNOUNCE. -/
theorem finish_announceCause {s : Station} (hw : s.work = []) (hact : s.power.opState = .active)
    (hroom : s.line.total < 8) (hp : s.power.progress = .none ∨ s.power.progress = .waitingCommand) :
    (finish (announceCause false s)).core = s.core ∧ (finish (announceCause false s)).announceQueued = true ∧
      (finish (announceCause false s)).announcing.reply = s.announcing.reply := by
  obtain ⟨hq, hwork, hr⟩ := announceCause_announces (y := false) hact hroom hp
  have hpower : (announceCause false s).power = s.power := congrArg ReplySide.power (announceCause_replySide false s)
  obtain ⟨hqueued, hreply⟩ := finish_announces (hwork.trans hw) (by rw [hpower]; exact hp) hq
  refine ⟨(finish_core (light_of_nil (hwork.trans hw)) ?_).trans (announceCause_core _ _), hqueued, hreply.trans hr⟩
  rw [hpower]
  rcases hp with hp | hp <;> rw [hp] <;> decide

/-! ### A solicit taken (R14) -/

theorem takeSolicit_pending {s : Station} (h : s.announcing.reply ≠ .none ∨ s.power.progress = .announcing) :
    takeSolicit s = s := by
  unfold takeSolicit
  rw [if_neg]
  rintro ⟨-, hr, hp, -⟩
  rcases h with h | h
  · exact h hr
  · exact hp h

section
variable {s : Station} (hact : s.power.opState = .active) (hr : s.announcing.reply = .none)
  (hp : s.power.progress ≠ .announcing) (hw : s.power.progress ≠ .waitingEntry)
include hact hr hp hw

theorem takeSolicit_pool {x : Nat} {rest : List Nat} (hm : s.draw.mode = .healthy) (hx : s.draw.pool = x :: rest) :
    (takeSolicit s).announcing.reply = .delay (s.within (x % 500)) ∧ (takeSolicit s).draw.pool = rest := by
  unfold takeSolicit
  rw [if_pos ⟨hact, hr, hp, hw⟩]
  simp only [requestDraw, hm, hx]
  exact ⟨rfl, rfl⟩

theorem takeSolicit_latched {g : Fallback} (hm : s.draw.mode = .latched) (hg : s.draw.fallback = some g) :
    (takeSolicit s).announcing.reply = .delay (s.within (fallbackDraw (fallbackNext g) % 500)) ∧
      (takeSolicit s).draw.pool = s.draw.pool := by
  unfold takeSolicit
  rw [if_pos ⟨hact, hr, hp, hw⟩]
  simp only [requestDraw, hm, hg]
  exact ⟨rfl, rfl⟩

theorem takeSolicit_waits (h : s.draw.mode = .qualifying ∨ s.draw.mode = .healthy ∧ s.draw.pool = []) :
    (takeSolicit s).announcing.reply = .waitingDraw ∧ (takeSolicit s).draw.pool = s.draw.pool ∧
      .reply ∈ (takeSolicit s).draw.waiting := by
  unfold takeSolicit
  rw [if_pos ⟨hact, hr, hp, hw⟩]
  rcases h with hm | ⟨hm, hx⟩
  · simp [requestDraw, hm]
  · simp [requestDraw, hm, hx]

end

/-! ### The clock and the address through a filed ANNOUNCE -/

theorem fileAnnounce_frame (a : Nat) (b : AnnounceBody) (s : Station) :
    (fileAnnounce a b s).keep.clock = s.keep.clock ∧ (fileAnnounce a b s).keep.config = s.keep.config := by
  unfold fileAnnounce
  split
  · exact ⟨rfl, rfl⟩
  · split
    · have hk := recount_kept s (fileEntry (b.entry a s.now) s.directory.entries)
      have hc : ∀ es : List PeerEntry,
          (s.counted es s.kept).clock = s.keep.clock ∧ (s.counted es s.kept).config = s.keep.config := by
        intro es
        unfold Station.counted
        dsimp only
        split <;> exact ⟨rfl, rfl⟩
      exact ⟨(congrArg Kept.clock hk).trans (hc _).1, (congrArg Kept.config hk).trans (hc _).2⟩
    · unfold refreshPeer
      split <;> exact ⟨rfl, rfl⟩

theorem announceFiled_frame (a : Nat) (b : AnnounceBody) (s : Station) :
    (announceFiled a b s).keep.clock = s.keep.clock ∧ (announceFiled a b s).isPeer a = s.isPeer a := by
  obtain ⟨hclock, hconfig⟩ := fileAnnounce_frame a b s
  have hk := announceFiled_kept a b s
  have hcfg : (announceFiled a b s).keep.config = s.keep.config := (congrArg Kept.config hk).trans hconfig
  refine ⟨(congrArg Kept.clock hk).trans hclock, ?_⟩
  unfold Station.isPeer Station.isOwn Station.config
  rw [hcfg]

/-- A solicit filed in ACTIVE reaches the reply. -/
theorem solicit_runs {f : RxFrame} {b : AnnounceBody} {s : State} (h : s.station.Hears 1 f)
    (hb : readAnnounce f.body = some b) (hsol : b.solicit = true) :
    exec (.announce f) s =
      .next { s with station := finish (takeSolicit (announceFiled f.source.toNat b (assembled s.station))) } := by
  have hpeer : (announceFiled f.source.toNat b (assembled s.station)).isPeer f.source.toNat = true :=
    (announceFiled_frame _ b _).2.trans (show s.station.isPeer f.source.toNat = true from isPeer_of_hears h)
  rw [announce_runs h hb, takeAnnounceFrame_eq, if_pos (by rw [hsol, hpeer]; rfl)]

/-- Settles O44: the timers queue an ANNOUNCE, and a solicit makes a reply pending. -/
theorem announceTimersQueueAnnounce : Obligations.AnnounceTimersQueueAnnounce := by
  refine ⟨fun f b s h hb hsol hround => ?_, fun bits x rest s hs hm hsound hlen hwait hreply => ?_,
    fun d now s hs hact hp hroom hnow => ⟨fun hd => ?_, fun hd => ?_⟩⟩
  · intro source leaves delay
    have hrun := solicit_runs h hb hsol
    have hside := announceFiled_replySide (a := f.source.toNat) (b := b) (s := assembled s.station) hround
    have hclock := (announceFiled_frame f.source.toNat b (assembled s.station)).1
    generalize announceFiled f.source.toNat b (assembled s.station) = v at hrun hside hclock
    have hreply : v.announcing.reply = s.station.announcing.reply := congrArg ReplySide.reply hside
    have hmode : v.draw.mode = source.mode := congrArg ReplySide.mode hside
    have hpool : v.draw.pool = source.pool := congrArg ReplySide.pool hside
    have hfall : v.draw.fallback = source.fallback := congrArg ReplySide.fallback hside
    have hpower : v.power = s.station.power := congrArg ReplySide.power hside
    have hdelay : ∀ x, Reply.delay (v.within (x % 500)) = delay x := fun x =>
      congrArg (fun n : Stamp => Reply.delay (Stamp.later n (x % 500))) hclock
    refine ⟨fun hnone hprog => ?_, fun hpend => ?_⟩
    · have hact : v.power.opState = .active := by rw [hpower]; exact h.2.1
      have hrn : v.announcing.reply = .none := hreply.trans hnone
      have hpa : v.power.progress ≠ .announcing := by rw [hpower]; exact hprog
      have hpw : v.power.progress ≠ .waitingEntry := by rw [hpower]; exact h.1.2.2
      refine ⟨fun x rest hm hx => ?_, fun g hm hg => ?_, fun hm => ?_⟩
      · obtain ⟨hr, hp⟩ := takeSolicit_pool hact hrn hpa hpw (hmode.trans hm) (hpool.trans hx)
        exact ⟨_, hrun, hr.trans (hdelay x), hp, fun c hc => absurd hc List.not_mem_nil⟩
      · obtain ⟨hr, hp⟩ := takeSolicit_latched hact hrn hpa hpw (hmode.trans hm) (hfall.trans hg)
        exact ⟨_, hrun, hr.trans (hdelay _), hp.trans hpool, fun c hc => absurd hc List.not_mem_nil⟩
      · obtain ⟨hr, hp, hw⟩ := takeSolicit_waits hact hrn hpa hpw (by rw [hmode, hpool]; exact hm)
        refine ⟨_, hrun, hr, hp.trans hpool, fun c hc => ?_⟩
        rw [List.mem_singleton.mp hc]
        exact hw
    · rw [takeSolicit_pending (by rw [hreply, hpower]; exact hpend)] at hrun
      exact ⟨_, hrun, hreply, hpool, fun c hc => absurd hc List.not_mem_nil⟩
  · have hgo : takeNoise bits (freshOut s.station) =
        { freshOut s.station with draw := bits.foldl DrawSource.passBit s.station.draw } := by
      rw [takeNoise_on (by rw [freshOut_draw, hm]; decide)]
      exact takeBits_sound bits (freshOut s.station) hm hsound
    obtain ⟨hmode, -, hwaiting⟩ := foldPass_source bits s.station.draw
    have hrun : exec (.drawConditioned ⟨bits, x⟩) s = .next { s with station := finish (replyDraw x.toNat
        { freshOut s.station with
          draw := { bits.foldl DrawSource.passBit s.station.draw with waiting := rest, group := [] } }) } := by
      change execDrawConditioned ⟨bits, x⟩ s = _
      unfold execDrawConditioned
      rw [takeEvent_running hs.1]
      dsimp only
      rw [hgo, if_pos (by simp [hmode.trans hm, hlen]), conditionedDraw_waiting x.toNat (hwaiting.trans hwait)]
      rfl
    refine ⟨_, hrun, ?_, ?_⟩
    · simp only [replyDraw, freshOut_announcing, hreply]
      rfl
    · simp only [replyDraw, freshOut_announcing, hreply]
  · have hrun : exec .announcePeriodExpiry s =
        .next { s with station := finish (announceCause false { atMoment now s.station with announcing.period := none }) } := by
      change execAnnouncePeriodExpiry s = _
      unfold execAnnouncePeriodExpiry
      rw [takeExpiry_running (d := d) hs.1 hd, ← hnow]
    obtain ⟨hcore, hq, -⟩ := finish_announceCause (s := { atMoment now s.station with announcing.period := none }) rfl
      hact hroom hp
    exact ⟨_, hrun, hcore, hq⟩
  · have hrun : exec .solicitReplyDelayExpiry s =
        .next { s with station := finish (announceCause false { atMoment now s.station with announcing.reply := .none }) } := by
      change execSolicitReplyDelayExpiry s = _
      unfold execSolicitReplyDelayExpiry
      rw [takeExpiry_running (d := d) hs.1 (by rw [freshOut_announcing, hd]; rfl), ← hnow]
    obtain ⟨hcore, hq, hr⟩ := finish_announceCause (s := { atMoment now s.station with announcing.reply := .none }) rfl
      hact hroom hp
    exact ⟨_, hrun, hcore, hq, hr⟩

end Sys2Proof.Machine

/-! PROOFS. The circuit view (O45-O47): claims, contests, holding statements, circuits freed. -/

namespace Sys2Proof.Machine

/-! ### The notices an operation posts -/

/-- Every notice that stands in `t` stood in `s` or is of a kind. -/
def Posts (kind : Task → Prop) (s t : Station) : Prop := ∀ x ∈ t.work, x ∈ s.work ∨ kind x

theorem Posts.refl {kind : Task → Prop} {s t : Station} (h : t.work = s.work) : Posts kind s t := fun _ hx =>
  Or.inl (h ▸ hx)

theorem Posts.trans {kind : Task → Prop} {s t u : Station} (h : Posts kind t u) (h' : Posts kind s t) : Posts kind s u :=
  fun x hx => (h x hx).elim (h' x) Or.inr

theorem Posts.mono {p q : Task → Prop} {s t : Station} (h : Posts p s t) (hpq : ∀ x, p x → q x) : Posts q s t :=
  fun x hx => (h x hx).imp id (hpq x)

theorem posts_post {kind : Task → Prop} {x : Task} {s : Station} (h : kind x) : Posts kind s (post x s) := fun y hy =>
  (List.mem_append.mp hy).imp id fun e => by rw [List.mem_singleton.mp e]; exact h

/-- The notices that a frame was dropped (R154). -/
def Task.dropped : Task → Prop
  | .announceDropped _ => True
  | .claimDropped _ => True
  | _ => False

theorem reportDrop_posts (b : TxBody) (s : Station) : Posts Task.dropped s (reportDrop b s) := by
  unfold reportDrop
  dsimp only
  split
  · exact posts_post (s := raise .lineCongestion s) trivial
  · exact posts_post (s := raise .lineCongestion s) trivial
  · exact Posts.refl rfl

theorem handOver_posts (b : TxBody) (d : Nat) (s : Station) : Posts Task.dropped s (handOver b d s) := by
  unfold handOver
  dsimp only
  split
  · exact Posts.refl rfl
  · split
    · exact Posts.refl (addFrame_work _ s)
    · split
      · split
        · next hg =>
          exact (Posts.refl (addFrame_work _ _)).trans ((reportDrop_posts _ _).trans (Posts.refl (takeRoutine_spec hg).2))
        · exact reportDrop_posts _ s
      · exact reportDrop_posts _ s

theorem announceCause_posts (y : Bool) (s : Station) : Posts Task.dropped s (announceCause y s) := by
  have hmerge : Posts Task.dropped s (mergeAnnounce false y s) := by
    unfold mergeAnnounce
    split
    · dsimp only
      split <;> exact Posts.refl rfl
    · exact handOver_posts (.announce false y) 63 { s with announcing.period := none }
  unfold announceCause
  split
  · split
    · exact Posts.refl rfl
    · exact Posts.refl rfl
    · exact hmerge
    · exact hmerge
  · exact Posts.refl rfl

/-- The notices of the circuit unit, but those that a round was won or lost. -/
def Task.ofEntry (x : Task) : Prop := x.dropped ∨ ∃ c e, x = .circuitChanged c e

theorem setEntry_posts (c : Circuit) (e : CircuitEntry) (s : Station) : Posts Task.ofEntry s (setEntry c e s) := by
  unfold setEntry
  dsimp only
  split
  · exact Posts.refl rfl
  · exact (posts_post (Or.inr ⟨c, e, rfl⟩)).trans (Posts.refl rfl)

theorem releaseHeld_posts (c : Circuit) (r : ClearReason) (d : Nat) (s : Station) :
    Posts Task.ofEntry s (releaseHeld c r d s) := by
  unfold releaseHeld
  split
  · dsimp only
    refine ((announceCause_posts _ _).mono fun _ => Or.inl).trans (((handOver_posts _ _ _).mono fun _ => Or.inl).trans ?_)
    exact (Posts.refl rfl).trans (setEntry_posts c .free s)
  · exact Posts.refl rfl

/-- The notices that a round opened brings: of drops, or that it has failed. -/
def Task.ofOpening (x : Task) : Prop := x.dropped ∨ ∃ t reason, x = .roundFailed t reason

theorem requestDraw_work (c : Consumer) (s : Station) : (requestDraw c s).2.work = s.work := by
  unfold requestDraw
  repeat' split
  all_goals rfl

theorem claimDraw_posts (d : Nat) (s : Station) : Posts Task.ofOpening s (claimDraw d s) := by
  unfold claimDraw
  split
  · split
    · exact ((handOver_posts _ _ _).mono fun _ => Or.inl).trans (Posts.refl rfl)
    · exact Posts.refl rfl
  · exact Posts.refl rfl

theorem beginAttempt_posts {r : Round} {s t : Station} (h : beginAttempt r s = some t) : Posts Task.ofOpening s t := by
  unfold beginAttempt at h
  split at h
  · exact nomatch h
  · dsimp only at h
    split at h
    · next hr =>
      have hw := (congrArg (fun p => p.2.work) hr).symm.trans (requestDraw_work .circuit _)
      cases h
      exact (claimDraw_posts _ _).trans (Posts.refl hw)
    · next hr =>
      have hw := (congrArg (fun p => p.2.work) hr).symm.trans (requestDraw_work .circuit _)
      cases h
      exact Posts.refl hw

theorem openRound_posts (t : Tag) (s : Station) : Posts Task.ofOpening s (openRound t s) := by
  unfold openRound
  dsimp only
  split
  · next h => exact beginAttempt_posts h
  · exact posts_post (s := { s with circuits.round := none }) (Or.inr ⟨t, _, rfl⟩)

theorem takeHeldRequest_posts (s : Station) : Posts Task.ofOpening s (takeHeldRequest s) := by
  unfold takeHeldRequest
  split
  · exact openRound_posts _ { s with circuits.request := none }
  · exact Posts.refl rfl

/-! ### A CLAIM from the line (R18, R19, R32) -/

theorem circuitOf_circuitNumber (c : Circuit) : circuitOf (circuitNumber c) = some c := by
  unfold circuitOf circuitNumber
  rw [dif_pos ⟨by omega, by omega⟩]
  rfl

theorem ownCircuit_isSome {s : Station} {c : Circuit} (hc : (s.entry c).own = true) :
    ∃ d, s.ownCircuit = some d := by
  have hmem : ∀ d : Circuit, d ∈ allCircuits := by decide
  exact Option.isSome_iff_exists.mp (List.find?_isSome.mpr ⟨c, hmem c, hc⟩)

/-- The holder's statement at once stands in the queue (R32). -/
theorem reassert_queues {s : Station} {c : Circuit} {o : Origin} (hc : (s.entry c).own = true)
    (ho : s.call.origin = some o) (hact : s.power.opState = .active) (hroom : s.line.total < 8) :
    ∃ d, (reassert s).holdsFrame (.callStatusOrigin o.tag) d = true := by
  obtain ⟨d, hd⟩ := ownCircuit_isSome hc
  have hstatus : ∀ b : TxBody, b.isOriginStatus o.tag = true → b = .callStatusOrigin o.tag := by
    intro b hb
    cases b <;> simp_all [TxBody.isOriginStatus]
  unfold reassert
  rw [hd, ho]
  dsimp only
  split
  · next hw =>
    have hframe : ∃ g ∈ s.line.frames, g.body.isOriginStatus o.tag = true := by
      unfold Station.originStatusWaits at hw
      unfold Line.frames
      rcases Bool.or_eq_true _ _ ▸ hw with hq | hv
      · obtain ⟨g, hg, hb⟩ := List.any_eq_true.mp hq
        exact ⟨g, List.mem_append_right _ hg, hb⟩
      · split at hv
        · next v hs => exact ⟨v.frame, by simp [hs], (Bool.and_eq_true _ _ ▸ hv).1⟩
        · exact absurd hv Bool.false_ne_true
    obtain ⟨g, hg, hb⟩ := hframe
    exact ⟨g.dest, (holdsFrame_iff _ _ _).mpr ⟨g, hg, hstatus _ hb, rfl⟩⟩
  · refine ⟨o.partner, handOver_holds ?_ hroom⟩
    unfold Station.takesFrame
    rw [hact]

theorem reassert_frame (s : Station) :
    (reassert s).core = s.core ∧ (reassert s).power = s.power ∧ (s.light → (reassert s).light) := by
  unfold reassert
  split
  · split
    · exact ⟨rfl, rfl, id⟩
    · exact ⟨handOver_core _ _ s, handOver_power _ _ s, handOver_light _ rfl⟩
  · exact ⟨rfl, rfl, id⟩

theorem claim_runs {f : RxFrame} {c : Circuit} {tag : Tag} {draw : Nat} {s : State} (h : s.station.Hears 3 f)
    (hb : readClaim f.body = some ⟨circuitNumber c, tag, draw⟩) (htag : tag.origin = f.source.toNat) :
    exec (.claim f) s =
      .next
        { s with
          station :=
            finish
              (if (s.station.entry c).own then reassert (heardFrom f.source.toNat s.station)
              else joinContest c ⟨f.source.toNat, tag, draw⟩ (heardFrom f.source.toNat s.station)) } := by
  change execClaim f s = _
  unfold execClaim
  rw [takeEvent_running h.1.1, receive_heard h hb]
  have hpeer : (heardFrom f.source.toNat s.station).isPeer f.source.toNat = true := by
    have := isPeer_of_hears h
    simpa [Station.isPeer] using this
  unfold takeClaim
  rw [if_pos (by rw [hpeer, htag, beq_self_eq_true]; rfl), circuitOf_circuitNumber]
  dsimp only
  rw [heardFrom_entry]

/-- A contest joined changes the view alone, as neither a free circuit nor a contested one has a holder. -/
theorem finish_contested {a : Nat} {c : Circuit} {k : Claim} {start : Stamp} {s : Station}
    (hp : s.power.progress ≠ .waitingEntry) (h : (s.entry c).holding = none) :
    (finish (setEntry c (.contested k start) (heardFrom a s))).core =
      { s.core with
        directory := (refreshPeer a s).directory, circuits := (setView c (.contested k start) s).circuits } := by
  have hset : setEntry c (.contested k start) (heardFrom a s) = setView c (.contested k start) (heardFrom a s) :=
    setEntry_same_holding (by rw [heardFrom_entry]; exact h)
  have hend := finish_core (s := setView c (.contested k start) (heardFrom a s)) (heardFrom_light a s)
    (by change (heardFrom a s).power.progress ≠ _; rw [heardFrom_power]; exact hp)
  rw [hset, hend]
  have hcore : (setView c (.contested k start) (heardFrom a s)).core =
      { (heardFrom a s).core with circuits := (setView c (.contested k start) (heardFrom a s)).circuits } := rfl
  rw [hcore, heardFrom_core, heardFrom_directory]
  unfold setView
  rw [heardFrom_circuits]

/-! ### A contest closed (R20, R27) -/

section
variable {c : Circuit} {best : Claim} {start : Stamp} {s : Station} (he : s.entry c = .contested best start)
include he

/-- The station when the winner is entered, and an own flag has been announced that no attempt has won. -/
theorem closeContest_won (h : s.ownClaim c = some best) :
    closeContest c s = attemptWon (setEntry c (s.contestWinner best) s) := by
  unfold closeContest
  rw [he]
  dsimp only
  rw [if_pos h]

theorem closeContest_other (h : s.ownClaim c ≠ some best) :
    ∃ t : Station, t.circuits = (setEntry c (s.contestWinner best) s).circuits ∧ t.directory = s.directory ∧
      Posts Task.ofEntry s t ∧ closeContest c s = if s.contesting c then attemptLost t else t := by
  have hset := setEntry_posts c (s.contestWinner best) s
  have hdirectory : (setEntry c (s.contestWinner best) s).directory = s.directory := (setEntry_others _ _ s).2.2
  refine ⟨if s.isOwn best.claimant then announceCause false (setEntry c (s.contestWinner best) s)
    else setEntry c (s.contestWinner best) s, ?_, ?_, ?_, ?_⟩
  · split
    · exact announceCause_circuits _ _
    · rfl
  · split
    · exact (core_directory_eq (announceCause_core _ _)).trans hdirectory
    · exact hdirectory
  · split
    · exact ((announceCause_posts _ _).mono fun _ => Or.inl).trans hset
    · exact hset
  · unfold closeContest
    rw [he]
    dsimp only
    rw [if_neg h]

end

/-- The view once a contest has closed with its winner: that circuit is the winner's, the others are as they were. -/
theorem entries_of_setEntry {c : Circuit} {e : CircuitEntry} {s u : Station}
    (h : u.circuits.view = (setEntry c e s).circuits.view) :
    u.entry c = e ∧ ∀ d, d ≠ c → u.entry d = s.entry d :=
  ⟨(entry_of_view h c).trans (setEntry_entry c e s), fun d hd => (entry_of_view h d).trans (setEntry_other hd e s)⟩

/-- The own attempt stands in the contest of a circuit with a draw. -/
theorem ownClaim_of_stands {c : Circuit} {r : Round} {draw : Nat} {s : Station} (hr : s.circuits.round = some r)
    (hc : r.circuit = c) (hst : r.stage = .contesting draw) :
    s.ownClaim c = some ⟨s.tagOrigin, r.tag, draw⟩ := by
  unfold Station.ownClaim
  rw [hr]
  dsimp only
  rw [hst]
  dsimp only
  rw [if_pos hc]

theorem stands_of_ownClaim {c : Circuit} {k : Claim} {s : Station} (h : s.ownClaim c = some k) :
    ∃ r draw, s.circuits.round = some r ∧ r.circuit = c ∧ r.stage = .contesting draw ∧
      k = ⟨s.tagOrigin, r.tag, draw⟩ := by
  unfold Station.ownClaim at h
  split at h
  · next r hr =>
    split at h
    · next draw hst =>
      split at h
      · next hc => exact ⟨r, draw, hr, hc, hst, (Option.some.inj h).symm⟩
      · exact nomatch h
    · exact nomatch h
  · exact nomatch h

/-- A won attempt of a round that stands leaves the view of the winner. -/
theorem closeContest_view {c : Circuit} {best : Claim} {start : Stamp} {s : Station}
    (he : s.entry c = .contested best start)
    (ha : ∀ r, s.circuits.round = some r → s.ownClaim c = some best → r.abandoned = none) :
    (closeContest c s).circuits.view = (setEntry c (s.contestWinner best) s).circuits.view := by
  by_cases h : s.ownClaim c = some best
  · obtain ⟨r, draw, hr, -, -, -⟩ := stands_of_ownClaim h
    rw [closeContest_won he h]
    exact (attemptWon_kept_round ((setEntry_round c _ s).trans hr) (ha r hr h)).2.2
  · obtain ⟨t, hcircuits, -, -, hclose⟩ := closeContest_other he h
    rw [hclose]
    split
    · rw [attemptLost_view, hcircuits]
    · rw [hcircuits]

/-- A round that stands in a contest that another claim wins loses its attempt. -/
theorem lostStands {c : Circuit} {best : Claim} {start : Stamp} {r : Round} {draw : Nat} {s : Station}
    (he : s.entry c = .contested best start) (hr : s.circuits.round = some r) (hc : r.circuit = c)
    (hst : r.stage = .contesting draw) (hb : best ≠ ⟨s.tagOrigin, r.tag, draw⟩) :
    ∃ t : Station, t.circuits.round = some r ∧ t.circuits.request = s.circuits.request ∧
      t.directory.effective = s.directory.effective ∧ Posts Task.ofEntry s t ∧
      t.circuits.view = (setEntry c (s.contestWinner best) s).circuits.view ∧ closeContest c s = attemptLost t := by
  have hclaim := ownClaim_of_stands hr hc hst
  obtain ⟨t, hcircuits, hdirectory, hposts, hclose⟩ := closeContest_other he
    (by rw [hclaim]; exact fun h => hb (Option.some.inj h).symm)
  rw [Station.contesting, hclaim, if_pos (show (some _ : Option Claim).isSome = true from rfl)] at hclose
  refine ⟨t, ?_, ?_, by rw [hdirectory], hposts, by rw [hcircuits], hclose⟩
  · rw [hcircuits, setEntry_round, hr]
  · rw [hcircuits, setEntry_request]

/-- The own claim is the best of a round that was abandoned: its circuit is released at once, and no outcome is reported
(R29, R30). -/
theorem closeContest_abandoned {c : Circuit} {start : Stamp} {r : Round} {draw : Nat} {a : Abandonment} {s : Station}
    (hs : s.work = []) (hr : s.circuits.round = some r) (hc : r.circuit = c) (hst : r.stage = .contesting draw)
    (ha : r.abandoned = some a) (he : s.entry c = .contested ⟨s.tagOrigin, r.tag, draw⟩ start)
    (hown : s.isOwn s.tagOrigin = true) :
    (closeContest c s).entry c = .free ∧ (∀ e, e ≠ c → (closeContest c s).entry e = s.entry e) ∧
      (∀ t, .roundWon t ∉ (closeContest c s).work) ∧
      (s.circuits.request = none →
        (closeContest c s).circuits.round = none ∧
          (s.power.opState = .active → s.line.total < 7 →
            (closeContest c s).holdsFrame (.clear r.tag (some c) a.reason) a.dest = true)) := by
  have hclaim := ownClaim_of_stands hr hc hst
  have hround : (setEntry c (s.contestWinner ⟨s.tagOrigin, r.tag, draw⟩) s).circuits.round = some r :=
    (setEntry_round c _ s).trans hr
  rw [closeContest_won he hclaim, attemptWon_abandoned hround ha, hc]
  have hwinner : s.contestWinner ⟨s.tagOrigin, r.tag, draw⟩ = .heldOwn s.tagOrigin r.tag s.now := if_pos hown
  obtain ⟨hline, hpower, -⟩ := setEntry_others c (s.contestWinner ⟨s.tagOrigin, r.tag, draw⟩) s
  have hrequest := setEntry_request c (s.contestWinner ⟨s.tagOrigin, r.tag, draw⟩) s
  have hposts := setEntry_posts c (s.contestWinner ⟨s.tagOrigin, r.tag, draw⟩) s
  generalize hw : setEntry c (s.contestWinner ⟨s.tagOrigin, r.tag, draw⟩) s = w at hround hline hpower hrequest hposts
  generalize hv : announceCause false { w with circuits.round := none } = v
  have hcircuits : v.circuits = { w.circuits with round := none } := by
    rw [← hv]
    exact announceCause_circuits _ _
  have hview : v.circuits.view = w.circuits.view := by rw [hcircuits]
  obtain ⟨hentry, hothers⟩ := entries_of_setEntry (u := v) (hview.trans (congrArg (fun x => x.circuits.view) hw.symm))
  rw [hwinner] at hentry
  obtain ⟨hfree, hrest⟩ := releaseHeld_entries (r := a.reason) (d := a.dest) hentry
  have hview' := takeHeldRequest_view (releaseHeld c a.reason a.dest v)
  refine ⟨(entry_of_view hview' c).trans hfree,
    fun e hne => ((entry_of_view hview' e).trans (hrest e hne)).trans (hothers e hne), fun t ht => ?_, fun hq => ?_⟩
  · have hall : Posts (fun x => x.ofOpening ∨ x.ofEntry) s (takeHeldRequest (releaseHeld c a.reason a.dest v)) := by
      refine ((takeHeldRequest_posts _).mono fun _ => Or.inl).trans (((releaseHeld_posts _ _ _ v).mono fun _ => Or.inr).trans ?_)
      rw [← hv]
      refine ((announceCause_posts _ _).mono fun _ h => Or.inr (Or.inl h)).trans ?_
      exact (Posts.refl rfl).trans (hposts.mono fun _ => Or.inr)
    rcases hall _ ht with h | (h | ⟨_, _, h⟩) | (h | ⟨_, _, h⟩)
    · rw [hs] at h
      exact absurd h List.not_mem_nil
    · exact h
    · exact nomatch h
    · exact h
    · exact nomatch h
  · have hvq : v.circuits.request = none := (congrArg Circuits.request hcircuits).trans (hrequest.trans hq)
    obtain ⟨hrr, hrq⟩ := releaseHeld_round c a.reason a.dest v
    have hid : takeHeldRequest (releaseHeld c a.reason a.dest v) = releaseHeld c a.reason a.dest v := by
      unfold takeHeldRequest
      rw [hrq, hvq]
    rw [hid]
    refine ⟨hrr.trans (congrArg Circuits.round hcircuits), fun hact hroom => ?_⟩
    have htotal : v.line.total < 8 := by
      rw [← hv]
      rw [← hline] at hroom
      exact Nat.lt_of_le_of_lt (announceCause_total (s := { w with circuits.round := none }) (Nat.lt_succ_of_lt hroom))
        (Nat.succ_lt_succ hroom)
    refine (releaseHeld_effect hentry htotal ?_).2
    rw [← hv, announceCause_opState]
    exact (congrArg Power.opState hpower).trans hact

/-- Settles O45: circuits are contested, held by the best claimant, and freed. -/
theorem circuitsAreContestedAndFreed : Obligations.CircuitsAreContestedAndFreed := by
  refine ⟨fun f c tag draw s h hb htag => ?_, fun c best start now s hs he hnow => ?_,
    fun c h tag start refreshed now s hs he hnow => ?_⟩
  · intro core mine
    have hrun := claim_runs h hb htag
    have hp := h.1.2.2
    have hheard : (finish (heardFrom f.source.toNat s.station)).core = core := by
      refine (finish_core (heardFrom_light _ _) (by rw [heardFrom_power]; exact hp)).trans ?_
      rw [heardFrom_core, heardFrom_directory]
    refine ⟨fun hfree => ?_, fun best start hcont => ?_, fun hheld => ?_⟩
    · rw [if_neg (by rw [hfree]; decide), joinContest_of_free _ ((heardFrom_entry _ _ _).trans hfree), heardFrom_now] at hrun
      exact ⟨_, hrun, finish_contested hp (by rw [hfree]; rfl)⟩
    · rw [if_neg (by rw [hcont]; exact Bool.false_ne_true),
        joinContest_of_contested _ ((heardFrom_entry _ _ _).trans hcont)] at hrun
      intro wins
      by_cases hw : Claim.outranks ⟨f.source.toNat, tag, draw⟩ best = true
      · rw [if_pos hw] at hrun
        rw [show wins = true from hw, if_pos rfl]
        exact ⟨_, hrun, finish_contested hp (by rw [hcont]; rfl)⟩
      · rw [if_neg hw] at hrun
        rw [show wins = false from Bool.not_eq_true _ ▸ hw, if_neg Bool.false_ne_true]
        exact ⟨_, hrun, hheard⟩
    · have hsame : ∀ {v : Station}, v.core = (heardFrom f.source.toNat s.station).core → v.light →
          v.power = (heardFrom f.source.toNat s.station).power → (finish v).core = core := by
        intro v hcore hlight hpower
        refine (finish_core hlight (by rw [hpower, heardFrom_power]; exact hp)).trans (hcore.trans ?_)
        rw [heardFrom_core, heardFrom_directory]
      by_cases hown : (s.station.entry c).own = true
      · rw [if_pos hown] at hrun
        obtain ⟨hcore, hpower, hlight⟩ := reassert_frame (heardFrom f.source.toNat s.station)
        have hl := hlight (heardFrom_light _ _)
        refine ⟨_, hrun, hsame hcore hl hpower, fun o _ ho hroom => ?_⟩
        obtain ⟨d, hd⟩ := reassert_queues (c := c) (s := heardFrom f.source.toNat s.station) (by rw [heardFrom_entry]; exact hown) (by rw [heardFrom_call]; exact ho)
          (by rw [heardFrom_power]; exact h.2.1) (by rw [heardFrom_total]; exact hroom)
        exact (queued_body_iff _ _).mpr ⟨d, finish_holds rfl hl (by rw [hpower, heardFrom_power]; exact hp) hd⟩
      · rw [if_neg hown] at hrun
        have hjoin : joinContest c ⟨f.source.toNat, tag, draw⟩ (heardFrom f.source.toNat s.station) =
            heardFrom f.source.toNat s.station := by
          unfold joinContest
          rw [heardFrom_entry]
          cases he : s.station.entry c with
          | free => rw [he] at hheld; exact absurd hheld Bool.false_ne_true
          | contested best start => rw [he] at hheld; exact absurd hheld Bool.false_ne_true
          | heldByPeer _ _ _ _ => rfl
          | heldOwn _ _ _ => rfl
        rw [hjoin] at hrun
        exact ⟨_, hrun, hheard, fun o ho => absurd ho hown⟩
  · intro closes stands mine
    have hrun : exec (.contestTimerExpiry c) s = .next { s with station := finish (closeContest c (atMoment now s.station)) } := by
      change execContestTimerExpiry c s = _
      unfold execContestTimerExpiry
      rw [takeExpiry_running (d := Stamp.later start 250) hs.1, ← hnow]
      rw [show (freshOut s.station).entry c = _ from he]
      rfl
    have hat : (atMoment now s.station).entry c = .contested best start := he
    have hkept : (finish (closeContest c (atMoment now s.station))).kept = { s.station.kept with clock := now } :=
      finish_kept_of (closeContest_kept _ _) (awake_opState hs) (awake_waitingEntry hs)
    have hcloses : (∀ r, s.station.circuits.round = some r → s.station.ownClaim c = some best → r.abandoned = none) →
        closes (closeContest c (atMoment now s.station)) := fun ha =>
      have hentries := entries_of_setEntry (closeContest_view hat ha)
      ⟨hrun, hentries.1, hentries.2, hkept⟩
    refine ⟨fun ha => ⟨_, hcloses fun r hr hown => ?_⟩, fun r draw hst ha hq => ⟨fun hb hown => ?_, fun hb hn => ?_,
      fun hb hn => ?_⟩, fun r draw a hst ha => ⟨fun hb hown => ?_, fun hb hq => ?_⟩, fun hno => ?_⟩
    · obtain ⟨q, draw, hq, hc, hstage, hk⟩ := stands_of_ownClaim hown
      obtain rfl : q = r := Option.some.inj (hq.symm.trans hr)
      exact ha q draw ⟨hq, hc, hstage⟩ hk
    · obtain ⟨hr, hc, hstage⟩ := hst
      have hclaim := ownClaim_of_stands (s := s.station) hr hc hstage
      obtain ⟨hnone, hwon, -⟩ := attemptWon_kept_round (r := r) ((setEntry_round c _ (atMoment now s.station)).trans hr) ha
      rw [← closeContest_won hat (hclaim.trans (congrArg some hb.symm))] at hnone hwon
      exact ⟨_, hcloses fun q hq' _ => by rw [← Option.some.inj (hr.symm.trans hq')]; exact ha, hnone, hwon⟩
    · obtain ⟨hr, hc, hstage⟩ := hst
      obtain ⟨t, htr, htq, -, -, -, hclose⟩ := lostStands (s := atMoment now s.station) hat hr hc hstage hb
      obtain ⟨hnone, hfailed⟩ := attemptLost_third htr ha hn (htq.trans hq)
      rw [← hclose] at hnone hfailed
      exact ⟨_, hcloses fun q hq' _ => by rw [← Option.some.inj (hr.symm.trans hq')]; exact ha, hnone, hfailed⟩
    · obtain ⟨hr, hc, hstage⟩ := hst
      obtain ⟨t, htr, htq, hteff, -, htv, hclose⟩ := lostStands (s := atMoment now s.station) hat hr hc hstage hb
      have hlost := attemptLost_earlier htr ha hn (htq.trans hq)
      have hview := attemptLost_view t
      rw [← hclose] at hlost hview
      refine ⟨_, hcloses fun q hq' _ => by rw [← Option.some.inj (hr.symm.trans hq')]; exact ha, hlost.imp id ?_⟩
      rintro ⟨q, hqr, htag, hattempts, hnew, hcount, hfree⟩
      exact ⟨q, hqr, htag, hattempts, hnew, Nat.le_trans hcount (Nat.le_of_eq hteff), (entry_of_view hview _).trans hfree⟩
    · obtain ⟨hr, hc, hstage⟩ := hst
      subst hb
      obtain ⟨hfree, hothers, hno, hrest⟩ := closeContest_abandoned (s := atMoment now s.station) rfl hr hc hstage ha hat hown
      exact ⟨_, hrun, hfree, hothers, hkept, hno, hrest⟩
    · obtain ⟨hr, hc, hstage⟩ := hst
      obtain ⟨t, htr, htq, -, hposts, -, hclose⟩ := lostStands (s := atMoment now s.station) hat hr hc hstage hb
      obtain ⟨hnone, hwork⟩ := attemptLost_abandoned htr ha (htq.trans hq)
      rw [← hclose] at hnone hwork
      refine ⟨_, hcloses fun q hq' hown => ?_, hnone, fun u reason hu => ?_⟩
      · exact absurd (Option.some.inj ((ownClaim_of_stands (s := s.station) hr hc hstage).symm.trans hown)).symm hb
      · rw [hwork] at hu
        rcases hposts _ hu with hu | hu | ⟨_, _, hu⟩
        · exact absurd hu List.not_mem_nil
        · exact hu
        · exact nomatch hu
    · have hnone : s.station.ownClaim c = none := by
        rw [Option.eq_none_iff_forall_ne_some]
        intro k hk
        obtain ⟨r, draw, hr, hc, hstage, -⟩ := stands_of_ownClaim hk
        exact hno r draw ⟨hr, hc, hstage⟩
      have hne : (atMoment now s.station).ownClaim c ≠ some best := by
        rw [show (atMoment now s.station).ownClaim c = none from hnone]
        exact nofun
      obtain ⟨t, hcircuits, -, -, hclose⟩ := closeContest_other hat hne
      have hout : (atMoment now s.station).contesting c = false := congrArg Option.isSome hnone
      rw [hout, if_neg Bool.false_ne_true] at hclose
      refine ⟨_, hcloses fun r _ hown => absurd (hnone.symm.trans hown) nofun, ?_⟩
      rw [hclose, hcircuits]
      exact setEntry_round c _ _
  · have hrun : exec (.orphanLimitExpiry c) s = .next { s with station := finish (setEntry c .free (atMoment now s.station)) } := by
      change execOrphanLimitExpiry c s = _
      unfold execOrphanLimitExpiry
      rw [takeExpiry_running (d := Stamp.later refreshed 20000) hs.1, ← hnow]
      rw [show (freshOut s.station).entry c = _ from he]
      rfl
    have hat : (atMoment now s.station).entry c = .heldByPeer h tag start refreshed := he
    refine ⟨_, hrun, setEntry_entry _ _ _, fun e hne => setEntry_other hne _ _, ?_,
      finish_kept_of (setEntry_kept _ _ _) (awake_opState hs) (awake_waitingEntry hs)⟩
    unfold setEntry
    dsimp only
    rw [if_neg (by rw [hat]; exact nofun)]
    exact List.mem_append_right _ (List.mem_singleton.mpr rfl)

end Sys2Proof.Machine

/-! PROOFS. Holding statements (O46): what a statement of a circuit held does to the view. -/

namespace Sys2Proof.Machine

/-! ### A holding statement and the view (R17, R21, R23) -/

/-- The entry that a holding statement makes. -/
def statedEntry (a : Nat) (tag : Tag) (age : Nat) (now : Stamp) : CircuitEntry :=
  .heldByPeer a tag (Stamp.earlier now (age * 1000)) now

/-- A station whose view is that of another but for one circuit. -/
def Station.Sets (s : Station) (c : Circuit) (e : CircuitEntry) (u : Station) : Prop :=
  u.entry c = e ∧ ∀ d, d ≠ c → u.entry d = s.entry d

theorem sets_self (c : Circuit) (s : Station) : s.Sets c (s.entry c) s := ⟨rfl, fun _ _ => rfl⟩

theorem sets_of_view {c : Circuit} {e : CircuitEntry} {s u v : Station} (h : s.Sets c e u)
    (hv : v.circuits.view = u.circuits.view) : s.Sets c e v :=
  ⟨(entry_of_view hv c).trans h.1, fun d hd => (entry_of_view hv d).trans (h.2 d hd)⟩

theorem sets_setEntry (c : Circuit) (e : CircuitEntry) (s : Station) : s.Sets c e (setEntry c e s) :=
  ⟨setEntry_entry c e s, fun _ hd => setEntry_other hd e s⟩

theorem adoptHolding_sets (c : Circuit) (e : CircuitEntry) (s : Station) : s.Sets c e (adoptHolding c e s) := by
  unfold adoptHolding
  dsimp only
  split
  · exact sets_of_view (sets_setEntry c e s) (attemptLost_view _)
  · exact sets_setEntry c e s

/-! Notices stay while frames are handed over. -/

theorem reportDrop_notices {b : TxBody} {s : Station} {t : Task} (h : t ∈ s.work) : t ∈ (reportDrop b s).work := by
  unfold reportDrop
  dsimp only
  split
  · exact List.mem_append_left _ h
  · exact List.mem_append_left _ h
  · exact h

theorem handOver_notices {b : TxBody} {d : Nat} {s : Station} {t : Task} (h : t ∈ s.work) : t ∈ (handOver b d s).work := by
  unfold handOver
  dsimp only
  split
  · exact h
  · split
    · rw [addFrame_work]
      exact h
    · split
      · split
        · next hg =>
          rw [addFrame_work]
          refine reportDrop_notices ?_
          rw [(takeRoutine_spec hg).2]
          exact h
        · exact reportDrop_notices h
      · exact reportDrop_notices h

theorem announceCause_notices {y : Bool} {s : Station} {t : Task} (h : t ∈ s.work) : t ∈ (announceCause y s).work := by
  have hmerge : t ∈ (mergeAnnounce false y s).work := by
    unfold mergeAnnounce
    split
    · dsimp only
      split <;> exact h
    · exact handOver_notices (s := { s with announcing.period := none }) h
  unfold announceCause
  split
  · split
    · exact h
    · exact h
    · exact hmerge
    · exact hmerge
  · exact h

theorem yieldCircuit_sets (c : Circuit) (t : Tag) (e : CircuitEntry) (s : Station) :
    s.Sets c e (yieldCircuit c t e s) ∧ .yielded t ∈ (yieldCircuit c t e s).work := by
  unfold yieldCircuit
  dsimp only
  refine ⟨sets_of_view (sets_setEntry c e s) ?_, announceCause_notices (List.mem_append_right _ (List.mem_singleton.mpr rfl))⟩
  rw [announceCause_circuits]
  rfl

section
variable {a age : Nat} {c : Circuit} {tag : Tag} {s : Station} (hpeer : s.isPeer a = true) (htag : tag.origin = a)
include hpeer htag

/-- A circuit that is free or contested is held as stated. -/
theorem takeHolding_open (he : (s.entry c).holding = none) :
    s.Sets c (statedEntry a tag age s.now) (takeHolding a (circuitNumber c) tag age s) := by
  unfold takeHolding
  rw [if_pos (by rw [hpeer, htag, beq_self_eq_true]; rfl), circuitOf_circuitNumber]
  dsimp only
  split
  · exact adoptHolding_sets c _ s
  · exact adoptHolding_sets c _ s
  · next h => rw [h] at he; exact nomatch he
  · next h => rw [h] at he; exact nomatch he

theorem takeHolding_peer {h : Nat} {t : Tag} {start refreshed : Stamp} (he : s.entry c = .heldByPeer h t start refreshed) :
    takeHolding a (circuitNumber c) tag age s =
      if h ≠ a ∧ holdingOutranks (holdAge s.now start) h age a = true then s
      else setEntry c (statedEntry a tag age s.now) s := by
  unfold takeHolding
  rw [if_pos (by rw [hpeer, htag, beq_self_eq_true]; rfl), circuitOf_circuitNumber]
  dsimp only
  rw [he]
  dsimp only
  by_cases hh : h = a
  · rw [if_pos hh, if_neg fun x => x.1 hh]
    rfl
  · rw [if_neg hh]
    by_cases ho : holdingOutranks (holdAge s.now start) h age a = true
    · rw [if_pos ho, if_pos ⟨hh, ho⟩]
    · rw [if_neg ho, if_neg fun x => ho x.2]
      rfl

theorem takeHolding_own {h : Nat} {t : Tag} {start : Stamp} (he : s.entry c = .heldOwn h t start) :
    takeHolding a (circuitNumber c) tag age s =
      if holdingOutranks (holdAge s.now start) h age a = true then reassert s
      else yieldCircuit c t (statedEntry a tag age s.now) s := by
  unfold takeHolding
  rw [if_pos (by rw [hpeer, htag, beq_self_eq_true]; rfl), circuitOf_circuitNumber]
  dsimp only
  rw [he]
  rfl

end

/-! ### The frames that state a holding -/

/-- The station `u` has taken a holding statement as `w`, and then only what leaves the view and the notices. -/
structure Stated (a age : Nat) (c : Circuit) (tag : Tag) (w u : Station) : Prop where
  view : u.circuits.view = (takeHolding a (circuitNumber c) tag age w).circuits.view
  work : ∀ t ∈ (takeHolding a (circuitNumber c) tag age w).work, t ∈ u.work

theorem callStatus_states {f : RxFrame} {c : Circuit} {tag : Tag} {phase age : Nat} {s : State}
    (h : s.station.Hears 4 f) (hb : readCallStatus f.body = some ⟨tag, circuitNumber c, .origin, phase, age⟩) :
    ∃ u, exec (.callStatus f) s = .next { s with station := finish u } ∧
      Stated f.source.toNat age c tag (heardFrom f.source.toNat s.station) u ∧
      u.kept = (heardFrom f.source.toNat s.station).kept := by
  have hrun : exec (.callStatus f) s =
      .next { s with station := finish (takeCallStatusFrame f ⟨tag, circuitNumber c, .origin, phase, age⟩
        (heardFrom f.source.toNat s.station)) } := by
    change execCallStatus f s = _
    unfold execCallStatus
    rw [takeEvent_running h.1.1, receive_heard h hb]
  have hsame : ∀ v : Station, (takeOriginStatus f.source.toNat tag v).circuits = v.circuits ∧
      (takeOriginStatus f.source.toNat tag v).work = v.work := by
    intro v
    unfold takeOriginStatus
    split <;> exact ⟨rfl, rfl⟩
  refine ⟨_, hrun, ?_, takeCallStatusFrame_kept _ _ _⟩
  unfold takeCallStatusFrame whenAddressed
  dsimp only
  rw [if_pos rfl]
  split
  · split
    · exact ⟨rfl, fun _ ht => ht⟩
    · obtain ⟨hcircuits, hwork⟩ := hsame (takeHolding f.source.toNat (circuitNumber c) tag age (heardFrom f.source.toNat s.station))
      exact ⟨congrArg Circuits.view hcircuits, fun _ ht => by rw [hwork]; exact ht⟩
  · exact ⟨rfl, fun _ ht => ht⟩

theorem takeSolicit_work (s : Station) : (takeSolicit s).work = s.work := by
  have hreply : ∀ (d : Nat) (t : Station), (replyDraw d t).work = t.work := by
    intro d t
    unfold replyDraw
    split <;> rfl
  unfold takeSolicit
  split
  · have hd := requestDraw_work .reply { s with announcing.reply := .waitingDraw }
    split
    · next hr =>
      rw [hr] at hd
      exact (hreply _ _).trans hd
    · next hr =>
      rw [hr] at hd
      exact hd
  · rfl

theorem announce_states {f : RxFrame} {b : AnnounceBody} {c : Circuit} {tag : Tag} {age : Nat} {s : State}
    (h : s.station.Hears 1 f) (hb : readAnnounce f.body = some b) (hfile : b.fileable = true)
    (hheld : b.held = some ⟨circuitNumber c, tag, age⟩) :
    ∃ u, exec (.announce f) s = .next { s with station := finish u } ∧
      Stated f.source.toNat age c tag (fileAnnounce f.source.toNat b (assembled s.station)) u ∧
      u.kept = (fileAnnounce f.source.toNat b (assembled s.station)).kept := by
  refine ⟨_, announce_runs h hb, ?_, takeAnnounceFrame_kept _ b _⟩
  have hfiled : announceFiled f.source.toNat b (assembled s.station) =
      takeHolding f.source.toNat (circuitNumber c) tag age (fileAnnounce f.source.toNat b (assembled s.station)) := by
    unfold announceFiled
    rw [hheld]
    dsimp only
    rw [if_pos hfile]
  rw [takeAnnounceFrame_eq, hfiled]
  split
  · exact ⟨congrArg (fun k : StationCore => k.circuits.view) (takeSolicit_core _), fun t ht => by
      rw [takeSolicit_work]; exact ht⟩
  · exact ⟨rfl, fun t ht => ht⟩

/-- An ANNOUNCE filed leaves the view of the circuits. -/
theorem fileAnnounce_view (a : Nat) (b : AnnounceBody) (s : Station) :
    (fileAnnounce a b s).circuits.view = s.circuits.view := by
  have hcount : ∀ (m : Bool) (t : Station), (recomputeCount m t).circuits = t.circuits := by
    intro m t
    unfold recomputeCount
    dsimp only
    split
    all_goals
      split <;> rfl
  have hchanged : ∀ t : Station, (countChanged t).circuits.view = t.circuits.view := by
    intro t
    unfold countChanged
    split
    · split
      · rw [continueRound_view]
        exact congrArg Circuits.view (core_circuits_eq (removeUnbegun_core _ _))
      · rfl
    · rfl
  unfold fileAnnounce
  split
  · rfl
  · split
    · unfold recount
      exact (hchanged _).trans (congrArg Circuits.view (hcount _ _))
    · unfold refreshPeer
      split <;> rfl

/-- What an ANNOUNCE filed may change of a view: the directory, and the counters of faults. -/
theorem counted_frame (s : Station) (entries : List PeerEntry) (k : Kept) :
    s.counted entries k =
      { k with directory := (s.counted entries k).directory, counters := (s.counted entries k).counters } := by
  unfold Station.counted
  dsimp only
  split
  · have hfatal : (k.fatal || FaultKind.circuitMismatch.faultClass == .fatal) = k.fatal := Bool.or_false _
    unfold Kept.raised
    rw [hfatal]
  · rfl

/-- Settles O46: a holding statement sets the view of its circuit. -/
theorem holdingStatementSetsView : Obligations.HoldingStatementSetsView := by
  intro f c tag phase age s i heldThere hi htag stated ranksAbove sets
  have hstate : ∃ u w, exec i s = .next { s with station := finish u } ∧ Stated f.source.toNat age c tag w u ∧
      (∀ d, w.entry d = s.station.entry d) ∧ w.now = s.station.now ∧ w.isPeer f.source.toNat = true ∧
      (finish u).kept =
        { s.station.kept with
          assembly := .skipping, directory := (finish u).directory, counters := (finish u).kept.counters } ∧
      (i = .callStatus f →
        (finish u).directory = (refreshPeer f.source.toNat s.station).directory ∧
          (finish u).kept.counters = s.station.kept.counters) := by
    rcases hi with ⟨rfl, h, hb⟩ | ⟨rfl, h, b, hb, hfile, hheld⟩
    · obtain ⟨u, hrun, hstated, hu⟩ := callStatus_states h hb
      have hk := finish_kept_of (hu.trans (heardFrom_kept _ _)) (awake_opState h.1) (awake_waitingEntry h.1)
      have hdirectory : (finish u).directory = (refreshPeer f.source.toNat s.station).directory := by
        change (finish u).kept.directory = _
        rw [hk]
      have hcounters : (finish u).kept.counters = s.station.kept.counters := by rw [hk]
      refine ⟨u, _, hrun, hstated, fun d => heardFrom_entry _ d s.station, heardFrom_now _ _, ?_, ?_, fun _ => ⟨hdirectory, hcounters⟩⟩
      · unfold Station.isPeer
        rw [heardFrom_isOwn]
        exact isPeer_of_hears h
      · rw [hdirectory, hcounters]
        exact hk
    · obtain ⟨u, hrun, hstated, hu⟩ := announce_states h hb hfile hheld
      have hpeer : (assembled s.station).isPeer f.source.toNat = true :=
        show s.station.isPeer f.source.toNat = true from isPeer_of_hears h
      obtain ⟨hstate, hentry, -⟩ := counted_awake (s := s.station)
        (entries := fileEntry (b.entry f.source.toNat s.station.now) s.station.directory.entries)
        (k := { s.station.kept with assembly := .skipping }) (awake_opState h.1) (awake_waitingEntry h.1)
      have hk := finish_kept_of (hu.trans (fileAnnounce_filed hpeer hfile)) hstate hentry
      obtain ⟨hclock, hconfig⟩ := fileAnnounce_frame f.source.toNat b (assembled s.station)
      refine ⟨u, _, hrun, hstated, fun d => entry_of_view (fileAnnounce_view _ _ _) d, hclock, ?_, ?_, nofun⟩
      · unfold Station.isPeer Station.isOwn Station.config
        rw [hconfig]
        exact hpeer
      · have hframe := counted_frame s.station (fileEntry (b.entry f.source.toNat s.station.now) s.station.directory.entries)
          { s.station.kept with assembly := .skipping }
        rw [← hk] at hframe
        exact hframe
  obtain ⟨u, w, hrun, hstated, hentry, hnow, hpeer, hkept, hcall⟩ := hstate
  have done : ∀ {e : CircuitEntry} {yields : List Tag},
      w.Sets c e (takeHolding f.source.toNat (circuitNumber c) tag age w) →
      (∀ y ∈ yields, .yielded y ∈ (takeHolding f.source.toNat (circuitNumber c) tag age w).work) → sets e yields := by
    intro e yields hsets hyields
    obtain ⟨he, hothers⟩ := sets_of_view hsets hstated.view
    exact ⟨u, hrun, he, fun d hd => (hothers d hd).trans (hentry d), fun y hy => hstated.work _ (hyields y hy), hkept, hcall⟩
  have hst : statedEntry f.source.toNat tag age w.now = stated := by rw [hnow]; rfl
  have hrank : ∀ start h, holdingOutranks (holdAge w.now start) h age f.source.toNat = ranksAbove start h := by
    intro start h
    rw [hnow]
    rfl
  refine ⟨fun hfree => ?_, fun best start hcont => ?_, fun h t start refreshed hheld => ⟨fun hlow => ?_, fun hne hhigh => ?_⟩,
    fun h t start hown => ⟨fun hlow => ?_, fun hhigh => ?_⟩⟩
  · rw [← hst]
    exact done (takeHolding_open hpeer htag (by rw [hentry, hfree]; rfl)) (fun _ hy => absurd hy List.not_mem_nil)
  · rw [← hst]
    exact done (takeHolding_open hpeer htag (by rw [hentry, hcont]; rfl)) (fun _ hy => absurd hy List.not_mem_nil)
  · rw [← hst]
    refine done ?_ (fun _ hy => absurd hy List.not_mem_nil)
    rw [takeHolding_peer hpeer htag ((hentry c).trans hheld), if_neg]
    · exact sets_setEntry _ _ _
    · rintro ⟨hne, ho⟩
      rw [hrank] at ho
      exact hlow.elim hne fun hl => absurd (hl.symm.trans ho) (by decide)
  · refine done ?_ (fun _ hy => absurd hy List.not_mem_nil)
    rw [takeHolding_peer hpeer htag ((hentry c).trans hheld), if_pos ⟨hne, (hrank start h).trans hhigh⟩, ← hentry c]
    exact sets_self c w
  · rw [← hst]
    obtain ⟨hsets, hyield⟩ := yieldCircuit_sets c t (statedEntry f.source.toNat tag age w.now) w
    have hgo := takeHolding_own hpeer htag (age := age) ((hentry c).trans hown)
    rw [if_neg (by rw [hrank, hlow]; decide)] at hgo
    rw [← hgo] at hsets hyield
    exact done hsets fun y hy => by rw [List.mem_singleton.mp hy]; exact hyield
  · refine done ?_ (fun _ hy => absurd hy List.not_mem_nil)
    rw [takeHolding_own hpeer htag ((hentry c).trans hown), if_pos ((hrank start h).trans hhigh), ← hentry c]
    exact sets_of_view (sets_self c w) (congrArg (fun k : StationCore => k.circuits.view) (reassert_frame w).1)

end Sys2Proof.Machine

/-! PROOFS. A CLEAR from the line (O47): the circuit it frees, the carrier context and the call it ends. -/

namespace Sys2Proof.Machine

/-! ### Frames that stood in the queue before (R13) -/

/-- A frame that stands in the queue and is no ANNOUNCE stood there before. -/
def Station.Reflects (s t : Station) : Prop :=
  ∀ b d, b.isAnnounce = false → t.holdsFrame b d = true → s.holdsFrame b d = true

theorem Station.Reflects.of_line {s t : Station} (h : t.line = s.line) : s.Reflects t := fun b d _ hb =>
  (holdsFrame_of_line h b d).symm.trans hb

theorem Station.Reflects.trans {s t u : Station} (h : t.Reflects u) (h' : s.Reflects t) : s.Reflects u :=
  fun b d hb hu => h' b d hb (h b d hb hu)

theorem isAnnounce_eq_of_mergedWith {x y : Bool} {b c : TxBody} (hc : c.isAnnounce = false)
    (h : TxBody.mergedWith x y b = c) : b = c := by
  cases b
  case announce => rw [← h] at hc; exact absurd hc (by simp [TxBody.mergedWith, TxBody.isAnnounce])
  all_goals exact h

theorem mapAnnounce_reflects (x y : Bool) (s : Station) : s.Reflects (mapAnnounce (TxBody.mergedWith x y) s) := by
  intro b d hb h
  rw [holdsFrame_iff] at h ⊢
  obtain ⟨g, hg, hbody, hdest⟩ := h
  rcases List.mem_append.mp hg with hg | hg
  · simp only [mapAnnounce, Option.mem_toList, Option.map_eq_some_iff] at hg
    obtain ⟨v, ⟨w, hw, rfl⟩, rfl⟩ := hg
    exact ⟨w.frame, by simp [Line.frames, hw], isAnnounce_eq_of_mergedWith hb hbody, hdest⟩
  · obtain ⟨f, hf, rfl⟩ := List.mem_map.mp hg
    exact ⟨f, List.mem_append_right _ hf, isAnnounce_eq_of_mergedWith hb hbody, hdest⟩

theorem announceCause_reflects (y : Bool) (s : Station) : s.Reflects (announceCause y s) := by
  have hover : ∀ t : Station, t.Reflects (handOver (.announce false y) 63 t) := by
    intro t
    unfold handOver
    dsimp only
    split
    · exact .of_line rfl
    · split
      · intro b d hb h
        rw [holdsFrame_iff] at h ⊢
        obtain ⟨g, hg, hbody, hdest⟩ := h
        rcases (addFrame_frames _ _ _).mp hg with rfl | hg
        · rw [← hbody] at hb
          exact absurd hb (by simp [TxBody.isAnnounce])
        · exact ⟨g, hg, hbody, hdest⟩
      · rw [if_neg (by simp [TxBody.urgent])]
        exact .of_line (reportDrop_line _ t)
  have hmerge : s.Reflects (mergeAnnounce false y s) := by
    unfold mergeAnnounce
    split
    · dsimp only
      split
      · exact Station.Reflects.trans (.of_line rfl) (mapAnnounce_reflects false y s)
      · exact mapAnnounce_reflects false y s
    · exact (hover _).trans (.of_line rfl)
  unfold announceCause
  split
  · split
    · exact .of_line rfl
    · exact .of_line rfl
    · exact hmerge
    · exact hmerge
  · exact .of_line rfl

theorem putBearer_reflects (l : Letter) (r : Bearer) (s : Station) : s.Reflects (putBearer l r s) := by
  unfold putBearer
  dsimp only
  generalize hu : (if (s.bearer l).state == .inCall && r.state != .inCall then removeBearerBridges l s else s) = u
  have hset : s.Reflects (setBearer l r u) := by
    refine .of_line ((setBearer_line l r u).trans ?_)
    rw [← hu]
    split <;> rfl
  have hann := (announceCause_reflects false (setBearer l r u)).trans hset
  split <;> split
  · exact Station.Reflects.trans (.of_line rfl) hann
  · exact Station.Reflects.trans (.of_line rfl) hset
  · exact Station.Reflects.trans (.of_line rfl) hann
  · exact hset

theorem releaseFor_reflects (who : Claimant) (l : Letter) (s : Station) : s.Reflects (releaseFor who l s) :=
  releaseFor_keeps (P := s.Reflects) (fun l r t ht => (putBearer_reflects l r t).trans ht)
    (fun l r t ht => (Station.Reflects.of_line (setBearer_line l r t)).trans ht) (fun _ _ ht => ht)
    (fun l n t ht => (Station.Reflects.of_line (notify_line l n t)).trans ht) fun _ _ _ h => h

theorem releaseFor_circuits (who : Claimant) (l : Letter) (s : Station) : (releaseFor who l s).circuits = s.circuits :=
  releaseFor_keeps (P := fun t => t.circuits = s.circuits) (fun l r t ht => (putBearer_frame l r t).2.1.trans ht)
    (fun l _ _ ht => by cases l <;> exact ht) (fun _ _ ht => ht)
    (fun l n t ht => by unfold notify; split <;> exact ht) rfl

/-! ### The origin's CLEAR at a carrier context (R87, R95) -/

theorem originCleared_circuits (k : Carrier) (s : Station) : (originCleared k s).circuits = s.circuits := by
  unfold originCleared
  split
  · rfl
  · exact releaseFor_circuits _ _ s

theorem takeOriginClear_circuits (a : Nat) (t : Tag) (s : Station) : (takeOriginClear a t s).circuits = s.circuits := by
  unfold takeOriginClear
  split
  · split
    · exact originCleared_circuits _ s
    · rfl
  · rfl

theorem originCleared_effect {k : Carrier} {s : Station} (hk : k.phase ≠ .ending) :
    (∀ q ∈ (originCleared k s).call.carriers, q.tag = k.tag → q.phase = .ending ∧ q.schedule = none) ∧
      (∀ b ∈ (originCleared k s).audio, b.owner ≠ .carrier k.tag) ∧ s.Reflects (originCleared k s) := by
  unfold originCleared
  rw [if_neg hk]
  refine ⟨closeCarrier_ends _ _, fun b hb => ?_, Station.Reflects.trans (.of_line rfl) (releaseFor_reflects _ _ s)⟩
  exact bne_iff_ne.mp (List.mem_filter.mp hb).2

/-! ### The far end of the own call (R106) -/

/-- The origin context is in ENDING, and no bearer is held or released for it. -/
def Station.Unheld (s : Station) : Prop :=
  ∃ p, s.call.origin = some p ∧ p.phase = .ending ∧ p.carrier.ownBearer = none ∧ p.releasing = none

theorem Station.Unheld.of_desk {s t : Station} (h : s.Unheld) (hd : t.desk = s.desk) : t.Unheld := by
  obtain ⟨p, hp, hrest⟩ := h
  exact ⟨p, by rw [desk_call_eq hd, hp], hrest⟩

theorem enterEnding_unheld {s : Station} {o : Origin} (ho : s.call.origin = some o) (hb : o.carrier.ownBearer = none)
    (hr : o.releasing = none) : (enterEnding s).Unheld := by
  have hupd : ∀ f : Origin → Origin, (f o).phase = .ending → (f o).carrier.ownBearer = none → (f o).releasing = none →
      (removeBridges (.origin o.tag) (updOrigin f s)).Unheld :=
    fun f hphase hbearer hreleasing => ⟨f o, updOrigin_some ho f, hphase, hbearer, hreleasing⟩
  have hcarrier : ∀ r : CarrierRef, r = o.carrier → r.ownBearer = none := fun r e => e ▸ hb
  unfold enterEnding
  rw [ho]
  dsimp only
  split
  · refine Station.Unheld.of_desk (hupd _ rfl ?_ hr) (removeUnbegun_desk _ _)
    dsimp only
    cases hcar : o.carrier
    case own l => exact nomatch hcarrier _ hcar.symm
    all_goals rfl
  · refine hupd _ rfl ?_ hr
    dsimp only
    cases hcar : o.carrier
    case own l => exact nomatch hcarrier _ hcar.symm
    all_goals rfl

theorem Station.Unheld.releaseCircuit {s : Station} (h : s.Unheld) (r : ClearReason) (d : Nat) :
    (releaseCircuit r d s).Unheld := by
  obtain ⟨p, hp, hrest⟩ := h
  rcases releaseCircuit_desk r d s with hd | hd
  · exact Station.Unheld.of_desk ⟨p, hp, hrest⟩ hd
  · have hcall := congrArg (fun k : Desk => k.call.origin) hd
    change _ = s.call.origin.map _ at hcall
    rw [hp] at hcall
    exact ⟨_, hcall, hrest⟩

theorem tryEnd_unheld {s : Station} (h : s.Unheld) :
    (tryEnd s).call.origin = none ∧ .originEnded ∈ (tryEnd s).work := by
  obtain ⟨p, hp, hphase, hbearer, hreleasing⟩ := h
  unfold tryEnd
  rw [hp]
  dsimp only
  rw [if_pos ⟨hphase, hbearer, hreleasing⟩]
  exact ⟨congrArg Call.origin (desk_call_eq (removeUnbegun_desk _ _)), List.mem_append_right _ (List.mem_singleton.mpr rfl)⟩

theorem farEndEnds_effect {s : Station} {o : Origin} (ho : s.call.origin = some o) (hb : o.carrier.ownBearer = none)
    (hr : o.releasing = none) :
    (farEndEnds s).call.origin = none ∧ .originEnded ∈ (farEndEnds s).work ∧ (farEndEnds s).panel.tone = .none ∧
      (farEndEnds s).panel.lamp = .off := by
  have hunheld := (enterEnding_unheld ho hb hr).releaseCircuit .farEnd 63
  unfold farEndEnds
  dsimp only
  generalize releaseCircuit .farEnd 63 (enterEnding s) = w at hunheld
  have hshown : (showEnded w).Unheld := by
    obtain ⟨p, hp, hrest⟩ := hunheld
    exact ⟨p, (congrArg Call.origin (endFailed_call w)).trans hp, hrest⟩
  obtain ⟨hnone, hended⟩ := tryEnd_unheld hshown
  rw [tryEnd_panel]
  exact ⟨hnone, hended, rfl, rfl⟩

/-! ### The frame at its owners (R24, R87, R92) -/

theorem takeClearIntoView_frame (a n : Nat) (t : Tag) (s : Station) :
    (takeClearIntoView a n t s).call = s.call ∧ (takeClearIntoView a n t s).audio = s.audio ∧
      (takeClearIntoView a n t s).line = s.line ∧ (takeClearIntoView a n t s).keep = s.keep := by
  have hset : ∀ (c : Circuit), (setEntry c .free s).call = s.call ∧ (setEntry c .free s).audio = s.audio ∧
      (setEntry c .free s).line = s.line ∧ (setEntry c .free s).keep = s.keep := by
    intro c
    unfold setEntry
    dsimp only
    split <;> exact ⟨rfl, rfl, rfl, rfl⟩
  unfold takeClearIntoView
  split
  · split
    · exact ⟨rfl, rfl, rfl, rfl⟩
    · split
      · exact hset _
      · exact ⟨rfl, rfl, rfl, rfl⟩
  · exact ⟨rfl, rfl, rfl, rfl⟩

theorem takeClearIntoView_frees {a : Nat} {c : Circuit} {t : Tag} {s : Station} (hpeer : s.isPeer a = true)
    (h : (s.entry c).holding = some (a, t)) : takeClearIntoView a (circuitNumber c) t s = setEntry c .free s := by
  unfold takeClearIntoView
  rw [if_pos hpeer, circuitOf_circuitNumber]
  dsimp only
  rw [if_pos h]

theorem isPeer_ne_own {s : Station} {a : Nat} (h : s.isPeer a = true) : s.isOwn a = false := by
  simp [Station.isPeer] at h
  exact h.2

section
variable {f : RxFrame} {b : ClearBody} {s v : Station}

/-- A CLEAR of a call of this station, addressed to it. -/
theorem takeClearFrame_own (hv : takeClearIntoView f.source.toNat b.circuit b.tag s = v)
    (hdest : v.isOwn f.dest.toNat = true) (hown : v.isOwn b.tag.origin = true) :
    takeClearFrame f b s = takeCarrierClear f.source.toNat b.tag b.reason v := by
  unfold takeClearFrame whenAddressed
  dsimp only
  rw [hv, if_pos hdest, if_pos hown]

/-- A CLEAR of a peer's call, addressed to this station. -/
theorem takeClearFrame_peer (hv : takeClearIntoView f.source.toNat b.circuit b.tag s = v)
    (hdest : v.isOwn f.dest.toNat = true) (hown : v.isOwn b.tag.origin = false) :
    takeClearFrame f b s = takeOriginClear f.source.toNat b.tag v := by
  unfold takeClearFrame whenAddressed
  dsimp only
  rw [hv, if_pos hdest, if_neg (by rw [hown]; decide)]

theorem takeClearFrame_other (hv : takeClearIntoView f.source.toNat b.circuit b.tag s = v)
    (hdest : v.isOwn f.dest.toNat = false) : takeClearFrame f b s = v := by
  unfold takeClearFrame whenAddressed
  dsimp only
  rw [hv, if_neg (by rw [hdest]; decide)]

end

/-- Settles O47: a CLEAR frees its circuit, and ends the carrier context or the own call that it is for. -/
theorem clearFreesAndEnds : Obligations.ClearFreesAndEnds := by
  intro f tag n reason s h hb kept
  have hrun : exec (.clear f) s =
      .next { s with station := finish (takeClearFrame f ⟨tag, n, reason⟩ (heardFrom f.source.toNat s.station)) } := by
    change execClear f s = _
    unfold execClear
    rw [takeEvent_running h.1.1, receive_heard h hb]
  have hkept : (finish (takeClearFrame f ⟨tag, n, reason⟩ (heardFrom f.source.toNat s.station))).kept = kept :=
    finish_kept_of ((takeClearFrame_kept _ _ _).trans (heardFrom_kept _ _)) (awake_opState h.1) (awake_waitingEntry h.1)
  have hpeer : s.station.isPeer f.source.toNat = true := isPeer_of_hears h
  generalize hv : takeClearIntoView f.source.toNat n tag (heardFrom f.source.toNat s.station) = v
  have hframe := takeClearIntoView_frame f.source.toNat n tag (heardFrom f.source.toNat s.station)
  rw [hv, heardFrom_call, heardFrom_keep] at hframe
  obtain ⟨hcall, -, hline, hkeep⟩ := hframe
  have hisOwn : ∀ x, v.isOwn x = s.station.isOwn x := by
    intro x
    unfold Station.isOwn Station.config
    rw [hkeep]
  refine ⟨fun c hn hheld hown => ⟨_, hrun, ?_⟩, fun k hdest htag hk hphase => ⟨_, hrun, ?_⟩,
    fun o hdest hown ho htag hphase hlender hrel hreason => ⟨_, hrun, ?_⟩⟩
  · have hset : v = setEntry c .free (heardFrom f.source.toNat s.station) := by
      rw [← hv, hn]
      refine takeClearIntoView_frees ?_ (by rw [heardFrom_entry]; exact hheld)
      unfold Station.isPeer
      rw [heardFrom_isOwn]
      exact hpeer
    have hcircuits : (takeClearFrame f ⟨tag, n, reason⟩ (heardFrom f.source.toNat s.station)).circuits = v.circuits := by
      by_cases hdest : v.isOwn f.dest.toNat = true
      · have htag := hown.resolve_left (by rw [← hisOwn, hdest]; decide)
        rw [takeClearFrame_peer (b := ⟨tag, n, reason⟩) hv hdest
          (by rw [hisOwn]; exact isPeer_ne_own (htag ▸ hpeer))]
        exact takeOriginClear_circuits _ _ v
      · rw [takeClearFrame_other (b := ⟨tag, n, reason⟩) hv (by rw [Bool.not_eq_true] at hdest; exact hdest)]
    obtain ⟨hfree, hothers⟩ := entries_of_setEntry (congrArg Circuits.view (hcircuits.trans (congrArg Station.circuits hset)))
    exact ⟨hfree, fun d hd => (hothers d hd).trans (heardFrom_entry _ d _), hkept⟩
  · have hkt : k.tag = tag := by simpa using List.find?_some hk
    have hgo : takeClearFrame f ⟨tag, n, reason⟩ (heardFrom f.source.toNat s.station) = originCleared k v := by
      rw [takeClearFrame_peer (b := ⟨tag, n, reason⟩) hv (by rw [hisOwn]; exact hdest)
        (by rw [hisOwn]; exact isPeer_ne_own (htag ▸ hpeer))]
      unfold takeOriginClear
      rw [if_pos htag, show v.carrier? tag = some k by unfold Station.carrier?; rw [hcall]; exact hk]
    obtain ⟨hended, hbridges, hreflects⟩ := originCleared_effect (s := v) hphase
    rw [hkt, ← hgo] at hended hbridges
    rw [← hgo] at hreflects
    refine ⟨hended, hbridges, fun c why dest hholds => ?_, hkept⟩
    have hbefore := hreflects _ _ rfl hholds
    rw [holdsFrame_of_line hline] at hbefore
    refine holdsFrame_of_frames (fun g hg => ?_) hbefore
    rw [heardFrom_line] at hg
    exact hg
  · have hgo : takeClearFrame f ⟨tag, n, reason⟩ (heardFrom f.source.toNat s.station) = farEndEnds (partnerHeard v) := by
      rw [takeClearFrame_own (b := ⟨tag, n, reason⟩) hv (by rw [hisOwn]; exact hdest) (by rw [hisOwn]; exact hown)]
      unfold takeCarrierClear
      rw [hcall, ho]
      dsimp only
      rw [if_pos ⟨htag, hlender⟩, show o.activity = .connected by simp [Origin.activity, hphase]]
      dsimp only
      rw [if_pos hreason]
    have hheard : (partnerHeard v).call.origin = some { o with lastPartner := some v.now } :=
      updOrigin_some (by rw [hcall]; exact ho) _
    have hbearer : o.carrier.ownBearer = none := by
      cases hcar : o.carrier with
      | own l => rw [hcar] at hlender; exact nomatch hlender
      | absent => rfl
      | asked l => rfl
      | lent l x => rfl
    obtain ⟨hnone, hended, htone, hlamp⟩ := farEndEnds_effect hheard hbearer hrel
    rw [← hgo] at hnone hended htone hlamp
    exact ⟨hnone, hended, htone, hlamp, hkept⟩

end Sys2Proof.Machine

/-! PROOFS. A peer's reports relayed (O48). -/

namespace Sys2Proof.Machine

/-! ### The relay queue (R138, R139) -/

theorem heardFrom_anyGrade (a : Nat) (s : Station) : (heardFrom a s).anyGrade = s.anyGrade := by
  unfold Station.anyGrade Station.fittedBearers Station.fitted Station.config
  rw [heardFrom_keep]
  simp only [heardFrom_bearer]

theorem heardFrom_isPeer (a b : Nat) (s : Station) : (heardFrom a s).isPeer b = s.isPeer b := by
  unfold Station.isPeer
  rw [heardFrom_isOwn]

theorem takesFrame_active {s : Station} (h : s.power.opState = .active) (b : TxBody) (d : Nat) :
    s.takesFrame b d = true := by
  unfold Station.takesFrame
  rw [h]

theorem heardFrom_active {s : Station} (h : s.power.opState = .active) (a : Nat) :
    (heardFrom a s).power.opState = .active := by
  rw [heardFrom_power]
  exact h

/-- A command whose one effect is a frame handed over to a peer that has been heard. -/
theorem finish_answer {a d : Nat} {b : TxBody} {s : Station} (hact : s.power.opState = .active)
    (hp : s.power.progress ≠ .waitingEntry) (hroom : s.line.total < 8) (hclaim : b.isClaim = false)
    (hann : b.isAnnounce = false) :
    (finish (handOver b d (heardFrom a s))).core = { s.core with directory := (refreshPeer a s).directory } ∧
      (finish (handOver b d (heardFrom a s))).holdsFrame b d = true := by
  have hlight := handOver_light d hclaim (heardFrom_light a s)
  have hprog : (handOver b d (heardFrom a s)).power.progress ≠ .waitingEntry := by
    rw [handOver_power, heardFrom_power]
    exact hp
  refine ⟨?_, finish_holds hann hlight hprog (handOver_holds (takesFrame_active (heardFrom_active hact a) _ _) ?_)⟩
  · rw [finish_core hlight hprog, handOver_core, heardFrom_core, heardFrom_directory]
  · rw [heardFrom_total]
    exact hroom

/-- A BORROW of kind REPORT from a peer, for a report that is not held. -/
theorem takeReportBorrow_new {a : Nat} {r : Record} {s : Station} (hact : s.power.opState = .active)
    (hpeer : s.isPeer a = true) (htag : r.tag.origin = a) (hnew : s.relay? r.tag = none) :
    takeReportBorrow a r s =
      if s.anyGrade = false then handOver (.declineReport r.tag .noBearer) a s
      else if s.reports.relay.length < 4 then
        post .decideRelay
          (handOver (.lendReport r.tag) a
            { s with
              reports.relay :=
                s.reports.relay ++
                  [{ record := r, state := .waiting, attempts := 0, rest := none, lifetime := some (s.within 110000)
                     expired := false }] })
      else handOver (.declineReport r.tag .queueFull) a s := by
  unfold takeReportBorrow
  rw [if_pos ⟨hact, hpeer, htag⟩, hnew, if_neg (by decide)]
  cases s.anyGrade <;> rfl

/-- While a relay entry is in flight no other is chosen (R139). -/
theorem decideRelay_busy {s : Station} (h : (s.reports.relay.any fun g => g.state == .inFlight) = true) :
    decideRelay s = s := by
  obtain ⟨g, hg, hfly⟩ := List.any_eq_true.mp h
  unfold decideRelay
  rw [if_neg]
  intro hall
  have hnot := List.all_eq_true.mp (Bool.and_eq_true _ _ ▸ hall).2 g hg
  rw [eq_of_beq hfly] at hnot
  exact absurd hnot (by decide)

theorem endRelay_effect {t : Tag} {done : Bool} {s : Station} (hact : s.power.opState = .active)
    (hroom : s.line.total < 8) :
    (endRelay t done s).reports.relay = s.reports.relay.filter (fun e => e.record.tag != t) ∧
      (endRelay t done s).bearers = s.bearers ∧ (endRelay t done s).holdsFrame (.reportResult t done) t.origin = true ∧
      .decideRelay ∈ (endRelay t done s).work := by
  have hcore := handOver_core (.reportResult t done) t.origin s
  refine ⟨?_, show (handOver (.reportResult t done) t.origin s).bearers = _ from core_bearers_eq hcore, ?_, List.mem_append_right _ (List.mem_singleton.mpr rfl)⟩
  · change (handOver (.reportResult t done) t.origin s).reports.relay.filter _ = _
    rw [show (handOver (.reportResult t done) t.origin s).reports.relay = s.reports.relay from
      congrArg StationCore.relay hcore]
  · refine (holdsFrame_of_line rfl _ _).trans (handOver_holds (takesFrame_active hact _ _) hroom)

/-- Settles O48: a peer's report is relayed, or declined; its rest and its lifetime end. -/
theorem peersReportsAreRelayed : Obligations.PeersReportsAreRelayed := by
  refine ⟨fun f r s h hdest hb htag hnew hroom => ?_, fun tag e d now s hs he hnow => ?_⟩
  · intro dir declines
    have hact : s.station.power.opState = .active := h.2.1
    have hroom8 : s.station.line.total < 8 := Nat.lt_succ_of_lt hroom
    have hrun : exec (.borrowReport f) s =
        .next { s with station := finish (takeReportBorrow f.source.toNat r (heardFrom f.source.toNat s.station)) } := by
      change execBorrowReport f s = _
      unfold execBorrowReport
      exact takeAddressed_heard h hdest hb
    have hnew' : (heardFrom f.source.toNat s.station).relay? r.tag = none := by
      unfold Station.relay?
      rw [heardFrom_reports]
      exact hnew
    rw [takeReportBorrow_new (by rw [heardFrom_power]; exact hact)
      (by rw [heardFrom_isPeer]; exact isPeer_of_hears h) htag hnew', heardFrom_anyGrade, heardFrom_reports] at hrun
    refine ⟨fun hg => ?_, fun hg hlen => ?_, fun hg hlen => ?_⟩
    · rw [if_pos hg] at hrun
      obtain ⟨hcore, hholds⟩ := finish_answer (a := f.source.toNat) (d := f.source.toNat)
        (b := .declineReport r.tag .noBearer) hact h.1.2.2 hroom8 rfl rfl
      exact ⟨_, hrun, hcore, hholds⟩
    · rw [if_neg (by rw [hg]; decide), if_neg (Nat.not_lt.mpr hlen)] at hrun
      obtain ⟨hcore, hholds⟩ := finish_answer (a := f.source.toNat) (d := f.source.toNat)
        (b := .declineReport r.tag .queueFull) hact h.1.2.2 hroom8 rfl rfl
      exact ⟨_, hrun, hcore, hholds⟩
    · rw [if_neg (by rw [hg]; decide), if_pos hlen] at hrun
      refine ⟨_, hrun, ?_, ?_, List.mem_append_right _ (List.mem_singleton.mpr rfl), finish_kept_of ?_ (awake_opState h.1)
        (awake_waitingEntry h.1)⟩
      · exact (congrArg StationCore.relay (handOver_core _ _ _)).trans (by rw [heardFrom_within]; rfl)
      · refine (holdsFrame_of_line rfl _ _).trans (handOver_holds (takesFrame_active ?_ _ _) ?_)
        · exact (heardFrom_active hact f.source.toNat :)
        · change (heardFrom f.source.toNat s.station).line.total < 8
          rw [heardFrom_total]
          exact hroom8
      · exact (post_kept _ _).trans ((handOver_kept _ _ _).trans (heardFrom_kept f.source.toNat s.station))
  · intro changed
    have hat : (atMoment now s.station).relay? tag = some e := he
    refine ⟨fun hd hbusy => ?_, fun hd hfly hclaim => ?_, fun hd hwait hact hroom => ?_⟩
    · have hrun : exec (.relayRestTimerExpiry tag) s = .next { s with station := finish (decideRelay
          (updRelay tag (fun e => { e with state := .waiting, rest := none }) (atMoment now s.station))) } := by
        change execRelayRestTimerExpiry tag s = _
        unfold execRelayRestTimerExpiry
        rw [takeExpiry_running (d := d) hs.1 (by rw [show (freshOut s.station).relay? tag = some e from he]; exact hd), ← hnow]
      have hstill : ((updRelay tag (fun e => { e with state := .waiting, rest := none })
          (atMoment now s.station)).reports.relay.any fun g => g.state == .inFlight) = true := by
        obtain ⟨g, hg, hfly⟩ := List.any_eq_true.mp hbusy
        obtain ⟨hstate, htag⟩ := Bool.and_eq_true _ _ ▸ hfly
        refine List.any_eq_true.mpr ⟨g, List.mem_map.mpr ⟨g, hg, ?_⟩, hstate⟩
        rw [if_neg (bne_iff_ne.mp htag)]
      rw [decideRelay_busy hstill] at hrun
      exact ⟨_, hrun, finish_core (atMoment_light now s.station) hs.2.2⟩
    · have hrun : exec (.relayLifetimeExpiry tag) s = .next { s with station := finish (updRelay tag
          (fun e => { e with lifetime := none, expired := true }) (atMoment now s.station)) } := by
        change execRelayLifetimeExpiry tag s = _
        unfold execRelayLifetimeExpiry
        rw [takeExpiry_running (d := d) hs.1 (by rw [show (freshOut s.station).relay? tag = some e from he]; exact hd), ← hnow]
        unfold relayExpired
        rw [hat]
        dsimp only
        rw [if_pos ⟨hfly, by rw [show (atMoment now s.station).claimWaits (.relay tag) = false from hclaim]; rfl⟩]
      exact ⟨_, hrun, finish_core (atMoment_light now s.station) hs.2.2⟩
    · have hrun : exec (.relayLifetimeExpiry tag) s = .next { s with station := finish (endRelay tag false
          (withdrawClaim (.relay tag) (atMoment now s.station))) } := by
        change execRelayLifetimeExpiry tag s = _
        unfold execRelayLifetimeExpiry
        rw [takeExpiry_running (d := d) hs.1 (by rw [show (freshOut s.station).relay? tag = some e from he]; exact hd), ← hnow]
        unfold relayExpired
        rw [hat]
        dsimp only
        rw [if_neg]
        rintro ⟨hfly, hno⟩
        rw [Bool.not_eq_true'] at hno
        rcases hwait with hw | hw
        · exact hw hfly
        · exact absurd (hno.symm.trans hw) (by decide)
      obtain ⟨hrelay, hbearers, hholds, hdecide⟩ := endRelay_effect (t := tag) (done := false)
        (s := withdrawClaim (.relay tag) (atMoment now s.station)) hact (Nat.lt_succ_of_lt hroom)
      refine ⟨_, hrun, hrelay, ?_, hholds, hdecide, finish_kept_of ?_ (awake_opState hs) (awake_waitingEntry hs)⟩
      · rw [hbearers]
        rfl
      · exact (post_kept _ _).trans (handOver_kept _ _ _)

end Sys2Proof.Machine

/-! PROOFS. Lenders asked for a report (O49): the entries of the report queue, the next lender asked, and delivery as the
stall check decides it. -/

namespace Sys2Proof.Machine

/-! ### The entries of the report queue (R134) -/

/-- A changed entry is found under its tag. -/
theorem report?_updReport {f : ReportEntry → ReportEntry} (hf : ∀ e, (f e).record = e.record) (t u : Tag) (s : Station) :
    (updReport t f s).report? u = (s.report? u).map fun e => if e.record.tag = t then f e else e := by
  unfold Station.report? updReport
  rw [List.find?_map]
  congr 1
  refine congrArg (fun p => List.find? p _) (funext fun e => ?_)
  change ((if e.record.tag = t then f e else e).record.tag == u) = (e.record.tag == u)
  split
  · rw [hf]
  · rfl

theorem report?_tag {t : Tag} {e : ReportEntry} {s : Station} (h : s.report? t = some e) : e.record.tag = t :=
  eq_of_beq (List.find?_some (p := fun e : ReportEntry => e.record.tag == t) h)

/-- Two changes of the entry of one tag are one. -/
theorem updReport_updReport {f g : ReportEntry → ReportEntry} (hf : ∀ e, (f e).record = e.record) (t : Tag) (s : Station) :
    updReport t g (updReport t f s) = updReport t (fun e => g (f e)) s := by
  unfold updReport
  dsimp only
  rw [List.map_map]
  congr 2
  refine List.map_congr_left fun e _ => ?_
  dsimp only [Function.comp_apply]
  by_cases h : e.record.tag = t
  · rw [if_pos h, if_pos (by rw [hf]; exact h), if_pos h]
  · rw [if_neg h, if_neg h, if_neg h]

theorem report?_of_core {s t : Station} (h : t.core = s.core) (u : Tag) : t.report? u = s.report? u := by
  unfold Station.report?
  rw [show t.reports.queue = s.reports.queue from congrArg StationCore.queue h]

/-- The entry of a tag, changed. -/
theorem report?_updReport_same {f : ReportEntry → ReportEntry} (hf : ∀ e, (f e).record = e.record) {t : Tag}
    {e : ReportEntry} {s : Station} (h : s.report? t = some e) : (updReport t f s).report? t = some (f e) := by
  rw [report?_updReport hf, h]
  exact congrArg some (if_pos (report?_tag h))

/-! ### The next lender asked (R136) -/

/-- The entry with another declined list. -/
def ReportEntry.declines (declined : List Nat → List Nat) (e : ReportEntry) : ReportEntry :=
  { e with declined := declined e.declined }

/-- The entry while a lender is asked. -/
def Station.asksLender (s : Station) (m : Nat) (e : ReportEntry) : ReportEntry :=
  { e with state := .inFlight, route := .asking m, timer := some (s.within s.answerMs) }

theorem askReportLender_found {t : Tag} {e : ReportEntry} {m : Nat} {s : Station} (h : s.report? t = some e) :
    askReportLender t m s = handOver (.borrowReport e.record) m (updReport t (s.asksLender m) s) := by
  unfold askReportLender
  rw [h]
  rfl

/-- The end of a command after which a lender has been asked for a report. -/
theorem finish_askReportLender {t : Tag} {e : ReportEntry} {m : Nat} {s : Station} (hlight : s.light)
    (hact : s.power.opState = .active) (hp : s.power.progress ≠ .waitingEntry) (hroom : s.line.total < 8)
    (he : s.report? t = some e) :
    (finish (askReportLender t m s)).core = (updReport t (s.asksLender m) s).core ∧
      (finish (askReportLender t m s)).holdsFrame (.borrowReport e.record) m = true := by
  rw [askReportLender_found he]
  have hl := handOver_light (b := .borrowReport e.record) (s := updReport t (s.asksLender m) s) m rfl hlight
  have hprog : (handOver (.borrowReport e.record) m (updReport t (s.asksLender m) s)).power.progress ≠ .waitingEntry := by
    rw [handOver_power]
    exact hp
  exact ⟨(finish_core hl hprog).trans (handOver_core _ _ _),
    finish_holds rfl hl hprog (handOver_holds (takesFrame_active (s := updReport _ _ _) hact _ _) hroom)⟩

/-- The declined list with a lender (R136). -/
def declinedWith (l : Nat) (x : List Nat) : List Nat := if x.contains l then x else x ++ [l]

/-- A lender that joins the declined list gives way to the first of the ranking. -/
theorem askNext_asks {t : Tag} {e : ReportEntry} {l m : Nat} {rest : List Nat} {s : Station} (he : s.report? t = some e)
    (hlen : (declinedWith l e.declined).length < 4) (hr : s.ranking (declinedWith l e.declined) = m :: rest) :
    askNext t l s = askReportLender t m (updReport t (ReportEntry.declines (declinedWith l)) s) := by
  have hfound := report?_updReport_same (f := ReportEntry.declines (declinedWith l)) (fun _ => rfl) he
  have hrank : (updReport t (ReportEntry.declines (declinedWith l)) s).ranking (declinedWith l e.declined) = m :: rest := hr
  unfold askNext
  generalize hw : updReport t _ s = w
  have hw' : updReport t (ReportEntry.declines (declinedWith l)) s = w := hw
  rw [hw'] at hfound hrank ⊢
  dsimp only
  rw [hfound]
  dsimp only [ReportEntry.declines]
  rw [hrank]
  exact if_pos hlen

/-- What is left of the entry of a tag when it has another declined list and its next lender is asked. -/
theorem asked_core {t : Tag} {declined : List Nat → List Nat} {m : Nat} {s : Station} :
    (updReport t ((updReport t (ReportEntry.declines declined) s).asksLender m)
        (updReport t (ReportEntry.declines declined) s)).core =
      { s.core with
        queue :=
          s.reports.queue.map fun g =>
            if g.record.tag = t then
              { g with
                declined := declined g.declined, state := .inFlight, route := .asking m
                timer := some (s.within s.answerMs) }
            else g } := by
  rw [updReport_updReport (f := ReportEntry.declines declined) (fun _ => rfl)]
  rfl

/-! ### The LOCAL route (R53, R135) -/

theorem announceCause_out (b : Bool) (s : Station) : (announceCause b s).out = s.out := by
  unfold announceCause mergeAnnounce
  split
  · split
    · rfl
    · rfl
    all_goals
      split
      · dsimp only
        split <;> rfl
      · unfold handOver addFrame
        dsimp only
        repeat' split
        all_goals simp_all [TxBody.urgent, reportDrop]
  · rfl

theorem putBearer_out (l : Letter) (r : Bearer) (s : Station) : (putBearer l r s).out = s.out := by
  unfold putBearer
  dsimp only
  generalize hu : (if (s.bearer l).state == .inCall && r.state != .inCall then removeBearerBridges l s else s) = u
  have hset : (setBearer l r u).out = s.out := by
    rw [setBearer_out, ← hu]
    split <;> rfl
  have hann : (announceCause false (setBearer l r u)).out = s.out := (announceCause_out _ _).trans hset
  split <;> split
  · exact hann
  · exact hset
  · exact hann
  · exact hset

/-- A report claim granted: SEND_REPORT goes out on the bearer. -/
theorem grantReport_sends {l : Letter} {who : Claimant} {r : Record} {s : Station} (h : s.config.destination ≠ []) :
    ((grantReport l who r s).bearer l).state = .sending ∧
      ((grantReport l who r s).bearer l).inFlight = some ⟨.sendReport, some (s.within 30000)⟩ ∧
      ((grantReport l who r s).bearer l).alloc = some (voiceAllocation who false) ∧
      .port l (sendReportMessage r s.config.destination) ∈ (grantReport l who r s).out := by
  unfold grantReport
  dsimp only
  rw [if_neg (by simpa using h), putBearer_bearer, putBearer_out]
  exact ⟨rfl, rfl, rfl, List.mem_append_right _ (List.mem_singleton.mpr rfl)⟩

theorem mem_notify_work {t : Task} {l : Letter} {n : Notice} {s : Station} (h : t ∈ s.work) : t ∈ (notify l n s).work := by
  unfold notify
  split
  · exact List.mem_append_left _ h
  · exact h

theorem mem_leaveReserved_work {t : Task} {l : Letter} {s : Station} (h : t ∈ s.work) : t ∈ (leaveReserved l s).work := by
  unfold leaveReserved goChecking goAvailable sendCommand
  dsimp only
  split
  · exact (putBearer_frame _ _ _).2.2 _ (mem_notify_work h)
  · exact (putBearer_frame _ _ _).2.2 _ (mem_notify_work h)

/-- A report claim granted while no destination is configured fails at once. -/
theorem grantReport_fails {l : Letter} {who : Claimant} {r : Record} {s : Station} (h : s.config.destination = []) :
    .notice who l .reportFailed ∈ (grantReport l who r s).work := by
  unfold grantReport
  dsimp only
  rw [if_pos (by rw [h]; rfl)]
  exact mem_leaveReserved_work (notify_work (a := voiceAllocation who false) (congrArg Bearer.alloc (putBearer_bearer l _ s)))

@[simp] theorem grantReport_desk (l : Letter) (who : Claimant) (r : Record) (s : Station) :
    (grantReport l who r s).desk = s.desk := by
  unfold grantReport
  dsimp only
  split
  · rw [leaveReserved_desk, notify_desk, putBearer_desk]
  · exact putBearer_desk _ _ _

theorem claimReport_grants {l : Letter} {who : Claimant} {r : Record} {s : Station}
    (h : s.bestBearer (fun r => r.state == .available) = some l) : claimReport who r s = grantReport l who r s := by
  unfold claimReport
  rw [h]

theorem claimReport_waits {who : Claimant} {r : Record} {s : Station}
    (h : s.bestBearer (fun r => r.state == .available) = none) :
    claimReport who r s = { s with bearers.waiting := s.bearers.waiting ++ [⟨who, r⟩] } := by
  unfold claimReport
  rw [h]

@[simp] theorem claimReport_desk (who : Claimant) (r : Record) (s : Station) : (claimReport who r s).desk = s.desk := by
  unfold claimReport
  split
  · exact grantReport_desk _ _ _ s
  · rfl

/-- The entry in flight on the own bearer. -/
def ReportEntry.flies (e : ReportEntry) : ReportEntry := { e with state := .inFlight, route := .ownBearer, timer := none }

/-- Delivery decided while nothing is in flight and an own bearer has a grade: the first waiting entry claims it. -/
theorem decideReports_claims {e : ReportEntry} {s : Station} (hserve : s.inService = true) (hfly : s.flying = none)
    (hfirst : (s.reports.queue.find? fun g => g.state == .waiting) = some e) (hgrade : s.anyGrade = true) :
    decideReports s =
      claimReport (.report e.record.tag) e.record (updReport e.record.tag ReportEntry.flies s) := by
  unfold decideReports
  rw [show retestClaim s = s by unfold retestClaim; rw [hfly]]
  unfold offerNext
  rw [if_pos (by rw [hserve, hfly]; rfl), hfirst]
  dsimp only
  unfold offerEntry
  rw [if_pos hgrade]
  rfl

/-- Delivery decided while nothing is in flight and no own bearer has a grade: the first lender is asked. -/
theorem decideReports_asks {e : ReportEntry} {m : Nat} {rest : List Nat} {s : Station} (hact : s.power.opState = .active)
    (hfly : s.flying = none) (hfirst : (s.reports.queue.find? fun g => g.state == .waiting) = some e)
    (hgrade : s.anyGrade = false) (hr : s.ranking e.declined = m :: rest) :
    decideReports s = askReportLender e.record.tag m s := by
  unfold decideReports
  rw [show retestClaim s = s by unfold retestClaim; rw [hfly]]
  unfold offerNext
  rw [if_pos (by unfold Station.inService; rw [hact, hfly]; rfl), hfirst]
  dsimp only
  unfold offerEntry
  rw [if_neg (by rw [hgrade]; decide), if_pos hact, hr]

theorem updReport_core (t : Tag) (f : ReportEntry → ReportEntry) (s : Station) :
    (updReport t f s).core =
      { s.core with queue := s.reports.queue.map fun e => if e.record.tag = t then f e else e } := rfl

theorem finish_updReport {t : Tag} {f : ReportEntry → ReportEntry} {s : Station} (hlight : s.light)
    (hp : s.power.progress ≠ .waitingEntry) :
    (finish (updReport t f s)).core =
      { s.core with queue := s.reports.queue.map fun e => if e.record.tag = t then f e else e } :=
  (finish_core (s := updReport t f s) hlight hp).trans (updReport_core t f s)

theorem heardFrom_report? (a : Nat) (t : Tag) (s : Station) : (heardFrom a s).report? t = s.report? t := by
  unfold Station.report?
  rw [heardFrom_reports]

theorem heardFrom_answerMs (a : Nat) (s : Station) : (heardFrom a s).answerMs = s.answerMs := by
  unfold Station.answerMs Station.config
  rw [heardFrom_keep]

/-- A LEND from the lender asked: its result is awaited for 120 s (R136). -/
theorem reportLent_asked {t : Tag} {e : ReportEntry} {a : Nat} {s : Station} (h : s.report? t = some e)
    (hr : e.route = .asking a) :
    reportLent a t s =
      updReport t (fun e => { e with route := .relayed a, timer := some (s.within 120000) }) s := by
  unfold reportLent
  rw [h]
  exact if_pos hr

theorem reportDeclined_asked {t : Tag} {e : ReportEntry} {a : Nat} {s : Station} (h : s.report? t = some e)
    (hr : e.route = .asking a) : reportDeclined a t s = askNext t a s := by
  unfold reportDeclined
  rw [h]
  exact if_pos hr

/-- The end of a command in which a lender joins the declined list and the next is asked. -/
theorem finish_askNext {t : Tag} {e : ReportEntry} {l m : Nat} {rest : List Nat} {s : Station} (hlight : s.light)
    (hact : s.power.opState = .active) (hp : s.power.progress ≠ .waitingEntry) (hroom : s.line.total < 8)
    (he : s.report? t = some e) (hlen : (declinedWith l e.declined).length < 4)
    (hr : s.ranking (declinedWith l e.declined) = m :: rest) :
    (finish (askNext t l s)).core =
        { s.core with
          queue :=
            s.reports.queue.map fun g =>
              if g.record.tag = t then
                { g with
                  declined := declinedWith l g.declined, state := .inFlight, route := .asking m
                  timer := some (s.within s.answerMs) }
              else g } ∧
      (finish (askNext t l s)).holdsFrame (.borrowReport e.record) m = true := by
  rw [askNext_asks he hlen hr]
  obtain ⟨hcore, hholds⟩ := finish_askReportLender (m := m)
    (s := updReport t (ReportEntry.declines (declinedWith l)) s) hlight hact hp hroom
    (report?_updReport_same (f := ReportEntry.declines (declinedWith l)) (fun _ => rfl) he)
  exact ⟨hcore.trans asked_core, hholds⟩

theorem flightTimer_of_flying {test : Route → Bool} {e : ReportEntry} {s : Station} (h : s.flying = some e)
    (ht : test e.route = true) : Station.flightTimer test s = e.timer := by
  unfold Station.flightTimer
  rw [h]
  exact if_pos ht

/-- The station as the stall check finds it: the check has run. -/
def stallChecked (now : Stamp) (s : Station) : Station := { atMoment now s with reports.stall := none }

/-- An entry offered on the LOCAL route at the stall check. -/
def offered (now : Stamp) (e : ReportEntry) (s : Station) : Station :=
  updReport e.record.tag ReportEntry.flies (stallChecked now s)

theorem stallCheck_runs {d now : Stamp} {s : State} (hs : s.station.Awake) (hstall : s.station.reports.stall = some d)
    (hnow : now = Stamp.moment s.station.now d) :
    exec .stallCheckExpiry s = .next { s with station := finish (decideReports (stallChecked now s.station)) } := by
  change execStallCheckExpiry s = _
  unfold execStallCheckExpiry
  rw [takeExpiry_running (d := d) hs.1 hstall, ← hnow]
  rfl

/-- Settles O49: lenders lend, decline or do not answer, and delivery is decided at the stall check. -/
theorem reportLendersAreAsked : Obligations.ReportLendersAreAsked := by
  refine ⟨fun f tag e s h hdest hb he hroute => ?_, fun e m rest s hs hact hroom he => ?_,
    fun e d now s hs hserve hstall hnow hfly hfirst hgrade => ?_⟩
  · have hrun : exec (.lendReport f) s = .next { s with station := finish (reportLent f.source.toNat tag
        (heardFrom f.source.toNat s.station)) } := by
      change execLendReport f s = _
      unfold execLendReport
      exact takeAddressed_heard h hdest hb
    rw [reportLent_asked ((heardFrom_report? _ _ _).trans he) hroute, heardFrom_within] at hrun
    refine ⟨_, hrun, (finish_updReport (heardFrom_light _ _) (by rw [heardFrom_power]; exact h.1.2.2)).trans ?_⟩
    rw [heardFrom_core, heardFrom_directory, heardFrom_reports]
  · intro asks
    have hroom8 : s.station.line.total < 8 := Nat.lt_succ_of_lt hroom
    refine ⟨fun l => ?_, fun d now hstall hnow hfly hfirst hgrade hrank => ?_⟩
    · intro add hroute hlen hrank
      refine ⟨fun f h hdest hb hl => ?_, fun d now hfly htimer hnow => ?_⟩
      · subst hl
        have hrun : exec (.declineReport f) s = .next { s with station := finish (reportDeclined f.source.toNat e.record.tag
            (heardFrom f.source.toNat s.station)) } := by
          change execDeclineReport f s = _
          unfold execDeclineReport
          exact takeAddressed_heard h hdest hb
        have hfound := (heardFrom_report? f.source.toNat e.record.tag s.station).trans he
        rw [reportDeclined_asked hfound hroute] at hrun
        obtain ⟨hcore, hholds⟩ := finish_askNext (heardFrom_light f.source.toNat s.station) (heardFrom_active hact _)
          (by rw [heardFrom_power]; exact hs.2.2) (by rw [heardFrom_total]; exact hroom8) hfound hlen
          (by rw [heardFrom_ranking]; exact hrank)
        refine ⟨_, hrun, hcore.trans ?_, hholds⟩
        rw [heardFrom_core, heardFrom_directory, heardFrom_reports, heardFrom_within, heardFrom_answerMs]
        rfl
      · have hrun : exec .reportAnswerTimerExpiry s =
            .next { s with station := finish (askNext e.record.tag l (atMoment now s.station)) } := by
          change execReportAnswerTimerExpiry s = _
          unfold execReportAnswerTimerExpiry
          rw [takeExpiry_running (d := d) hs.1, ← hnow]
          · rw [show (atMoment now s.station).flying = some e from hfly]
            dsimp only
            rw [hroute]
            rfl
          · exact (flightTimer_of_flying (s := freshOut s.station) hfly (by rw [hroute]; rfl)).trans htimer
        obtain ⟨hcore, hholds⟩ := finish_askNext (t := e.record.tag) (atMoment_light now s.station) hact hs.2.2 hroom8 he hlen
          hrank
        exact ⟨_, hrun, hcore, hholds⟩
    · have hrun := stallCheck_runs hs hstall hnow
      rw [decideReports_asks (s := stallChecked now s.station) hact hfly hfirst hgrade hrank] at hrun
      obtain ⟨hcore, hholds⟩ := finish_askReportLender (m := m) (s := stallChecked now s.station)
        (atMoment_light now s.station) hact hs.2.2 hroom8 he
      exact ⟨_, hrun, hcore, hholds⟩
  · intro who free offers
    have hrun := stallCheck_runs hs hstall hnow
    rw [decideReports_claims (s := stallChecked now s.station) hserve hfly hfirst hgrade] at hrun
    have hoffers : ∀ {also : Station → Prop}, also (claimReport who e.record (offered now e s.station)) → offers also := by
      refine fun halso => ⟨_, hrun, ?_, halso⟩
      exact desk_queue_eq (claimReport_desk _ _ _)
    refine ⟨fun l hl hbest => ?_, fun hnone => hoffers ?_⟩
    · have hclaim : claimReport who e.record (offered now e s.station) =
          grantReport l who e.record (offered now e s.station) := by
        refine claimReport_grants ?_
        refine bestBearer_of_best (s := offered now e s.station) hl.1 ?_ fun m hm hfree => hbest m ⟨hm, eq_of_beq hfree⟩
        exact beq_iff_eq.mpr hl.2
      refine ⟨fun hdest => hoffers ?_, fun hdest => hoffers ?_⟩
      · rw [hclaim]
        exact grantReport_sends (s := offered now e s.station) hdest
      · rw [hclaim]
        exact grantReport_fails (s := offered now e s.station) hdest
    · refine congrArg Station.bearers (claimReport_waits (s := offered now e s.station) (bestBearer_eq_none fun l hf => ?_))
      rw [beq_eq_false_iff_ne]
      exact fun hav => hnone l ⟨hf, hav⟩

end Sys2Proof.Machine

/-! PROOFS. How an attempt to deliver a report ends (O50): the returning entry alone of its kind, the attempt failed, the
entry delivered, the notices of the own bearer and the rest. -/

namespace Sys2Proof.Machine

/-! ### A returning entry alone of its kind (R137) -/

/-- No other waiting entry is of the kind of an entry. -/
def Station.alone (t : Tag) (e : ReportEntry) (s : Station) : Prop :=
  (s.reports.queue.find? fun g => g.waits && g.record.tag != t && g.record.kind == e.record.kind) = none

theorem mergeReturning_alone {t : Tag} {e : ReportEntry} {s : Station} (he : s.report? t = some e) (ha : s.alone t e) :
    mergeReturning t s = s := by
  unfold Station.alone at ha
  unfold mergeReturning
  simp only [he, ha]

/-- The own entry changed leaves it alone. -/
theorem alone_updReport {t : Tag} {e e' : ReportEntry} {f : ReportEntry → ReportEntry} {s : Station}
    (hf : ∀ e, (f e).record = e.record) (he : e'.record = e.record) (h : s.alone t e) : (updReport t f s).alone t e' := by
  refine List.find?_eq_none.mpr fun g hg hpass => ?_
  obtain ⟨g₀, hmem, hg₀⟩ := List.mem_map.mp (show g ∈ s.reports.queue.map _ from hg)
  have hno := List.find?_eq_none.mp h g₀ hmem
  split at hg₀
  · next htag =>
    subst hg₀
    rw [hf, htag] at hpass
    simp at hpass
  · subst hg₀
    rw [he] at hpass
    exact hno hpass

/-! ### The attempt failed (R137) -/

/-- The entry resting after a failed attempt. -/
def Station.rested (s : Station) (e : ReportEntry) : ReportEntry :=
  { e with
    attempts := e.attempts + 1, declined := [], route := .absent, state := .resting, timer := some (s.within 30000) }

/-- A failed attempt before the fifth. -/
theorem attemptFailed_rests {t : Tag} {e : ReportEntry} {s : Station} (he : s.report? t = some e)
    (hfew : e.attempts + 1 < 5) (ha : s.alone t e) :
    attemptFailed t s = post .decideReports (updReport t s.rested s) := by
  have hmerge : mergeReturning t (updReport t s.rested s) = updReport t s.rested s :=
    mergeReturning_alone (report?_updReport_same (f := s.rested) (fun _ => rfl) he)
      (alone_updReport (f := s.rested) (fun _ => rfl) rfl ha)
  unfold attemptFailed
  rw [he]
  dsimp only
  rw [if_neg (Nat.not_le.mpr hfew)]
  exact congrArg (post .decideReports) hmerge

/-- The fifth failed attempt. -/
theorem attemptFailed_drops {t : Tag} {e : ReportEntry} {s : Station} (he : s.report? t = some e)
    (hfive : 5 ≤ e.attempts + 1) :
    attemptFailed t s = post .decideReports (removeReport t (countDropped (raise .reportUndelivered s))) := by
  unfold attemptFailed
  rw [he]
  exact if_pos hfive

/-- A report counted as dropped: the count alone goes up, short of its maximum. -/
theorem countDropped_counts (s : Station) :
    ∃ n free, countDropped s = { s with keep.dropped := n, free := free } ∧
      (s.keep.dropped ≠ 4294967295 → n = s.keep.dropped + 1) := by
  unfold countDropped countUp
  dsimp only
  split
  · next hmax => exact ⟨_, _, rfl, fun hno => absurd hmax hno⟩
  · exact ⟨_, s.free, rfl, fun _ => rfl⟩

/-- What the loss of an entry leaves: the queue without it, the fault and the count. -/
theorem dropped_effect (t : Tag) (s : Station) :
    (removeReport t (countDropped (raise .reportUndelivered s))).reports.queue =
        s.reports.queue.filter (fun g => g.record.tag != t) ∧
      (removeReport t (countDropped (raise .reportUndelivered s))).keep.faults.counter .reportUndelivered =
        min 255 (s.keep.faults.counter .reportUndelivered + 1) ∧
      (s.keep.dropped ≠ 4294967295 →
        (removeReport t (countDropped (raise .reportUndelivered s))).keep.dropped = s.keep.dropped + 1) := by
  obtain ⟨n, free, hshape, hn⟩ := countDropped_counts (raise .reportUndelivered s)
  rw [hshape]
  exact ⟨rfl, raised_counter_same .reportUndelivered s.now s.keep.faults, hn⟩

/-! ### The entry delivered (R137) -/

theorem putBearer_delivered (l : Letter) (r : Bearer) (s : Station) :
    (putBearer l r s).keep.delivered = s.keep.delivered := by
  unfold putBearer
  dsimp only
  generalize hu : (if (s.bearer l).state == .inCall && r.state != .inCall then removeBearerBridges l s else s) = u
  have hset : (setBearer l r u).keep.delivered = s.keep.delivered := by
    rw [setBearer_keep, ← hu]
    split <;> rfl
  have hann : (announceCause false (setBearer l r u)).keep.delivered = s.keep.delivered :=
    (congrArg StationCore.delivered (announceCause_core _ _)).trans hset
  split <;> split
  · exact hann
  · exact hset
  · exact hann
  · exact hset

theorem releaseFor_delivered (who : Claimant) (l : Letter) (s : Station) :
    (releaseFor who l s).keep.delivered = s.keep.delivered :=
  releaseFor_keeps (P := fun t => t.keep.delivered = s.keep.delivered)
    (fun l r t ht => (putBearer_delivered l r t).trans ht) (fun l r t ht => (congrArg Keep.delivered (setBearer_keep l r t)).trans ht)
    (fun _ _ ht => ht)
    (fun l n t ht => by
      unfold notify
      split
      · exact ht
      · exact ht) rfl

/-- What the delivery of an entry leaves: the queue without it and the count. -/
theorem delivered_effect (t : Tag) (s : Station) :
    (delivered t s).reports.queue = s.reports.queue.filter (fun g => g.record.tag != t) ∧
      (s.keep.delivered ≠ 4294967295 → (delivered t s).keep.delivered = s.keep.delivered + 1) ∧
      .decideReports ∈ (delivered t s).work := by
  have hcount : ∀ w : Station, (countDelivered w).reports.queue = w.reports.queue ∧
      (w.keep.delivered ≠ 4294967295 → (countDelivered w).keep.delivered = w.keep.delivered + 1) := by
    intro w
    unfold countDelivered countUp
    dsimp only
    split
    · next hmax => exact ⟨rfl, fun hno => absurd hmax hno⟩
    · exact ⟨rfl, fun _ => rfl⟩
  have hleft : ∃ w, delivered t s = post .decideReports (removeReport t (countDelivered w)) ∧
      w.reports.queue = s.reports.queue ∧ w.keep.delivered = s.keep.delivered := by
    unfold delivered
    dsimp only
    split
    · exact ⟨_, rfl, desk_queue_eq (releaseFor_desk _ _ _), releaseFor_delivered _ _ _⟩
    · exact ⟨_, rfl, rfl, rfl⟩
  obtain ⟨w, hgo, hqueue, hdelivered⟩ := hleft
  rw [hgo]
  obtain ⟨hcqueue, hcount⟩ := hcount w
  refine ⟨?_, fun hmax => ?_, List.mem_append_right _ (List.mem_singleton.mpr rfl)⟩
  · change (countDelivered w).reports.queue.filter _ = _
    rw [hcqueue, hqueue]
  · exact (hcount (by rw [hdelivered]; exact hmax)).trans (by rw [hdelivered])

/-! ### The notices of the own bearer (R135) -/

theorem reportNotice_flying {t : Tag} {e : ReportEntry} {s : Station} (he : s.report? t = some e) (hs : e.state = .inFlight)
    (hr : e.route = .ownBearer) :
    reportNotice t .reportSent s = delivered t s ∧ reportNotice t .reportFailed s = attemptFailed t s ∧
      reportNotice t .preempted s =
        post .decideReports
          (returnWaiting t { s with reports.queue := e :: s.reports.queue.filter fun f => f.record.tag != t }) := by
  unfold reportNotice
  rw [he]
  dsimp only
  rw [if_pos ⟨hs, hr⟩, if_pos ⟨hs, hr⟩, if_pos ⟨hs, hr⟩]
  exact ⟨rfl, rfl, rfl⟩

/-- The entry back in the queue, its attempts as they were. -/
def ReportEntry.returned (e : ReportEntry) : ReportEntry := { e with state := .waiting, route := .absent, timer := none }

/-- An entry at the head of the queue returned to waiting. -/
theorem returnWaiting_head {t : Tag} {e : ReportEntry} {s : Station} (he : e.record.tag = t) (ha : s.alone t e) :
    (returnWaiting t { s with reports.queue := e :: s.reports.queue.filter fun f => f.record.tag != t }).reports.queue =
      e.returned :: s.reports.queue.filter fun f => f.record.tag != t := by
  generalize hw : ({ s with reports.queue := e :: s.reports.queue.filter fun f => f.record.tag != t } : Station) = w
  have hqueue : w.reports.queue = e :: s.reports.queue.filter fun f => f.record.tag != t := by rw [← hw]
  have hfound : w.report? t = some e := by
    unfold Station.report?
    rw [hqueue]
    exact List.find?_cons_of_pos (beq_iff_eq.mpr he)
  have halone : w.alone t e := by
    refine List.find?_eq_none.mpr fun g hg => ?_
    rw [hqueue] at hg
    rcases List.mem_cons.mp hg with rfl | hg
    · simp [he]
    · exact List.find?_eq_none.mp ha g (List.mem_filter.mp hg).1
  have hgo : returnWaiting t w = updReport t ReportEntry.returned w :=
    mergeReturning_alone (report?_updReport_same (f := ReportEntry.returned) (fun _ => rfl) hfound)
      (alone_updReport (f := ReportEntry.returned) (fun _ => rfl) rfl halone)
  rw [hgo]
  change w.reports.queue.map (fun g => if g.record.tag = t then g.returned else g) = _
  rw [hqueue, List.map_cons, if_pos he]
  refine congrArg (e.returned :: ·) ((List.map_congr_left fun g hg => ?_).trans (List.map_id _))
  exact if_neg (bne_iff_ne.mp (List.mem_filter.mp hg).2)

/-! ### The end of a rest (R134, R137) -/

/-- An entry that rests no longer leaves the one in flight. -/
theorem flying_updReport {t : Tag} {f : ReportEntry → ReportEntry} {g : ReportEntry} {s : Station} (hfly : s.flying = some g)
    (hg : g.record.tag ≠ t) (hf : ∀ e, (f e).state ≠ .inFlight) : (updReport t f s).flying = some g := by
  unfold Station.flying at hfly ⊢
  obtain ⟨hstate, before, after, hsplit, hbefore⟩ := List.find?_eq_some_iff_append.mp hfly
  have hqueue : (updReport t f s).reports.queue =
      before.map (fun e => if e.record.tag = t then f e else e) ++
        g :: after.map (fun e => if e.record.tag = t then f e else e) := by
    change s.reports.queue.map _ = _
    rw [hsplit, List.map_append, List.map_cons, if_neg hg]
  refine List.find?_eq_some_iff_append.mpr ⟨hstate, _, _, hqueue, fun e he => ?_⟩
  obtain ⟨e₀, hmem, rfl⟩ := List.mem_map.mp he
  split
  · simpa using hf e₀
  · exact hbefore e₀ hmem

/-- Delivery decided while an entry is in flight that no own bearer carries. -/
theorem decideReports_flying {g : ReportEntry} {s : Station} (hfly : s.flying = some g) (hg : g.route ≠ .ownBearer) :
    decideReports s = s := by
  have hretest : retestClaim s = s := by
    unfold retestClaim
    rw [hfly]
    dsimp only
    rw [if_neg (by simp [hg])]
  unfold decideReports offerNext
  rw [hretest, hfly, if_neg (by simp)]

/-- Settles O50: an attempt ends with the entry delivered, resting, dropped or waiting again. -/
theorem reportAttemptsEnd : Obligations.ReportAttemptsEnd := by
  intro tag e s hs he htag without alone rests drops delivers shows fails
  have hdrops : ∀ {w : Station}, w.report? tag = some e → w.reports = s.station.reports →
      w.keep.faults = s.station.keep.faults → w.keep.dropped = s.station.keep.dropped → 5 ≤ e.attempts + 1 →
      drops (attemptFailed tag w) := by
    intro w hw hreports hfaults hdropped hfive
    obtain ⟨hqueue, hcounter, hcount⟩ := dropped_effect tag w
    rw [hreports] at hqueue
    rw [hfaults] at hcounter
    rw [hdropped] at hcount
    rw [attemptFailed_drops hw hfive]
    exact ⟨hqueue, hcounter, hcount, List.mem_append_right _ (List.mem_singleton.mpr rfl)⟩
  have hrests : ∀ {w : Station} {now : Stamp}, w.report? tag = some e → w.reports = s.station.reports → w.now = now →
      e.attempts + 1 < 5 → alone → rests now (attemptFailed tag w) := by
    intro w now hw hreports hclock hfew ha
    have halone : w.alone tag e := by
      unfold Station.alone
      rw [hreports]
      exact ha
    rw [attemptFailed_rests hw hfew halone]
    refine ⟨?_, List.mem_append_right _ (List.mem_singleton.mpr rfl)⟩
    change w.reports.queue.map _ = _
    rw [hreports, ← hclock]
    rfl
  refine ⟨fun f h hdest => ?_, fun l d now hfly hroute htimer hnow => ?_, fun hstate hroute l => ?_,
    fun g d now hstate htimer hnow hfly hg hown => ?_⟩
  · intro kept
    have hfound := (heardFrom_report? f.source.toNat tag s.station).trans he
    have hrun : ∀ {b : ResultBody}, readResult f.body = some b → exec (.reportResult f) s =
        .next { s with station := finish (takeResult f.source.toNat b (heardFrom f.source.toNat s.station)) } := by
      intro b hb
      change execReportResult f s = _
      unfold execReportResult
      exact takeAddressed_heard h hdest hb
    have hkept : ∀ {u : Station}, u.kept = (heardFrom f.source.toNat s.station).kept → (finish u).kept = kept :=
      fun hu => finish_kept_of (hu.trans (heardFrom_kept _ _)) (awake_opState hs) (awake_waitingEntry hs)
    refine ⟨fun hb => ?_, fun hb hroute => ?_⟩
    · have hgo : takeResult f.source.toNat ⟨tag, true⟩ (heardFrom f.source.toNat s.station) =
          delivered tag (heardFrom f.source.toNat s.station) := by
        unfold takeResult
        dsimp only
        rw [hfound]
        rfl
      obtain ⟨hqueue, hcount, hdecide⟩ := delivered_effect tag (heardFrom f.source.toNat s.station)
      rw [heardFrom_reports] at hqueue
      rw [heardFrom_keep] at hcount
      exact ⟨_, (hrun hb).trans (by rw [hgo]), ⟨hqueue, hcount, hdecide⟩, hkept (delivered_kept _ _)⟩
    · have hgo : takeResult f.source.toNat ⟨tag, false⟩ (heardFrom f.source.toNat s.station) =
          attemptFailed tag (heardFrom f.source.toNat s.station) := by
        unfold takeResult
        dsimp only
        rw [hfound]
        exact if_pos hroute
      have hrun' := (hrun hb).trans (by rw [hgo])
      exact ⟨fun hfew ha => ⟨_, hrun', hrests hfound (heardFrom_reports _ _) (heardFrom_now _ _) hfew ha,
          hkept (attemptFailed_kept _ _)⟩,
        fun hfive => ⟨_, hrun', hdrops hfound (heardFrom_reports _ _) (by rw [heardFrom_keep]) (by rw [heardFrom_keep])
          hfive, hkept (attemptFailed_kept _ _)⟩⟩
  · have hrun : exec .resultTimerExpiry s =
        .next { s with station := finish (attemptFailed tag (atMoment now s.station)) } := by
      change execResultTimerExpiry s = _
      unfold execResultTimerExpiry
      rw [takeExpiry_running (d := d) hs.1, ← hnow]
      · rw [show (atMoment now s.station).flying = some e from hfly]
        dsimp only
        rw [htag]
      · exact (flightTimer_of_flying (s := freshOut s.station) hfly (by rw [hroute]; rfl)).trans htimer
    have hkept : (finish (attemptFailed tag (atMoment now s.station))).kept = { s.station.kept with clock := now } :=
      finish_kept_of (attemptFailed_kept _ _) (awake_opState hs) (awake_waitingEntry hs)
    exact ⟨fun hfew ha => ⟨_, hrun, hrests (w := atMoment now s.station) he rfl rfl hfew ha, hkept⟩,
      fun hfive => ⟨_, hrun, hdrops (w := atMoment now s.station) he rfl rfl rfl hfive, hkept⟩⟩
  · intro taken
    obtain ⟨hsent, hfailed, hback⟩ := reportNotice_flying he hstate hroute
    refine ⟨?_, fun hfew ha => ?_, fun hfive => ?_, fun ha => ?_⟩
    · rw [show taken .reportSent = delivered tag s.station from hsent]
      exact delivered_effect tag s.station
    · rw [show taken .reportFailed = attemptFailed tag s.station from hfailed]
      exact hrests he rfl rfl hfew ha
    · rw [show taken .reportFailed = attemptFailed tag s.station from hfailed]
      exact hdrops he rfl rfl rfl hfive
    · rw [show taken .preempted = _ from hback]
      exact ⟨returnWaiting_head htag ha, List.mem_append_right _ (List.mem_singleton.mpr rfl)⟩
  · have hrun : exec (.restTimerExpiry tag) s = .next { s with station := finish (decideReports
        (updReport tag (fun e => { e with state := .waiting, timer := none }) (atMoment now s.station))) } := by
      change execRestTimerExpiry tag s = _
      unfold execRestTimerExpiry
      rw [takeExpiry_running (d := d) hs.1, ← hnow]
      rw [show (freshOut s.station).report? tag = some e from he]
      exact (if_pos hstate).trans htimer
    rw [decideReports_flying (flying_updReport (s := atMoment now s.station) hfly hg
      (fun _ => (by decide : Delivery.waiting ≠ .inFlight))) hown] at hrun
    exact ⟨_, hrun, finish_updReport (atMoment_light now s.station) hs.2.2⟩

end Sys2Proof.Machine

/-! PROOFS. Service frames (O51, O52): queries and orders of the service terminal answered by a STATUS. -/

namespace Sys2Proof.Machine

/-! ### The answer (R181) -/

theorem takesFrame_status {s : Station} (h : s.power.opState = .active ∨ s.power.opState = .isolated) (x : List Byte)
    (g : BitVec 16) : s.takesFrame (.status x g) 0 = true := by
  unfold Station.takesFrame
  rcases h with h | h
  · rw [h]
  · rw [h]
    rfl

theorem opState_of_serves {kind : Nat} {f : RxFrame} {s : Station} (h : s.Serves kind f) :
    s.power.opState = .active ∨ s.power.opState = .isolated := by
  obtain ⟨-, -, -, -, -, -, -, hserves⟩ := h
  unfold Station.servesFrame at hserves
  cases hop : s.power.opState with
  | active => exact Or.inl rfl
  | isolated => exact Or.inr rfl
  | start => simp [hop] at hserves
  | standby => simp [hop] at hserves

/-- The end of a command that answers the service terminal. -/
theorem finish_answerService {g : BitVec 16} {code index : Byte} {r : StatusResult} {x : List Byte} {s : Station}
    (hlight : s.light) (hp : s.power.progress ≠ .waitingEntry)
    (hserve : s.power.opState = .active ∨ s.power.opState = .isolated) (hroom : s.line.total < 8) :
    (finish (answerService g code index r x s)).core = s.core ∧
      (answerService g code index r x s).holdsFrame
        (.status ([code, index, resultCode r] ++ stampBytes s.now ++ x) g) 0 = true ∧
      (finish (answerService g code index r x s)).holdsFrame
        (.status ([code, index, resultCode r] ++ stampBytes s.now ++ x) g) 0 = true := by
  unfold answerService
  generalize hb : ([code, index, resultCode r] ++ stampBytes s.now ++ x) = body
  have hl := handOver_light (b := .status body g) 0 rfl hlight
  have hprog : (handOver (.status body g) 0 s).power.progress ≠ .waitingEntry := by
    rw [handOver_power]
    exact hp
  have hholds := handOver_holds (takesFrame_status hserve body g) hroom
  exact ⟨(finish_core hl hprog).trans (handOver_core _ _ _), hholds, finish_holds rfl hl hprog hholds⟩

/-- A service frame whose response is one answer, after a change that leaves the line alone. -/
theorem served_answer {kind : Nat} {f : RxFrame} {c : Instr} {respond : Byte → Byte → Station → Station} {s : State}
    {b : Byte × Byte} {code index : Byte} {r : StatusResult} {x : List Byte} {w : Station}
    (hrun : exec c s = takeService kind f respond s) (h : s.station.Serves kind f) (hroom : s.station.line.total < 7)
    (hb : readService f.body = some b)
    (hr : respond b.1 b.2 (assembled s.station) = answerService f.segment code index r x w) (hwork : w.work = [])
    (hpower : w.power = s.station.power) (hline : w.line.total = s.station.line.total) (hnow : w.now = s.station.now) :
    exec c s = .next { s with station := finish (answerService f.segment code index r x w) } ∧
      (finish (answerService f.segment code index r x w)).core = w.core ∧
      (answerService f.segment code index r x w).holdsFrame
        (.status ([code, index, resultCode r] ++ stampBytes s.station.now ++ x) f.segment) 0 = true ∧
      (finish (answerService f.segment code index r x w)).holdsFrame
        (.status ([code, index, resultCode r] ++ stampBytes s.station.now ++ x) f.segment) 0 = true := by
  refine ⟨hrun.trans ((takeService_served h hb).trans (by rw [hr])), ?_⟩
  rw [← hnow]
  refine finish_answerService (light_of_nil hwork) ?_ ?_ ?_
  · rw [hpower]
    exact h.1.2.2
  · rw [hpower]
    exact opState_of_serves h
  · rw [hline]
    exact Nat.lt_succ_of_lt hroom

/-- Settles O51: each query that the responder takes is answered by a STATUS. -/
theorem queriesAreAnswered : Obligations.QueriesAreAnswered := by
  intro f index s h hroom answered asked held
  have answers : ∀ {c : Instr} {respond : Byte → Byte → Station → Station} {selector : Byte} {r : StatusResult}
      {x : List Byte}, exec c s = takeService 11 f respond s → asked selector →
      respond selector index (assembled s.station) = answerService f.segment selector index r x (assembled s.station) →
      answered c selector (resultCode r) x := by
    intro c respond selector r x hrun hb hr
    obtain ⟨hgo, hcore, -, hholds⟩ := served_answer hrun h hroom hb hr rfl rfl rfl rfl
    exact ⟨_, hgo, hcore, hholds⟩
  refine ⟨fun hb => ?_, fun hb => ?_, fun hb => ⟨fun e he => ?_, fun he => ?_⟩, fun hb => ?_,
    fun hb => ⟨fun hi => ?_, fun hi => ?_, fun h0 h1 => ?_⟩, fun hb => ⟨fun hi => ?_, fun hi => ?_, fun h0 h1 => ?_⟩,
    fun selector hb => ?_⟩
  · exact answers (c := .queryStation f) (r := .content) (show execQueryStation f s = _ from rfl) hb rfl
  · exact answers (c := .queryFaults f) (r := .content) (show execQueryFaults f s = _ from rfl) hb rfl
  · refine answers (c := .queryDirectory f) (r := .content) (show execQueryDirectory f s = _ from rfl) hb ?_
    dsimp only
    rw [show (assembled s.station).directory.entries[index.toNat]? = some e from he]
    rfl
  · refine answers (c := .queryDirectory f) (r := .noEntry) (show execQueryDirectory f s = _ from rfl) hb ?_
    dsimp only
    rw [show (assembled s.station).directory.entries[index.toNat]? = none from he]
    rfl
  · exact answers (c := .queryCircuits f) (r := .content) (show execQueryCircuits f s = _ from rfl) hb rfl
  · exact answers (c := .queryBearer f) (r := .content) (show execQueryBearer f s = _ from rfl) hb (if_pos hi)
  · exact answers (c := .queryBearer f) (r := .content) (show execQueryBearer f s = _ from rfl) hb
      ((if_neg (by rw [hi]; decide)).trans (if_pos hi))
  · exact answers (c := .queryBearer f) (r := .noEntry) (show execQueryBearer f s = _ from rfl) hb ((if_neg h0).trans (if_neg h1))
  · exact answers (c := .queryQueues f) (r := .content) (show execQueryQueues f s = _ from rfl) hb (if_pos hi)
  · exact answers (c := .queryQueues f) (r := .content) (show execQueryQueues f s = _ from rfl) hb
      ((if_neg (by rw [hi]; decide)).trans (if_pos hi))
  · exact answers (c := .queryQueues f) (r := .noEntry) (show execQueryQueues f s = _ from rfl) hb ((if_neg h0).trans (if_neg h1))
  · exact answers (c := .unknownSelector f) (r := .unknown) (show execUnknownSelector f s = _ from rfl) hb rfl

/-! ### Faults cleared (R180) -/

theorem index_injective {j k : FaultKind} (h : j.index = k.index) : j = k := by
  have hat : ∀ i : FaultKind, allFaultKinds[i.index.val]? = some i := fun i => by cases i <;> rfl
  exact Option.some.inj ((hat j).symm.trans ((congrArg (fun i : Fin 14 => allFaultKinds[i.val]?) h).trans (hat k)))

theorem mem_allFaultKinds (k : FaultKind) : k ∈ allFaultKinds := by cases k <;> decide

/-- The counters of the kinds of a list, zeroed where their class is in a set. -/
theorem foldl_zeroed (set : ClassSet) (k : FaultKind) (ks : List FaultKind) (v : Vector Nat 14) :
    (ks.foldl (fun v j => if set.has j.faultClass then v.set j.index.val 0 j.index.isLt else v) v).get k.index =
      if k ∈ ks ∧ set.has k.faultClass = true then 0 else v.get k.index := by
  induction ks generalizing v with
  | nil => simp
  | cons j ks ih =>
    rw [List.foldl_cons, ih]
    by_cases hjk : k = j
    · subst hjk
      by_cases hset : set.has k.faultClass = true <;> simp [hset, get_eq_getElem]
    · have hindex : j.index.val ≠ k.index.val := fun h => hjk (index_injective (Fin.ext h.symm))
      by_cases hset : set.has j.faultClass = true <;> simp [hset, hjk, hindex, get_eq_getElem]

theorem clearClasses_counter (set : ClassSet) (k : FaultKind) (s : Station) :
    (clearClasses set s).keep.faults.counter k = if set.has k.faultClass then 0 else s.keep.faults.counter k := by
  refine (foldl_zeroed set k allFaultKinds s.keep.faults.counters).trans ?_
  simp [mem_allFaultKinds, Faults.counter]

theorem has_add (g : ClassSet) (c d : FaultClass) : (g.add c).has d = (g.has d || c == d) := by
  cases c <;> cases d <;> simp [ClassSet.add, ClassSet.has]

theorem has_without (g set : ClassSet) (c : FaultClass) : (g.without set).has c = (g.has c && !set.has c) := by
  cases c <;> rfl

/-- The flags of the kinds of a list added that pass a test. -/
theorem foldl_flagged (p : FaultKind → Bool) (c : FaultClass) (ks : List FaultKind) (g : ClassSet) :
    (ks.foldl (fun g k => if p k then g.add k.faultClass else g) g).has c =
      (g.has c || ks.any fun k => p k && k.faultClass == c) := by
  induction ks generalizing g with
  | nil => simp
  | cons k ks ih =>
    rw [List.foldl_cons, ih, List.any_cons, ← Bool.or_assoc]
    congr 1
    split
    · next hp => rw [has_add, hp, Bool.true_and]
    · next hp => simp [hp]

theorem clearClasses_flag (set : ClassSet) (c : FaultClass) (s : Station) :
    (clearClasses set s).keep.faults.flags.has c =
      if set.has c then allFaultKinds.any fun k => k.faultClass == c && s.conditionStands k
      else s.keep.faults.flags.has c := by
  refine (foldl_flagged (fun k => set.has k.faultClass && s.conditionStands k) c allFaultKinds _).trans ?_
  rw [has_without]
  have hsame : ∀ k, ((set.has k.faultClass && s.conditionStands k) && k.faultClass == c) =
      (set.has c && (k.faultClass == c && s.conditionStands k)) := by
    intro k
    by_cases hk : k.faultClass = c
    · simp [hk]
    · rw [beq_eq_false_iff_ne.mpr hk, Bool.and_false, Bool.false_and, Bool.and_false]
  rw [funext hsame]
  cases set.has c <;> simp

/-- An answer for which there is room raises no fault. -/
theorem answerOrder_faults {g : BitVec 16} {order : Nat} {r : StatusResult} {x : List Byte} {s : Station}
    (hserve : s.power.opState = .active ∨ s.power.opState = .isolated) (hroom : s.line.total < 8) :
    (answerOrder g order r x s).keep.faults = s.keep.faults := by
  unfold answerOrder answerService
  rw [handOver_room (takesFrame_status hserve _ g) hroom]
  rfl

/-- Settles O52: the orders of the service terminal are answered. -/
theorem ordersAreAnswered : Obligations.OrdersAreAnswered := by
  intro f x s h hroom answer
  refine ⟨fun hb => ?_, fun hb => ?_, fun order hb => ?_⟩
  · intro set
    obtain ⟨hgo, hcore, hholds, -⟩ := served_answer (w := clearClasses set (assembled s.station)) (s := s)
      (c := .clearFaults f) (show execClearFaults f s = _ from rfl) h hroom hb rfl rfl rfl rfl rfl
    have hfaults := answerOrder_faults (g := f.segment) (order := 1) (r := .done)
      (x := [classSetByte (clearClasses set (assembled s.station)).keep.faults.flags])
      (s := clearClasses set (assembled s.station)) (opState_of_serves h :) (Nat.lt_succ_of_lt hroom)
    refine ⟨_, hgo, fun k => ?_, fun c => ?_, (congrArg Faults.last hfaults :), hcore, ?_⟩
    · exact (congrArg (fun a : Faults => a.counter k) hfaults).trans (clearClasses_counter set k (assembled s.station))
    · exact (congrArg (fun a : Faults => a.flags.has c) hfaults).trans (clearClasses_flag set c (assembled s.station))
    · rw [show (answerService _ _ _ _ _ _).keep.faults = _ from hfaults]
      exact hholds
  · obtain ⟨hgo, hcore, -, hholds⟩ := served_answer (w := beginCapture (assembled s.station)) (s := s)
      (c := .recapture f) (show execRecapture f s = _ from rfl) h hroom hb rfl rfl rfl rfl rfl
    exact ⟨_, hgo, hcore, hholds⟩
  · obtain ⟨hgo, hcore, -, hholds⟩ := served_answer (w := assembled s.station) (s := s)
      (c := .unknownOrder f) (show execUnknownOrder f s = _ from rfl) h hroom hb rfl rfl rfl rfl rfl
    exact ⟨_, hgo, hcore, hholds⟩

end Sys2Proof.Machine

/-! PROOFS. Line edges and backoff (O53): the frame in service, what the end of a command leaves of it, and the attempt it
starts. -/

namespace Sys2Proof.Machine

/-! ### The frame in service at the end of a command -/

/-- A frame is in service with a backoff, after an idle gap or not. -/
def Station.Serving (v : Service) (gap : Bool) (s : Station) : Prop := s.line.service = some v ∧ s.line.gap = gap

theorem serving_of_line {s t : Station} (h : t.line = s.line) {v : Service} {gap : Bool} (hs : s.Serving v gap) :
    t.Serving v gap := by
  unfold Station.Serving
  rw [h]
  exact hs

section
variable {v : Service} {gap : Bool} (hv : v.frame.body.isAnnounce = false)
include hv

theorem mapAnnounce_serving {s : Station} (x y : Bool) (h : s.Serving v gap) :
    (mapAnnounce (TxBody.mergedWith x y) s).Serving v gap := by
  obtain ⟨hservice, hgap⟩ := h
  refine ⟨?_, hgap⟩
  change s.line.service.map _ = _
  rw [hservice, Option.map_some, mergedWith_other hv]

omit hv in
/-- An ANNOUNCE handed over leaves the frame in service. -/
theorem handOver_announce_serving {s : Station} (x y : Bool) (d : Nat) (h : s.Serving v gap) :
    (handOver (.announce x y) d s).Serving v gap := by
  unfold handOver addFrame
  dsimp only [TxBody.urgent]
  split
  · exact h
  · split
    · exact h
    · exact h

theorem mergeAnnounce_serving {s : Station} (x y : Bool) (h : s.Serving v gap) :
    (mergeAnnounce x y s).Serving v gap := by
  unfold mergeAnnounce
  split
  · dsimp only
    split
    · exact mapAnnounce_serving hv x y h
    · exact mapAnnounce_serving hv x y h
  · exact handOver_announce_serving x y 63 (s := { s with announcing.period := none }) h

theorem announceWasDropped_serving {s : Station} (x : Bool) (h : s.Serving v gap) :
    (announceWasDropped x s).Serving v gap := by
  have hperiod : (startPeriod { s with announcing.mark := false, announcing.markSolicit := false }).Serving v gap :=
    serving_of_line (startPeriod_line _) h
  unfold announceWasDropped
  dsimp only
  generalize startPeriod _ = w at hperiod ⊢
  split
  · split
    · exact mergeAnnounce_serving hv _ _ (s := { w with power.progress := .none, announcing.heldBack := none }) hperiod
    · exact hperiod
  · exact hperiod

theorem abandonStandby_serving {s : Station} (h : s.Serving v gap) : (abandonStandby s).Serving v gap := by
  unfold abandonStandby
  dsimp only
  split
  · exact h
  · exact h
  · split
    · exact mapAnnounce_serving hv _ _ (s := { s with power.progress := .none, announcing.heldBack := none }) h
    · exact mapAnnounce_serving hv _ _ (s := { s with power.progress := .none, announcing.heldBack := none }) h
  · exact mergeAnnounce_serving hv _ _ (s := { s with power.progress := .none, announcing.heldBack := none }) h

omit hv in
theorem keepIdle_serving {s : Station} (h : s.Serving v gap) : (keepIdle s).Serving v gap := by
  obtain ⟨x, hx⟩ := keepIdle_eq s
  rw [hx]
  exact h

theorem standbyCheck_serving {s : Station} (hp : s.power.progress ≠ .waitingEntry) (h : s.Serving v gap) :
    (standbyCheck s).Serving v gap := by
  unfold standbyCheck
  split
  · exact keepIdle_serving h
  · split
    · exact abandonStandby_serving hv h
    · split
      · exact mergeAnnounce_serving hv _ _ (s := { s with power.progress := .announcing }) h
      · exact h
  · split
    · exact abandonStandby_serving hv h
    · exact h
  · next he => exact absurd he hp

theorem upkeep_serving {s : Station} (hp : s.power.progress ≠ .waitingEntry) (h : s.Serving v gap) :
    (upkeep s).Serving v gap := by
  refine standbyCheck_serving hv (kept_waitingEntry (by simp) hp) ?_
  exact serving_of_line ((markReload_line _).trans (keepStall_line s)) h

theorem drain_serving (n : Nat) {s : Station} (hl : s.light) (h : s.Serving v gap) : (drain n s).Serving v gap := by
  induction n generalizing s with
  | zero => exact h
  | succ n ih =>
    unfold drain
    split
    · exact h
    · next t rest hw =>
      obtain ⟨b, rfl⟩ := hl t (by rw [hw]; exact List.mem_cons_self)
      have hrest : Station.light { s with work := rest } := fun u hu => hl u (by rw [hw]; exact List.mem_cons_of_mem _ hu)
      exact ih (announceWasDropped_light b hrest) (announceWasDropped_serving hv b (s := { s with work := rest }) h)

end

/-! ### The bytes of a frame (12.2) -/

/-- Every body but an ANNOUNCE is composed of the core. -/
theorem bodyBytes_of_core {s t : Station} (h : t.core = s.core) {b : TxBody} (hb : b.isAnnounce = false) :
    t.bodyBytes b = s.bodyBytes b := by
  cases b with
  | announce => exact nomatch hb
  | callStatusOrigin u =>
    simp only [Station.bodyBytes, Station.originStatusBody, Station.heldFor, Station.ownCircuit, Station.entry, Station.now,
      Station.originPhaseCode, core_circuits_eq h, core_clock_eq h, core_call_eq h]
  | callStatusCarrier u c =>
    simp only [Station.bodyBytes, Station.carrierStatusBody, Station.carrierPhaseCode, Station.carrier?, core_call_eq h]
  | _ => rfl

theorem composeFrame_of_core {s t : Station} (h : t.core = s.core) {f : TxFrame} (hf : f.body.isAnnounce = false) :
    t.composeFrame f = s.composeFrame f := by
  have hconfig : t.config = s.config := by
    unfold Station.config
    rw [core_config_eq h]
  have hsegment : t.frameSegment f.body = s.frameSegment f.body := by
    unfold Station.frameSegment
    rw [hconfig]
  unfold Station.composeFrame
  rw [hsegment, hconfig, bodyBytes_of_core h hf]

/-! ### The attempt (R150, R151) -/

/-- A frame whose backoff has run out after an idle gap is driven at the end of the command. -/
theorem finish_drives {f : TxFrame} {s : Station} (hl : s.light) (hp : s.power.progress ≠ .waitingEntry)
    (hf : f.body.isAnnounce = false) (h : s.Serving ⟨f, .slots 0⟩ true) :
    (finish s).line.service =
        some ⟨{ f with attempts := f.attempts + 1, begun := true },
          .attempting (s.composeFrame { f with attempts := f.attempts + 1, begun := true }) false⟩ ∧
      .frame (s.composeFrame { f with attempts := f.attempts + 1, begun := true }) ∈ (finish s).out := by
  obtain ⟨c₁, l₁, k₁⟩ := drain_light 256 hl
  have hp₁ := kept_waitingEntry k₁ hp
  obtain ⟨c₂, -, -⟩ := drain_light 128 (upkeep_light hp₁ l₁)
  have hserving : (keepIdle (drain 128 (upkeep (drain 256 s)))).Serving ⟨f, .slots 0⟩ true :=
    keepIdle_serving (drain_serving (v := ⟨f, .slots 0⟩) hf 128 (upkeep_light hp₁ l₁)
      (upkeep_serving (v := ⟨f, .slots 0⟩) hf hp₁ (drain_serving (v := ⟨f, .slots 0⟩) hf 256 hl h)))
  have hcore : (keepIdle (drain 128 (upkeep (drain 256 s)))).core = s.core := by
    rw [keepIdle_core, c₂, upkeep_core hp₁, c₁]
  have hbytes := composeFrame_of_core hcore (f := { f with attempts := f.attempts + 1, begun := true }) hf
  have hstandby : f.body.saysStandby = false := by
    cases hb : f.body with
    | announce => rw [hb] at hf; exact nomatch hf
    | _ => rfl
  unfold finish
  generalize keepIdle _ = w at hserving hcore hbytes ⊢
  obtain ⟨hservice, hgap⟩ := hserving
  have hpump : pump w = tryAttempt w := by
    unfold pump
    rw [hservice]
  have htry : tryAttempt w = emit (.frame (w.composeFrame { f with attempts := f.attempts + 1, begun := true }))
      { w with
        line.service :=
          some ⟨{ f with attempts := f.attempts + 1, begun := true },
            .attempting (w.composeFrame { f with attempts := f.attempts + 1, begun := true }) f.body.saysStandby⟩
        line.gap := false } := by
    unfold tryAttempt
    rw [hservice]
    exact if_pos hgap
  rw [hpump, htry, hbytes, hstandby]
  exact ⟨rfl, List.mem_append_right _ (List.mem_singleton.mpr rfl)⟩

/-- The receive side and the idle gap after an edge of the line. -/
def lineEdge (a : Assembly) (gap : Bool) (s : Station) : Station :=
  { freshOut s with line.assembly := a, line.gap := gap }

/-- The frame in service with its slots counted down. -/
def slotCounted (f : TxFrame) (n : Nat) (s : Station) : Station :=
  { freshOut s with line.service := some ⟨f, .slots n⟩ }

/-- Settles O53: a gap, a busy line and a slot at the line, and the attempt at slot 0. -/
theorem lineEdgesRunBackoff : Obligations.LineEdgesRunBackoff := by
  intro s hs
  have ends : ∀ {u : Station} {k : Kept}, u.work = [] → u.power = s.station.power → u.kept = k →
      k.opState = s.station.kept.opState → k.waitingEntry = s.station.kept.waitingEntry →
      (finish u).core = u.core ∧ (finish u).kept = k :=
    fun hwork hpower hk ho hw => ⟨finish_core (light_of_nil hwork) (by rw [hpower]; exact hs.2.2),
      finish_kept_of hk (by rw [ho]; exact awake_opState hs) (by rw [hw]; exact awake_waitingEntry hs)⟩
  refine ⟨fun hidle => ⟨?_, ?_⟩, fun f n hservice hgap => ?_⟩
  · have hrun : exec .idleGap s = .next { s with station := finish (lineEdge .seeking true s.station) } := by
      change execIdleGap s = _
      unfold execIdleGap
      rw [takeEvent_running hs.1, if_neg (by rw [show (freshOut s.station).transmitting = false from hidle]; decide)]
      rfl
    exact ⟨_, hrun, rfl, ends rfl rfl rfl rfl rfl⟩
  · have hrun : exec .lineBusy s = .next { s with station := finish (lineEdge
        (if s.station.line.assembly = .seeking then .assembling else s.station.line.assembly) false s.station) } := by
      change execLineBusy s = _
      unfold execLineBusy
      rw [takeEvent_running hs.1, if_neg (by rw [show (freshOut s.station).transmitting = false from hidle]; decide)]
      rfl
    exact ⟨_, hrun, rfl, ends rfl rfl rfl rfl rfl⟩
  · have hrun : exec .backoffSlot s = .next { s with station := finish (slotCounted f n s.station) } := by
      change execBackoffSlot s = _
      unfold execBackoffSlot countSlot
      rw [takeEvent_running hs.1, show (freshOut s.station).line.service = _ from hservice]
      dsimp only
      rw [if_pos (show (freshOut s.station).line.gap = true from hgap)]
      rfl
    obtain ⟨hcore, hkept⟩ := ends (u := slotCounted f n s.station) rfl rfl rfl rfl rfl
    refine ⟨_, hrun, rfl, hcore, hkept, fun hn hf => ?_⟩
    subst hn
    exact finish_drives (light_of_nil rfl) hs.2.2 hf ⟨rfl, hgap⟩

end Sys2Proof.Machine

/-! PROOFS. How an attempt to send a frame ends (O54): the collision, the frame dropped or sent, and the CLAIM of the own
attempt. -/

namespace Sys2Proof.Machine

/-! ### The CLAIM of the own attempt (R27, R28) -/

/-- A body is the CLAIM that the own attempt has sent. -/
def Station.ownClaims (s : Station) (body : TxBody) (r : Round) (draw : Nat) : Prop :=
  s.circuits.round = some r ∧ r.stage = .claimSent draw ∧ body = .claim r.circuit r.tag draw

theorem claimFrame_eq {r : Round} {draw : Nat} (h : r.stage = .claimSent draw) :
    r.claimFrame = some (.claim r.circuit r.tag draw) := by
  unfold Round.claimFrame
  rw [h]

theorem claimFrame_some {r : Round} {body : TxBody} (h : r.claimFrame = some body) :
    ∃ draw, r.stage = .claimSent draw ∧ body = .claim r.circuit r.tag draw := by
  unfold Round.claimFrame at h
  split at h
  · next draw hstage => exact ⟨draw, hstage, (Option.some.inj h).symm⟩
  · exact nomatch h

theorem ownClaimDropped_own {body : TxBody} {r : Round} {draw : Nat} {s : Station} (h : s.ownClaims body r draw) :
    ownClaimDropped body s = attemptLost s := by
  obtain ⟨hround, hstage, hbody⟩ := h
  unfold ownClaimDropped
  rw [hround]
  exact if_pos ((claimFrame_eq hstage).trans (congrArg some hbody.symm))

/-- A body that is not the CLAIM of the own attempt is not the one that its round has sent. -/
theorem claimFrame_ne {body : TxBody} {s : Station} (h : ∀ r draw, ¬ s.ownClaims body r draw) :
    ∀ r, s.circuits.round = some r → r.claimFrame ≠ some body := by
  intro r hround hclaim
  obtain ⟨draw, hstage, hbody⟩ := claimFrame_some hclaim
  exact h r draw ⟨hround, hstage, hbody⟩

theorem ownClaimTaken_own {body : TxBody} {r : Round} {draw : Nat} {s : Station} (h : s.ownClaims body r draw) :
    ownClaimTaken body s = joinOwnClaim r draw s := by
  obtain ⟨hround, hstage, hbody⟩ := h
  unfold ownClaimTaken
  rw [hround]
  dsimp only
  rw [hstage]
  exact if_pos ((claimFrame_eq hstage).trans (congrArg some hbody.symm))

theorem endRound_plain {r : Round} {reason : RoundFailure} {s : Station} (ha : r.abandoned = none)
    (hq : s.circuits.request = none) :
    endRound r reason s = post (.roundFailed r.tag reason) { s with circuits.round := none } := by
  have hrequest : (post (.roundFailed r.tag reason) { s with circuits.round := none }).circuits.request = none := hq
  unfold endRound
  dsimp only
  rw [if_pos (by rw [ha]; rfl)]
  unfold takeHeldRequest
  rw [hrequest]

/-- The third loss ends the round with ATTEMPTS_LOST, and nothing else changes. -/
theorem attemptLost_ends {r : Round} {s : Station} (h : s.circuits.round = some r) (hn : r.attempts = 2)
    (ha : r.abandoned = none) (hq : s.circuits.request = none) :
    attemptLost s = post (.roundFailed r.tag .attemptsLost) { s with circuits.round := none } := by
  unfold attemptLost
  rw [h]
  dsimp only
  rw [if_pos (by rw [hn]; simp)]
  exact endRound_plain (r := { r with attempts := r.attempts + 1 }) ha hq

/-- The station whose attempt contests its circuit. -/
def contesting (r : Round) (draw : Nat) (s : Station) : Station :=
  { s with circuits.round := some { r with stage := .contesting draw } }

theorem joinOwnClaim_held {r : Round} {draw : Nat} {s : Station} (h : (s.entry r.circuit).holding.isSome = true) :
    joinOwnClaim r draw s = attemptLost s := if_pos h

theorem joinOwnClaim_joins {r : Round} {draw : Nat} {s : Station} (h : (s.entry r.circuit).holding = none) :
    joinOwnClaim r draw s = joinContest r.circuit ⟨s.tagOrigin, r.tag, draw⟩ (contesting r draw s) :=
  if_neg (by rw [h]; decide)

theorem outranks_iff (a b : Claim) :
    a.outranks b = true ↔ b.draw < a.draw ∨ (b.draw = a.draw ∧ b.claimant < a.claimant) := by
  simp only [Claim.outranks, Bool.or_eq_true, Bool.and_eq_true, decide_eq_true_eq, beq_iff_eq, eq_comm (a := a.draw)]

/-! ### The end of an attempt (R150-R153) -/

theorem requestDraw_pooled {c : Consumer} {x : Nat} {rest : List Nat} {s : Station} (hm : s.draw.mode = .healthy)
    (hp : s.draw.pool = x :: rest) : requestDraw c s = (some x, { s with draw.pool := rest }) := by
  unfold requestDraw
  rw [hm]
  dsimp only
  rw [hp]

/-- A frame that enters service while a draw is pooled. -/
theorem enterService_pooled {f : TxFrame} {x : Nat} {rest : List Nat} {s : Station} (hm : s.draw.mode = .healthy)
    (hp : s.draw.pool = x :: rest) :
    enterService f s =
      { s with
        line.service := some ⟨f, .slots (x % backoffRange f.body.urgent f.attempts)⟩
        draw.pool := rest } := by
  unfold enterService requestLineDraw
  rw [requestDraw_pooled (s := { s with line.service := some ⟨f, .waitingDraw⟩ }) hm hp]
  rfl

/-- The marks that a collided ANNOUNCE loses (R13). -/
def unmarked (f : TxFrame) (s : Station) : Station :=
  if f.body.isAnnounce then { s with announcing.mark := false, announcing.markSolicit := false } else s

theorem unmarked_frame (f : TxFrame) (s : Station) :
    (unmarked f s).core = s.core ∧ (unmarked f s).line = s.line ∧ (unmarked f s).draw = s.draw ∧
      (unmarked f s).keep = s.keep ∧ (unmarked f s).work = s.work := by
  unfold unmarked
  split <;> exact ⟨rfl, rfl, rfl, rfl, rfl⟩

theorem attemptCollided_serves {f : TxFrame} {bytes : List Byte} {standby : Bool} {x : Nat} {rest : List Nat} {s : Station}
    (h : s.line.service = some ⟨f, .attempting bytes standby⟩) (hfew : f.attempts < 8)
    (hturn : f.body.urgent = true ∨ (s.line.queue.any fun g => g.body.urgent) = false) (hm : s.draw.mode = .healthy)
    (hp : s.draw.pool = x :: rest) :
    attemptCollided s =
      { unmarked f (attemptEnded s) with
        line :=
          { (attemptEnded s).line with service := some ⟨f, .slots (x % backoffRange f.body.urgent f.attempts)⟩ }
        draw.pool := rest } := by
  obtain ⟨-, hline, hdraw, -, -⟩ := unmarked_frame f (attemptEnded s)
  unfold attemptCollided
  rw [h]
  dsimp only
  change (if 8 ≤ f.attempts then _ else if _ then _ else enterService f (unmarked f (attemptEnded s))) = _
  rw [if_neg (Nat.not_le.mpr hfew), if_neg, enterService_pooled (by rw [hdraw]; exact hm) (by rw [hdraw]; exact hp), hline]
  intro hyield
  obtain ⟨hroutine, hany⟩ := Bool.and_eq_true _ _ ▸ hyield
  rcases hturn with hurgent | hnone
  · rw [hurgent] at hroutine
    exact absurd hroutine (by decide)
  · change ((unmarked f (attemptEnded s)).line.queue.any fun g => g.body.urgent) = true at hany
    rw [hline] at hany
    exact absurd (hany.symm.trans hnone) (by decide)

theorem attemptCollided_drops {f : TxFrame} {bytes : List Byte} {standby : Bool} {s : Station}
    (h : s.line.service = some ⟨f, .attempting bytes standby⟩) (hmany : 8 ≤ f.attempts) :
    attemptCollided s = reportDrop f.body { unmarked f (attemptEnded s) with line.service := none } := by
  unfold attemptCollided
  rw [h]
  exact if_pos hmany

theorem reportDrop_frame (b : TxBody) (s : Station) :
    (reportDrop b s).core = s.core ∧ (reportDrop b s).keep.faults = s.keep.faults.raised .lineCongestion s.now ∧
      (b.isClaim = true → .claimDropped b ∈ (reportDrop b s).work) := by
  refine ⟨?_, ?_, fun hb => ?_⟩
  · unfold reportDrop
    split <;> rfl
  · unfold reportDrop
    split <;> rfl
  · cases b with
    | claim => exact List.mem_append_right _ (List.mem_singleton.mpr rfl)
    | _ => exact nomatch hb

/-- A completed frame that is no ANNOUNCE has no further effect. -/
theorem completed_plain {f : TxFrame} {standby : Bool} {s : Station} (hf : f.body.isAnnounce = false) :
    completed f standby s = s := by
  unfold completed
  cases hb : f.body with
  | announce => rw [hb] at hf; exact nomatch hf
  | _ => rfl

/-- A completed ANNOUNCE without a mark ends a pending reply and starts the period. -/
theorem completed_announce {f : TxFrame} {standby : Bool} {s : Station} (hf : f.body.isAnnounce = true)
    (hact : s.power.opState = .active) (hmark : s.announcing.mark = false) :
    (completed f standby s).core = s.core ∧ (completed f standby s).announcing.reply = .none ∧
      (completed f standby s).announcing.period = some (s.within (s.config.announcePeriod * 1000)) ∧
      (completed f standby s).line = s.line := by
  have hannounced : ∀ x, announceCompleted x s =
      { withdrawDraw .reply { s with announcing.reply := .none } with
        announcing.period := some (s.within (s.config.announcePeriod * 1000)) } := by
    intro x
    unfold announceCompleted startPeriod
    dsimp only
    rw [if_pos (show (withdrawDraw .reply { s with announcing.reply := .none }).power.opState = .active from hact)]
    exact if_neg (by rw [show ({ withdrawDraw .reply { s with announcing.reply := .none } with
      announcing.period := some _ } : Station).announcing.mark = false from hmark]; decide)
  unfold completed
  cases hb : f.body with
  | announce x y =>
    dsimp only
    rw [hannounced]
    split <;> exact ⟨rfl, rfl, rfl, rfl⟩
  | _ => rw [hb] at hf; exact nomatch hf

/-- Settles O54: an attempt ends in a collision, a drop or its completion. -/
theorem attemptsEnd : Obligations.AttemptsEnd := by
  intro f bytes standby s hs hservice line ownClaim lost thirdLoss
  have hcollides : exec .collision s = .next { s with station := finish (attemptCollided (freshOut s.station)) } := by
    change execCollision s = _
    unfold execCollision
    rw [takeEvent_running hs.1]
  have hcompletes : exec .transmissionComplete s = .next { s with station := finish (completed f standby (frameLeaves
      (ownClaimTaken f.body (attemptEnded (freshOut s.station))))) } := by
    change execTransmissionComplete s = _
    unfold execTransmissionComplete
    rw [takeEvent_running hs.1, show (freshOut s.station).line.service = _ from hservice]
  refine ⟨fun x rest hfew hturn hm hp => ?_, fun hmany => ?_, fun body => ⟨fun r draw hown hthird => ?_, fun hno => ?_⟩,
    fun hno hf => ?_, fun r draw hown => ?_, fun hf hact hmark => ?_⟩
  · obtain ⟨hcore, -, -, -, -⟩ := unmarked_frame f (attemptEnded (freshOut s.station))
    refine ⟨_, hcollides, ?_⟩
    rw [attemptCollided_serves (s := freshOut s.station) hservice hfew hturn hm hp]
    exact ⟨hcore, rfl, rfl⟩
  · obtain ⟨hcore, hline, -, hkeep, -⟩ := unmarked_frame f (attemptEnded (freshOut s.station))
    obtain ⟨hdcore, hfaults, hclaim⟩ := reportDrop_frame f.body { unmarked f (attemptEnded (freshOut s.station)) with line.service := none }
    refine ⟨_, hcollides, ?_⟩
    rw [attemptCollided_drops (s := freshOut s.station) hservice hmany]
    refine ⟨hdcore.trans hcore, ?_, ?_, hclaim⟩
    · rw [reportDrop_line]
      change { (unmarked f (attemptEnded (freshOut s.station))).line with service := none } = _
      rw [hline]
      rfl
    · refine (congrArg (fun a : Faults => a.counter .lineCongestion) hfaults).trans ?_
      refine (raised_counter_same _ _ _).trans ?_
      change min 255 ((unmarked f (attemptEnded (freshOut s.station))).keep.faults.counter .lineCongestion + 1) = _
      rw [hkeep]
      rfl
  · obtain ⟨hn, ha, hq⟩ := hthird
    have hgo : takeTask (.claimDropped body) s.station = attemptLost s.station := ownClaimDropped_own hown
    rw [hgo, attemptLost_ends hown.1 hn ha hq]
    exact ⟨rfl, List.mem_append_right _ (List.mem_singleton.mpr rfl)⟩
  · exact ownClaimDropped_other (claimFrame_ne hno)
  · rw [ownClaimTaken_other (s := attemptEnded (freshOut s.station)) (claimFrame_ne hno), completed_plain hf] at hcompletes
    exact ⟨_, hcompletes, rfl, rfl⟩
  · intro mine joins
    have hf : f.body.isAnnounce = false := by
      obtain ⟨-, -, hbody⟩ := hown
      rw [hbody]
      rfl
    rw [ownClaimTaken_own (s := attemptEnded (freshOut s.station)) hown, completed_plain hf] at hcompletes
    have hsets : ∀ {e : CircuitEntry}, joinOwnClaim r draw (attemptEnded (freshOut s.station)) =
        setEntry r.circuit e (contesting r draw (attemptEnded (freshOut s.station))) → joins e := by
      intro e hgo
      rw [hgo] at hcompletes
      refine ⟨_, hcompletes, setEntry_entry _ _ _, fun c hc => setEntry_other hc _ _, setEntry_round _ _ _, ?_⟩
      obtain ⟨hline, -, -⟩ := setEntry_others r.circuit e (contesting r draw (attemptEnded (freshOut s.station)))
      exact congrArg (fun l : Line => { l with service := none }) hline
    refine ⟨fun hfree => ?_, fun best start hcont => ?_, fun hheld hthird => ?_⟩
    · refine hsets ((joinOwnClaim_joins (s := attemptEnded (freshOut s.station)) ?_).trans (joinContest_of_free mine hfree))
      exact congrArg CircuitEntry.holding hfree
    · have hgo := (joinOwnClaim_joins (draw := draw) (s := attemptEnded (freshOut s.station))
        (congrArg CircuitEntry.holding hcont)).trans (joinContest_of_contested mine hcont)
      intro wins
      have hwins : mine.outranks best = true ↔ wins := outranks_iff mine best
      refine ⟨fun hw => hsets (hgo.trans (if_pos (hwins.mpr hw))), fun hw => ?_⟩
      rw [hgo.trans (if_neg (fun h => hw (hwins.mp h)))] at hcompletes
      exact ⟨_, hcompletes, hcont, fun _ _ => rfl, rfl, rfl⟩
    · obtain ⟨hn, ha, hq⟩ := hthird
      rw [joinOwnClaim_held (s := attemptEnded (freshOut s.station)) hheld,
        attemptLost_ends (s := attemptEnded (freshOut s.station)) hown.1 hn ha hq] at hcompletes
      exact ⟨_, hcompletes, ⟨rfl, List.mem_append_right _ (List.mem_singleton.mpr rfl)⟩, fun _ => rfl, rfl⟩
  · have hno : ∀ r draw, ¬ s.station.ownClaims f.body r draw := by
      rintro r draw ⟨-, -, hbody⟩
      rw [hbody] at hf
      exact nomatch hf
    rw [ownClaimTaken_other (s := attemptEnded (freshOut s.station)) (claimFrame_ne hno)] at hcompletes
    obtain ⟨hcore, hreply, hperiod, hline⟩ := completed_announce (standby := standby)
      (s := frameLeaves (attemptEnded (freshOut s.station))) hf hact hmark
    exact ⟨_, hcompletes, hcore, hreply, hperiod, hline⟩

end Sys2Proof.Machine

/-! PROOFS. The draw source (O55): what one noise bit does at the counts, the tests and the window's end, the bits that
complete a run, and the conditioned draw. -/

namespace Sys2Proof.Machine

/-! ### One noise bit (R158, R159) -/

/-- Whether the latest bit has completed a run of 32. -/
def DrawSource.runFull (d : DrawSource) : Bool := d.runLength == 32

/-- Whether the latest bit is the last of its window. -/
def DrawSource.windowEnds (d : DrawSource) : Bool := d.windowBits == 512

/-- Whether the window passes when the run of the latest bit counts against it. -/
def DrawSource.endPasses (d : DrawSource) : Bool := 180 ≤ d.ones && d.ones ≤ 332 && !(d.windowFailed || d.runFull)

/-- Whether the latest bit latches the source. -/
def DrawSource.latches (d : DrawSource) : Bool := d.mode != .latched && (d.runFull || (d.windowEnds && !d.endPasses))

/-- Whether the latest bit makes the source healthy. -/
def DrawSource.settles (d : DrawSource) : Bool := d.mode != .healthy && d.windowEnds && d.endPasses

/-- The counts after the tests of the latest bit. -/
def DrawSource.tested (d : DrawSource) : DrawSource :=
  { d with
    windowBits := if d.windowEnds then 0 else d.windowBits
    ones := if d.windowEnds then 0 else d.ones
    windowFailed := if d.windowEnds then false else d.windowFailed || d.runFull
    group := if d.latches || d.settles then [] else d.group }

/-- The mode after the tests of the latest bit. -/
def DrawSource.modeAfter (d : DrawSource) : DrawMode :=
  if d.latches then .latched else if d.settles then .healthy else d.mode

/-- The source emptied and the fallback seeded. -/
def Station.Seeded (s u : Station) : Prop :=
  u.draw.pool = [] ∧
    (s.draw.waiting = [] → u.draw.fallback = some ⟨s.tagOrigin, fallbackSeed s.now.clock.toNat s.tagOrigin⟩)

/-- What the tests of the latest bit leave. -/
structure Station.Tested (s u : Station) : Prop where
  kept : u.kept =
    { (if s.draw.latches then s.kept.raised .drawHealth else s.kept).counted s.draw.tested with
      drawMode := s.draw.modeAfter }
  seeded : s.draw.latches = true → s.Seeded u
  settled : s.draw.settles = true → u.draw.fallback = none

/-- The tests of the latest bit: a run of 32 takes effect, then the window's end. -/
def testBit (s : Station) : Station :=
  let s := if s.draw.runLength = 32 then failRepetition s else s
  if s.draw.windowBits = 512 then judgeWindow s else s

theorem takeBit_eq (s : Station) (b : Bool) : takeBit s b = testBit { s with draw := s.draw.countBit b } := rfl

theorem failRepetition_eq {s : Station} (hm : s.draw.mode ≠ .off) :
    failRepetition s =
      if s.draw.mode = .latched then { s with draw.windowFailed := true }
      else latch { s with draw.windowFailed := true } := by
  unfold failRepetition
  dsimp only
  cases h : s.draw.mode with
  | off => exact absurd h hm
  | latched => rfl
  | qualifying => rfl
  | healthy => rfl

theorem judgeWindow_eq {s : Station} (hm : s.draw.mode ≠ .off) :
    judgeWindow s =
      if s.draw.windowPasses = true then
        if s.draw.mode = .healthy then { s with draw := s.draw.nextWindow }
        else enterHealthy { s with draw := s.draw.nextWindow }
      else if s.draw.mode = .latched then { s with draw := s.draw.nextWindow }
      else latch { s with draw := s.draw.nextWindow } := by
  unfold judgeWindow DrawSource.nextWindow
  dsimp only
  cases h : s.draw.mode with
  | off => exact absurd h hm
  | latched => cases s.draw.windowPasses <;> rfl
  | qualifying => cases s.draw.windowPasses <;> rfl
  | healthy => cases s.draw.windowPasses <;> rfl

/-- The latest bit completes a run: the source is LATCHED, the failure counted. -/
theorem failRepetition_effect {s : Station} (hm : s.draw.mode ≠ .off) :
    (failRepetition s).kept =
        { (if s.draw.mode = .latched then s.kept else s.kept.raised .drawHealth) with
          drawMode := .latched, windowFailed := true
          group := if s.draw.mode = .latched then s.draw.group else [] } ∧
      (s.draw.mode ≠ .latched → s.Seeded (failRepetition s)) := by
  rw [failRepetition_eq hm]
  by_cases hl : s.draw.mode = .latched
  · rw [if_pos hl, if_pos hl, if_pos hl]
    refine ⟨?_, fun h => absurd hl h⟩
    rw [← hl]
    rfl
  · rw [if_neg hl, if_neg hl, if_neg hl]
    obtain ⟨hkept, hpool, hseed⟩ := latch_spec { s with draw.windowFailed := true }
    exact ⟨hkept, fun _ => ⟨hpool, hseed⟩⟩

theorem testBit_quiet {s : Station} (hr : s.draw.runLength ≠ 32) (hw : s.draw.windowBits ≠ 512) : s.Tested (testBit s) := by
  have hgo : testBit s = s := by
    unfold testBit
    dsimp only
    rw [if_neg hr, if_neg hw]
  have hfull : s.draw.runFull = false := beq_eq_false_iff_ne.mpr hr
  have hends : s.draw.windowEnds = false := beq_eq_false_iff_ne.mpr hw
  have hlatches : s.draw.latches = false := by simp [DrawSource.latches, hfull, hends]
  have hsettles : s.draw.settles = false := by simp [DrawSource.settles, hends]
  rw [hgo]
  refine ⟨?_, fun h => absurd (hlatches.symm.trans h) (by decide), fun h => absurd (hsettles.symm.trans h) (by decide)⟩
  unfold DrawSource.tested DrawSource.modeAfter
  rw [hlatches, hsettles, hends, hfull, Bool.or_false]
  rfl

theorem testBit_run {s : Station} (hm : s.draw.mode ≠ .off) (hr : s.draw.runLength = 32) (hw : s.draw.windowBits ≠ 512) :
    s.Tested (testBit s) := by
  obtain ⟨hkept, hseeded⟩ := failRepetition_effect hm
  have hbits : (failRepetition s).draw.windowBits = s.draw.windowBits := by
    refine (congrArg Kept.windowBits hkept).trans ?_
    by_cases hl : s.draw.mode = .latched
    · rw [if_pos hl]; rfl
    · rw [if_neg hl]; rfl
  have hgo : testBit s = failRepetition s := by
    unfold testBit
    dsimp only
    rw [if_pos hr, if_neg (by rw [hbits]; exact hw)]
  have hfull : s.draw.runFull = true := beq_iff_eq.mpr hr
  have hends : s.draw.windowEnds = false := beq_eq_false_iff_ne.mpr hw
  have hlatches : s.draw.latches = (s.draw.mode != .latched) := by simp [DrawSource.latches, hfull]
  have hsettles : s.draw.settles = false := by simp [DrawSource.settles, hends]
  rw [hgo]
  refine ⟨hkept.trans ?_, fun h => hseeded (bne_iff_ne.mp (hlatches.symm.trans h)),
    fun h => absurd (hsettles.symm.trans h) (by decide)⟩
  unfold DrawSource.tested DrawSource.modeAfter
  rw [hlatches, hsettles, hends, hfull, Bool.or_true]
  by_cases hl : s.draw.mode = .latched
  · rw [if_pos hl, if_pos hl, hl]
    rfl
  · rw [if_neg hl, if_neg hl, bne_iff_ne.mpr hl]
    rfl

/-- The last bit of a window that completes no run. -/
theorem testBit_window {s : Station} (hm : s.draw.mode ≠ .off) (hr : s.draw.runLength ≠ 32) (hw : s.draw.windowBits = 512) :
    s.Tested (testBit s) := by
  have hgo : testBit s = judgeWindow s := by
    unfold testBit
    dsimp only
    rw [if_neg hr, if_pos hw]
  have hfull : s.draw.runFull = false := beq_eq_false_iff_ne.mpr hr
  have hends : s.draw.windowEnds = true := beq_iff_eq.mpr hw
  have hpasses : s.draw.windowPasses = s.draw.endPasses := by
    unfold DrawSource.endPasses DrawSource.windowPasses
    rw [hfull, Bool.or_false]
  have hlatches : s.draw.latches = (s.draw.mode != .latched && !s.draw.endPasses) := by
    simp [DrawSource.latches, hfull, hends]
  have hsettles : s.draw.settles = (s.draw.mode != .healthy && s.draw.endPasses) := by
    simp [DrawSource.settles, hends]
  rw [hgo, judgeWindow_eq hm, hpasses]
  by_cases hp : s.draw.endPasses = true
  · rw [hp, Bool.not_true, Bool.and_false] at hlatches
    rw [hp, Bool.and_true] at hsettles
    rw [if_pos hp]
    by_cases hh : s.draw.mode = .healthy
    · rw [hh] at hsettles
      rw [if_pos hh]
      refine ⟨?_, fun h => absurd (hlatches.symm.trans h) (by decide), fun h => absurd (hsettles.symm.trans h) (by decide)⟩
      unfold DrawSource.tested DrawSource.modeAfter
      rw [hlatches, hsettles, hends]
      rfl
    · rw [if_neg hh]
      refine ⟨?_, fun h => absurd (hlatches.symm.trans h) (by decide), fun _ => rfl⟩
      unfold DrawSource.tested DrawSource.modeAfter
      rw [hlatches, hsettles, hends, bne_iff_ne.mpr hh]
      rfl
  · rw [Bool.not_eq_true] at hp
    rw [hp, Bool.and_false] at hsettles
    rw [hp, Bool.not_false, Bool.and_true] at hlatches
    rw [if_neg (by rw [hp]; decide)]
    by_cases hl : s.draw.mode = .latched
    · rw [hl] at hlatches
      rw [if_pos hl]
      refine ⟨?_, fun h => absurd (hlatches.symm.trans h) (by decide), fun h => absurd (hsettles.symm.trans h) (by decide)⟩
      unfold DrawSource.tested DrawSource.modeAfter
      rw [hlatches, hsettles, hends]
      rfl
    · rw [if_neg hl]
      obtain ⟨hkept, hpool, hseed⟩ := latch_spec { s with draw := s.draw.nextWindow }
      refine ⟨hkept.trans ?_, fun _ => ⟨hpool, hseed⟩, fun h => absurd (hsettles.symm.trans h) (by decide)⟩
      unfold DrawSource.tested DrawSource.modeAfter
      rw [hlatches, hsettles, hends, bne_iff_ne.mpr hl]
      rfl

/-- The last bit of a window that completes a run too. -/
theorem testBit_both {s : Station} (hm : s.draw.mode ≠ .off) (hr : s.draw.runLength = 32) (hw : s.draw.windowBits = 512) :
    s.Tested (testBit s) := by
  obtain ⟨hkept, hseeded⟩ := failRepetition_effect hm
  generalize hv : failRepetition s = w at hkept hseeded
  have hbits : w.draw.windowBits = 512 := by
    refine (congrArg Kept.windowBits hkept).trans (Eq.trans ?_ hw)
    by_cases hl : s.draw.mode = .latched
    · rw [if_pos hl]; rfl
    · rw [if_neg hl]; rfl
  have hmode : w.draw.mode = .latched := congrArg Kept.drawMode hkept
  have hfailed : w.draw.windowPasses = false := by
    unfold DrawSource.windowPasses
    rw [show w.draw.windowFailed = true from congrArg Kept.windowFailed hkept, Bool.not_true, Bool.and_false]
  have hgo : testBit s = { w with draw := w.draw.nextWindow } := by
    unfold testBit
    dsimp only
    rw [if_pos hr, hv, if_pos hbits, judgeWindow_eq (by rw [hmode]; decide), if_neg (by rw [hfailed]; decide), if_pos hmode]
  have hfull : s.draw.runFull = true := beq_iff_eq.mpr hr
  have hends : s.draw.windowEnds = true := beq_iff_eq.mpr hw
  have hpasses : s.draw.endPasses = false := by
    unfold DrawSource.endPasses
    rw [hfull, Bool.or_true, Bool.not_true, Bool.and_false]
  have hlatches : s.draw.latches = (s.draw.mode != .latched) := by simp [DrawSource.latches, hfull]
  have hsettles : s.draw.settles = false := by simp [DrawSource.settles, hpasses]
  rw [hgo]
  refine ⟨?_, fun h => hseeded (bne_iff_ne.mp (hlatches.symm.trans h)),
    fun h => absurd (hsettles.symm.trans h) (by decide)⟩
  refine (congrArg (fun k : Kept => { k with windowBits := 0, ones := 0, windowFailed := false }) hkept).trans ?_
  unfold DrawSource.tested DrawSource.modeAfter
  rw [hlatches, hsettles, hends]
  by_cases hl : s.draw.mode = .latched
  · rw [if_pos hl, if_pos hl, hl]
    rfl
  · rw [if_neg hl, if_neg hl, bne_iff_ne.mpr hl]
    rfl

theorem testBit_effect {s : Station} (hm : s.draw.mode ≠ .off) : s.Tested (testBit s) := by
  by_cases hr : s.draw.runLength = 32
  · by_cases hw : s.draw.windowBits = 512
    · exact testBit_both hm hr hw
    · exact testBit_run hm hr hw
  · by_cases hw : s.draw.windowBits = 512
    · exact testBit_window hm hr hw
    · exact testBit_quiet hr hw

end Sys2Proof.Machine

/-! PROOFS. The noise commands (O55): the bits that complete a run, the conditioned draw, and the rows. -/

namespace Sys2Proof.Machine

/-! ### The bits that complete a run (R158) -/

/-- The run that an equal bit extends. -/
def DrawSource.runBase (d : DrawSource) : Nat := if d.runLength < 32 then d.runLength else 0

theorem runAfter_last (d : DrawSource) : d.runAfter d.lastBit = d.runBase + 1 := by
  unfold DrawSource.runAfter DrawSource.runBase
  by_cases h : d.runLength < 32
  · rw [if_pos h]
    by_cases h0 : 1 ≤ d.runLength
    · rw [if_pos (by simp [h, h0])]
    · rw [if_neg (by simp [h0])]
      omega
  · rw [if_neg h, if_neg (by simp [h])]

/-- The group of a source that is not HEALTHY takes no bit. -/
theorem countBit_group {d : DrawSource} (h : d.mode ≠ .healthy) (b : Bool) : (d.countBit b).group = d.group := by
  have hno : d.gathers = false := by
    unfold DrawSource.gathers
    rw [beq_eq_false_iff_ne.mpr h]
    rfl
  unfold DrawSource.countBit
  rw [hno]
  rfl

/-- What equal bits leave of a source: a longer run, the window's counts, and nothing else but the group. -/
structure DrawSource.Extends (d e : DrawSource) (m : Nat) : Prop where
  lastBit : e.lastBit = d.lastBit
  run : e.runBase = d.runBase + m
  bits : e.windowBits = d.windowBits + m
  ones : e.ones = if d.lastBit then d.ones + m else d.ones
  failed : e.windowFailed = d.windowFailed
  group : d.mode ≠ .healthy → e.group = d.group

/-- Equal bits that complete neither a run of 32 nor a window. -/
theorem extends_replicate (m : Nat) (d : DrawSource) (hrun : d.runBase + m < 32) (hbits : d.windowBits + m < 512) :
    d.uneventful (List.replicate m d.lastBit) = true ∧
      d.Extends ((List.replicate m d.lastBit).foldl (fun d b => d.countBit b) d) m := by
  induction m generalizing d with
  | zero =>
    refine ⟨rfl, rfl, rfl, rfl, ?_, rfl, fun _ => rfl⟩
    cases d.lastBit <;> rfl
  | succ m ih =>
    have hafter : (d.countBit d.lastBit).runLength = d.runBase + 1 := runAfter_last d
    have hbase : (d.countBit d.lastBit).runBase = d.runBase + 1 := by
      unfold DrawSource.runBase
      rw [hafter, if_pos (by omega)]
      rfl
    obtain ⟨hquiet, hlast, hr, hb, ho, hf, hg⟩ := ih (d.countBit d.lastBit) (by rw [hbase]; omega)
      (by change d.windowBits + 1 + m < 512; omega)
    refine ⟨?_, hlast, ?_, ?_, ?_, hf, fun hm => (hg hm).trans (countBit_group hm d.lastBit)⟩
    · unfold DrawSource.uneventful
      rw [List.replicate_succ]
      simp only [Bool.and_eq_true, bne_iff_ne]
      refine ⟨⟨?_, ?_⟩, hquiet⟩
      · rw [hafter]; omega
      · change d.windowBits + 1 ≠ 512; omega
    · refine hr.trans ?_
      rw [hbase]; omega
    · refine hb.trans ?_
      change d.windowBits + 1 + m = _
      omega
    · refine ho.trans ?_
      change (if d.lastBit then (if d.lastBit then d.ones + 1 else d.ones) + m else if d.lastBit then d.ones + 1 else d.ones) = _
      cases d.lastBit
      · rfl
      · change d.ones + 1 + m = d.ones + (m + 1)
        omega

/-- The number of equal bits that complete a run. -/
def DrawSource.runMissing (d : DrawSource) : Nat := if d.runLength < 32 then 32 - d.runLength else 32

theorem runMissing_eq (d : DrawSource) : ∃ m, d.runMissing = m + 1 ∧ d.runBase + m = 31 := by
  unfold DrawSource.runMissing DrawSource.runBase
  by_cases h : d.runLength < 32
  · rw [if_pos h, if_pos h]
    exact ⟨31 - d.runLength, by omega, by omega⟩
  · rw [if_neg h, if_neg h]
    exact ⟨31, rfl, rfl⟩

/-! ### Noise taken (R158-R160) -/

/-- A source with its draw replaced, as its noise finds it. -/
theorem takeNoise_last {s : Station} {bits : List Bool} (b : Bool) (hm : s.draw.mode ≠ .off)
    (h : s.draw.uneventful bits = true) :
    takeNoise (bits ++ [b]) s =
      testBit { s with draw := (bits.foldl (fun d b => d.countBit b) s.draw).countBit b } := by
  rw [takeNoise_on hm, List.foldl_append, takeBits_uneventful bits s h]
  rfl

/-- The counts of a source whose run has been completed by equal bits. -/
def DrawSource.repeated (d : DrawSource) : DrawSource :=
  { d with
    runLength := 32, windowBits := d.windowBits + d.runMissing
    ones := if d.lastBit then d.ones + d.runMissing else d.ones
    windowFailed := true }

theorem takeNoise_runOut {s : Station} (hm : s.draw.mode ≠ .off) (hw : s.draw.windowBits + s.draw.runMissing < 512) :
    (s.draw.mode ≠ .latched →
      s.Seeded (takeNoise s.draw.runOut s) ∧
        (takeNoise s.draw.runOut s).kept =
          { (s.kept.raised .drawHealth).counted s.draw.repeated with drawMode := .latched, group := [] }) ∧
      (s.draw.mode = .latched → (takeNoise s.draw.runOut s).kept = s.kept.counted s.draw.repeated) := by
  obtain ⟨m, hmissing, hbase⟩ := runMissing_eq s.draw
  obtain ⟨hquiet, hext⟩ := extends_replicate m s.draw (by omega) (by omega)
  obtain ⟨hmode, -, hwaiting⟩ := foldCount_source (List.replicate m s.draw.lastBit) s.draw
  have hout : s.draw.runOut = List.replicate m s.draw.lastBit ++ [s.draw.lastBit] :=
    (congrArg (List.replicate · s.draw.lastBit) hmissing).trans (List.replicate_succ' ..)
  have hgo := takeNoise_last s.draw.lastBit hm hquiet
  rw [← hout] at hgo
  generalize (List.replicate m s.draw.lastBit).foldl (fun d b => d.countBit b) s.draw = d at hext hmode hwaiting hgo
  rw [hgo]
  generalize he : d.countBit s.draw.lastBit = e
  have hlast : e.lastBit = s.draw.lastBit := by rw [← he]; rfl
  have hrun : e.runLength = 32 := by
    rw [← he, ← hext.lastBit]
    refine (runAfter_last d).trans ?_
    rw [hext.run, hbase]
  have hbits : e.windowBits = s.draw.windowBits + s.draw.runMissing := by
    rw [← he, hmissing]
    change d.windowBits + 1 = _
    rw [hext.bits]
    rfl
  have hones : e.ones = if s.draw.lastBit then s.draw.ones + s.draw.runMissing else s.draw.ones := by
    rw [← he, hmissing]
    change (if s.draw.lastBit then d.ones + 1 else d.ones) = _
    rw [hext.ones]
    cases s.draw.lastBit <;> rfl
  have hmode' : e.mode = s.draw.mode := by rw [← he]; exact hmode
  have htested := testBit_effect (s := { s with draw := e }) (by rw [show e.mode = _ from hmode']; exact hm)
  have hfull : e.runFull = true := beq_iff_eq.mpr hrun
  have hends : e.windowEnds = false := beq_eq_false_iff_ne.mpr (by rw [hbits]; omega)
  have hlatches : e.latches = (s.draw.mode != .latched) := by simp [DrawSource.latches, hfull, hmode']
  have hsettles : e.settles = false := by simp [DrawSource.settles, hends]
  have hkept := htested.kept
  dsimp only at hkept
  unfold DrawSource.tested DrawSource.modeAfter at hkept
  rw [hlatches, hsettles, hends, hfull, Bool.or_true, hlast, hrun, hbits, hones] at hkept
  refine ⟨fun hl => ⟨?_, ?_⟩, fun hl => ?_⟩
  · obtain ⟨hpool, hseed⟩ := htested.seeded (by rw [show e.latches = _ from hlatches]; exact bne_iff_ne.mpr hl)
    refine ⟨hpool, fun hnone => hseed ?_⟩
    change e.waiting = []
    rw [← he]
    exact hwaiting.trans hnone
  · rw [bne_iff_ne.mpr hl] at hkept
    exact hkept
  · have hgroup : e.group = s.draw.group := by
      rw [← he]
      exact (countBit_group (by rw [hmode, hl]; decide) _).trans (hext.group (by rw [hl]; decide))
    rw [hl, hgroup] at hkept
    refine hkept.trans ?_
    rw [show (DrawMode.latched != DrawMode.latched) = false from rfl, hmode', ← hl]
    rfl

theorem runAfter_eq (d : DrawSource) (b : Bool) :
    d.runAfter b = if 1 ≤ d.runLength ∧ d.runLength < 32 ∧ b = d.lastBit then d.runLength + 1 else 1 := by
  unfold DrawSource.runAfter
  simp [and_assoc]

/-- The conditioned draw as its noise finds the source. -/
def conditioned (draw : Nat) (s : Station) : Station :=
  if s.draw.mode = .healthy && s.draw.group.length = 64 then
    match conditionedDraw draw s with
    | (some c, t) => deliverDraw c draw t
    | (none, t) => t
  else s

theorem conditioned_incomplete {draw : Nat} {s : Station} (h : s.draw.group.length ≠ 64) : conditioned draw s = s :=
  if_neg (by simp [h])

theorem conditioned_waiting {draw : Nat} {s : Station} {c : Consumer} {rest : List Consumer} (hm : s.draw.mode = .healthy)
    (h : s.draw.group.length = 64) (hw : s.draw.waiting = c :: rest) :
    conditioned draw s = deliverDraw c draw { s with draw.waiting := rest, draw.group := [] } := by
  unfold conditioned
  rw [if_pos (by simp [hm, h]), conditionedDraw_waiting draw hw]

theorem conditioned_pooled {draw : Nat} {s : Station} (hm : s.draw.mode = .healthy) (h : s.draw.group.length = 64)
    (hw : s.draw.waiting = []) :
    conditioned draw s =
      if s.draw.pool.length < 8 then { s with draw.pool := s.draw.pool ++ [draw], draw.group := [] } else s := by
  unfold conditioned conditionedDraw
  rw [if_pos (by simp [hm, h]), hw]

/-- Settles O55: the noise tests, the switch of the source and the conditioned draw. -/
theorem noiseTestsSwitchSource : Obligations.NoiseTestsSwitchSource := by
  intro s hs source mode k n seeded
  have hnoise : ∀ bits, exec (.proportionWindowJudged bits) s =
      .next { s with station := finish (takeNoise bits (freshOut s.station)) } := by
    intro bits
    change execProportionWindowJudged bits s = _
    unfold execProportionWindowJudged
    rw [takeEvent_running hs.1]
  refine ⟨fun bits b hm hquiet => ?_, ?_, fun hw => ?_, fun bits draw hm hsound => ?_, fun f c hm hf => ?_⟩
  · intro d run ones ends failed passes latches settles gathered
    obtain ⟨hmode, hpool, hwaiting⟩ := foldCount_source bits source
    have htested := testBit_effect (s := { freshOut s.station with draw := d.countBit b })
      (by rw [show (d.countBit b).mode = mode from hmode]; exact hm)
    have hrun : (d.countBit b).runLength = run := runAfter_eq d b
    have hgroup : (d.countBit b).group = gathered := by
      change (if d.gathers then d.group ++ [b] else d.group) = gathered
      unfold DrawSource.gathers
      rw [show d.mode = mode from hmode, show d.pool = source.pool from hpool]
      simp [gathered, and_assoc]
    have hlatches : (d.countBit b).latches = latches := by
      unfold DrawSource.latches DrawSource.endPasses DrawSource.runFull
      rw [hrun, show (d.countBit b).mode = mode from hmode]
      rfl
    have hsettles : (d.countBit b).settles = settles := by
      unfold DrawSource.settles DrawSource.endPasses DrawSource.runFull
      rw [hrun, show (d.countBit b).mode = mode from hmode]
      rfl
    have hgo := hnoise (bits ++ [b])
    rw [takeNoise_last (s := freshOut s.station) b hm hquiet] at hgo
    refine ⟨_, hgo, ?_, fun h => ?_, fun h => htested.settled (hsettles.trans h)⟩
    · refine finish_kept_of (htested.kept.trans ?_) ?_ ?_
      · dsimp only
        unfold DrawSource.tested DrawSource.modeAfter DrawSource.runFull
        rw [hlatches, hsettles, hgroup, hrun, show (d.countBit b).mode = mode from hmode]
        cases latches <;> rfl
      · cases latches <;> exact awake_opState hs
      · cases latches <;> exact awake_waitingEntry hs
    · obtain ⟨hempty, hseed⟩ := htested.seeded (hlatches.trans h)
      exact ⟨hempty, fun hnone => hseed (hwaiting.trans hnone)⟩
  · change execRepetitionFailure s = execProportionWindowJudged _ s
    unfold execRepetitionFailure execProportionWindowJudged
    rfl
  · intro counts
    have hgo : exec .repetitionFailure s =
        .next { s with station := finish (takeNoise source.runOut (freshOut s.station)) } := by
      change execRepetitionFailure s = _
      unfold execRepetitionFailure
      rw [takeEvent_running hs.1]
      rfl
    refine ⟨fun hm => ?_, fun hm => ?_⟩
    · have hon : mode ≠ .off ∧ mode ≠ .latched := by
        rcases hm with h | h <;> rw [h] <;> decide
      obtain ⟨hseeded, hkept⟩ := (takeNoise_runOut (s := freshOut s.station) hon.1 hw).1 hon.2
      exact ⟨_, hgo, hseeded, finish_kept_of hkept (awake_opState hs) (awake_waitingEntry hs)⟩
    · have hkept := (takeNoise_runOut (s := freshOut s.station) (by rw [show (freshOut s.station).draw.mode = _ from hm]; decide)
        hw).2 hm
      exact ⟨_, hgo, finish_kept_of hkept (awake_opState hs) (awake_waitingEntry hs)⟩
  · intro d
    obtain ⟨hmode, hpool, hwaiting⟩ := foldPass_source bits source
    have hdm : d.mode = .healthy := hmode.trans hm
    have hon : (freshOut s.station).draw.mode ≠ .off := by
      rw [show (freshOut s.station).draw.mode = _ from hm]
      decide
    have hgo : exec (.drawConditioned ⟨bits, draw⟩) s =
        .next { s with station := finish (conditioned draw.toNat { freshOut s.station with draw := d }) } := by
      change execDrawConditioned _ s = _
      unfold execDrawConditioned
      rw [takeEvent_running hs.1]
      dsimp only
      rw [takeNoise_on hon, takeBits_sound bits (freshOut s.station) hm hsound]
      rfl
    have hcounts : Station.kept { freshOut s.station with draw := d } = k.counted d :=
      draw_kept (s := freshOut s.station) hmode
    have hemptied : ∀ {e : DrawSource}, e = { d with group := [], pool := e.pool, waiting := e.waiting } →
        Station.kept { freshOut s.station with draw := e } = { k.counted d with group := [] } := by
      intro e he
      rw [he]
      exact congrArg (fun a : Kept => { a with group := [] }) hcounts
    have hends : ∀ {u : Station} {a : Kept}, u.kept = a → a.opState = k.opState → a.waitingEntry = k.waitingEntry →
        (finish u).kept = a := fun hk ho hw =>
      finish_kept_of hk (by rw [ho]; exact awake_opState hs) (by rw [hw]; exact awake_waitingEntry hs)
    refine ⟨_, hgo, fun hn => ?_, fun hn hroom => ?_, fun hn hnone => ?_, fun f rest hn hline hservice => ?_⟩
    · rw [conditioned_incomplete (s := { freshOut s.station with draw := d }) hn]
      exact ⟨rfl, hends hcounts rfl rfl⟩
    · refine hends ?_ rfl rfl
      cases hw : source.waiting with
      | nil =>
        have hlen : source.pool.length < 8 := hroom.resolve_left fun h => h hw
        rw [conditioned_pooled (s := { freshOut s.station with draw := d }) hdm hn (hwaiting.trans hw),
          if_pos (by rw [show ({ freshOut s.station with draw := d } : Station).draw.pool = _ from hpool]; exact hlen)]
        exact hemptied (e := { d with pool := d.pool ++ [draw.toNat], group := [] }) rfl
      | cons c rest =>
        rw [conditioned_waiting (s := { freshOut s.station with draw := d }) hdm hn (hwaiting.trans hw)]
        exact (deliverDraw_keeps _ _ _).1.trans (hemptied (e := { d with waiting := rest, group := [] }) rfl)
    · rw [conditioned_pooled (s := { freshOut s.station with draw := d }) hdm hn (hwaiting.trans hnone)]
      rw [show ({ freshOut s.station with draw := d } : Station).draw.pool = source.pool from hpool]
      split <;> rfl
    · rw [conditioned_waiting (s := { freshOut s.station with draw := d }) hdm hn (hwaiting.trans hline)]
      unfold deliverDraw lineDraw
      dsimp only
      rw [show (freshOut s.station).line.service = _ from hservice]
      exact ⟨rfl, rfl⟩
  · intro next
    have hlatched : s.station.draw.mode = .latched := hm
    unfold requestDraw
    rw [hlatched, hf]
    rfl

end Sys2Proof.Machine

/-! PROOFS. Samples at the cabinet (O56, O60): what a sample leaves, the capture, the IMPACT detector and the table of the
tilt detector. -/

namespace Sys2Proof.Machine

/-! ### An event handed on (R130) -/

theorem wakeIfStandby_awake {s : Station} (h : s.power.opState ≠ .standby) (c : WakeCause) : wakeIfStandby c s = s :=
  if_neg h

/-- An event shows in `kept` by the pending list alone. -/
theorem handCabinetEvent_kept (e : CabinetEvent) (s : Station) :
    ∃ pending, (handCabinetEvent e s).kept = { s.kept with cabinet := { s.cabinet with pending := pending } } := by
  unfold handCabinetEvent
  split
  · exact ⟨s.cabinet.pending, handReport_kept e s⟩
  · split
    · exact ⟨_, rfl⟩
    · exact ⟨_, rfl⟩

theorem handCabinetEvent_inService {e : CabinetEvent} {s : Station} (h : s.inService = true) :
    handCabinetEvent e s = handReport e s := if_pos h

theorem inService_start {s : Station} (h : s.power.opState = .start) : s.inService = false := by
  unfold Station.inService
  rw [h]
  rfl

theorem handCabinetEvent_pends {e : CabinetEvent} {s : Station} (h : s.power.opState = .start)
    (hnone : (s.cabinet.pending.any fun p => p.kind == e.kind) = false) :
    handCabinetEvent e s = { s with cabinet.pending := s.cabinet.pending ++ [e] } := by
  unfold handCabinetEvent
  rw [if_neg (by rw [inService_start h]; decide), if_neg (by rw [hnone]; decide)]

/-- A report of a kind that no waiting entry is of joins a queue with room. -/
theorem handReport_joins {e : CabinetEvent} {s : Station}
    (hnone : (s.reports.queue.any fun g => g.waits && g.record.kind == e.kind) = false) (hroom : s.reports.queue.length < 8) :
    handReport e s =
      post .decideReports
        { s with
          keep.lastReport := nextNumber s.keep.lastReport
          reports.queue := s.reports.queue ++ [newEntry (s.newRecord e) e.peakSq] } := by
  unfold handReport
  dsimp only
  rw [if_neg (by rw [hnone]; decide), if_pos hroom]
  rfl

/-! ### A sample offered to the detectors (R125, R127-R129) -/

/-- What the tilt detector changes of a station: its own state and the pending list of the cabinet. -/
def Station.TiltMoves (s u : Station) : Prop :=
  ∃ tilt pending, u.kept = { s.kept with cabinet := { s.cabinet with tilt := tilt, pending := pending } }

theorem tiltMoves_set (s : Station) (t : Tilt) : s.TiltMoves { s with cabinet.tilt := t } := ⟨t, s.cabinet.pending, rfl⟩

theorem raiseTilt_moves {s : Station} (h : s.power.opState ≠ .standby) (k : ReportKind) (c : WakeCause) :
    s.TiltMoves (raiseTilt k c s) := by
  obtain ⟨pending, hkept⟩ := handCabinetEvent_kept
    { kind := k, first := s.now, last := s.now, repeats := 1, peakSq := 0, axis := none } { s with cabinet.tilt := .raised }
  refine ⟨.raised, pending, ?_⟩
  unfold raiseTilt
  dsimp only
  rw [wakeIfStandby_awake]
  · exact hkept
  · intro hs
    exact h ((congrArg Kept.opState hkept).symm.trans hs)

theorem testTilt_moves {s : Station} (h : s.power.opState ≠ .standby) (above high : Bool) :
    s.TiltMoves (testTilt above high s) := by
  have hsame : s.TiltMoves s := tiltMoves_set s s.cabinet.tilt
  unfold testTilt
  dsimp only
  cases s.cabinet.tilt with
  | armed =>
    dsimp only
    split
    · exact tiltMoves_set s _
    · exact hsame
  | sustaining start was eligible =>
    dsimp only
    generalize (if high then some (was.getD s.now) else none) = since
    split
    · exact tiltMoves_set s _
    · cases since with
      | none =>
        dsimp only
        split
        · exact raiseTilt_moves h _ _
        · exact tiltMoves_set s _
      | some t =>
        dsimp only
        split <;> split
        · exact raiseTilt_moves h _ _
        · exact tiltMoves_set s _
        · exact raiseTilt_moves h _ _
        · exact tiltMoves_set s _
  | raised =>
    dsimp only
    split
    · exact hsame
    · exact tiltMoves_set s _
  | rearming start =>
    dsimp only
    split
    · exact tiltMoves_set s _
    · split
      · exact tiltMoves_set s _
      · exact hsame

theorem offerTilt_moves {s : Station} (h : s.power.opState ≠ .standby) : s.TiltMoves (offerTilt s) := by
  unfold offerTilt
  split
  · split
    · exact testTilt_moves h _ _
    · exact tiltMoves_set s s.cabinet.tilt
  · exact tiltMoves_set s s.cabinet.tilt

/-- The cabinet after a sample within the range has been taken into the baseline. -/
def sampled (v : IVec) (s : Station) : Station :=
  { s with
    cabinet.silent := false
    cabinet.silence := some (s.within 1000)
    cabinet.baseline := some (newBaseline s.sensorRate s.cabinet.baseline v.exact) }

theorem takeSample_inRange {v : IVec} {s : Station} (h : v.inRange = true) :
    takeSample v s = offerTilt (offerImpact s.cabinet.baseline v.exact (offerCapture v (sampled v s))) := if_pos h

theorem takeSample_outOfRange {v : IVec} {s : Station} (h : v.inRange = false) : takeSample v s = s :=
  if_neg (by rw [h]; decide)

/-- A sample that ends no window changes the capture alone. -/
theorem offerCapture_open {v : IVec} {s : Station}
    (h : ∀ start n sum low high, s.cabinet.capture = .window start n sum low high → Stamp.elapsed start s.now < 10000) :
    ∃ capture, offerCapture v s = { s with cabinet.capture := capture } := by
  unfold offerCapture
  dsimp only
  cases hc : s.cabinet.capture with
  | off => exact ⟨s.cabinet.capture, rfl⟩
  | armed => exact ⟨_, rfl⟩
  | window start n sum low high =>
    dsimp only
    split
    · exact ⟨_, rfl⟩
    · rw [if_neg (Nat.not_le.mpr (h start n sum low high hc))]
      exact ⟨_, rfl⟩

/-- A sample changes the capture, and at a window's end the tilt detector and the reference. -/
theorem offerCapture_shape (v : IVec) (s : Station) :
    ∃ capture tilt reference, offerCapture v s =
      { s with
        cabinet := { s.cabinet with capture := capture, tilt := tilt }
        keep := { s.keep with reference := reference } } := by
  unfold offerCapture
  dsimp only
  cases s.cabinet.capture with
  | off => exact ⟨s.cabinet.capture, s.cabinet.tilt, s.keep.reference, rfl⟩
  | armed => exact ⟨_, s.cabinet.tilt, s.keep.reference, rfl⟩
  | window start n sum low high =>
    dsimp only
    split
    · exact ⟨_, s.cabinet.tilt, s.keep.reference, rfl⟩
    · split
      · exact ⟨_, _, _, rfl⟩
      · exact ⟨_, s.cabinet.tilt, s.keep.reference, rfl⟩

/-- A still window that has run for 10 s sets the reference. -/
theorem offerCapture_ends {v : IVec} {s : Station} {start : Stamp} {n : Nat} {sum low high : IVec}
    (h : s.cabinet.capture = .window start n sum low high) (ht : 10000 ≤ Stamp.elapsed start s.now)
    (hstill : stillWindow (IVec.zip min low v) (IVec.zip max high v) = true) :
    offerCapture v s =
      { s with
        keep.reference := some (meanOf (IVec.zip (· + ·) sum v) (n + 1))
        cabinet.capture := .off, cabinet.tilt := .armed } := by
  unfold offerCapture
  rw [h]
  dsimp only
  rw [if_neg (by rw [hstill]; decide), if_pos ht]

/-- Whether a deviation exceeds the threshold of the IMPACT detector. -/
def Station.impacts (s : Station) (d : QVec) : Prop :=
  ((s.config.impactThreshold * 100 : Nat) : Rat) * ((s.config.impactThreshold * 100 : Nat) : Rat) < d.dot d

/-- A sample changes of the IMPACT detector its event and the stamp of the last impact. -/
theorem offerImpact_shape {s : Station} (h : s.power.opState ≠ .standby) (old : Option QVec) (v : QVec) :
    ∃ impact last, offerImpact old v s = { s with cabinet := { s.cabinet with impact := impact, lastImpact := last } } := by
  unfold offerImpact
  dsimp only
  cases old with
  | none => exact ⟨s.cabinet.impact, s.cabinet.lastImpact, rfl⟩
  | some b =>
    dsimp only
    split
    · cases s.cabinet.impact with
      | quiet =>
        dsimp only
        rw [wakeIfStandby_awake (by exact h)]
        exact ⟨_, _, rfl⟩
      | opened => exact ⟨_, s.cabinet.lastImpact, rfl⟩
    · exact ⟨s.cabinet.impact, s.cabinet.lastImpact, rfl⟩

/-- A quiet detector opens an event where the deviation exceeds the threshold. -/
theorem offerImpact_quiet {s : Station} {b v : QVec} (h : s.power.opState ≠ .standby) (hq : s.cabinet.impact = .quiet) :
    (s.impacts (v.minus b) →
      offerImpact (some b) v s =
        { s with
          cabinet.impact :=
            .opened s.now ((v.minus b).dot (v.minus b)) (axisOfLargest (v.minus b)) (s.within 2000)
          cabinet.lastImpact := some s.now }) ∧
      (¬ s.impacts (v.minus b) → offerImpact (some b) v s = s) := by
  unfold offerImpact Station.impacts
  dsimp only
  refine ⟨fun hd => ?_, fun hd => if_neg hd⟩
  rw [if_pos hd, hq]
  dsimp only
  rw [wakeIfStandby_awake (by exact h)]

/-! ### A sample taken (R124-R128) -/

theorem inRange_iff (x y z : Int) : IVec.inRange ⟨x, y, z⟩ = true ↔
    ¬ (x < -8000 ∨ 8000 < x) ∧ ¬ (y < -8000 ∨ 8000 < y) ∧ ¬ (z < -8000 ∨ 8000 < z) := by
  simp only [IVec.inRange, Bool.and_eq_true, decide_eq_true_eq]
  omega

theorem sensorRate_awake {s : Station} (h : s.power.opState ≠ .standby) : s.sensorRate = 100 := if_neg h

/-- The baseline after a sample at the rate of 100 samples per second. -/
def movedBaseline (b : Option QVec) (v : QVec) : QVec :=
  match b with
  | none => v
  | some b => ⟨b.x + (v.x - b.x) / 400, b.y + (v.y - b.y) / 400, b.z + (v.z - b.z) / 400⟩

theorem newBaseline_awake (b : Option QVec) (v : QVec) : newBaseline 100 b v = movedBaseline b v := by
  cases b with
  | none => rfl
  | some b =>
    unfold newBaseline baselineStep movedBaseline
    dsimp only
    rw [if_neg (by decide)]

/-- What a sample within the range leaves of a station, by what the capture and the IMPACT detector have made of it. -/
theorem takeSample_kept {v : IVec} {s : Station} (hv : v.inRange = true) (h : s.power.opState ≠ .standby) :
    ∃ tilt pending, (takeSample v s).kept =
      { s.kept with
        reference := (offerImpact s.cabinet.baseline v.exact (offerCapture v (sampled v s))).keep.reference
        cabinet :=
          { (offerImpact s.cabinet.baseline v.exact (offerCapture v (sampled v s))).cabinet with
            tilt := tilt, pending := pending } } := by
  obtain ⟨capture, tilt₁, reference, hcapture⟩ := offerCapture_shape v (sampled v s)
  obtain ⟨impact, last, himpact⟩ := offerImpact_shape (s := offerCapture v (sampled v s))
    (by rw [hcapture]; exact h) s.cabinet.baseline v.exact
  have hpower : (offerImpact s.cabinet.baseline v.exact (offerCapture v (sampled v s))).power = s.power := by
    rw [himpact, hcapture]
    rfl
  obtain ⟨tilt, pending, hkept⟩ := offerTilt_moves
    (s := offerImpact s.cabinet.baseline v.exact (offerCapture v (sampled v s))) (by rw [hpower]; exact h)
  refine ⟨tilt, pending, ?_⟩
  rw [takeSample_inRange hv, hkept, himpact, hcapture]
  rfl

/-- The baseline and the silence limit after a sample. -/
theorem offered_frame {v : IVec} {s : Station} (h : s.power.opState ≠ .standby) :
    (offerImpact s.cabinet.baseline v.exact (offerCapture v (sampled v s))).cabinet.silent = false ∧
      (offerImpact s.cabinet.baseline v.exact (offerCapture v (sampled v s))).cabinet.silence = some (s.within 1000) ∧
      (offerImpact s.cabinet.baseline v.exact (offerCapture v (sampled v s))).cabinet.baseline =
        some (movedBaseline s.cabinet.baseline v.exact) := by
  obtain ⟨capture, tilt, reference, hcapture⟩ := offerCapture_shape v (sampled v s)
  obtain ⟨impact, last, himpact⟩ := offerImpact_shape (s := offerCapture v (sampled v s))
    (by rw [hcapture]; exact h) s.cabinet.baseline v.exact
  rw [himpact, hcapture]
  refine ⟨rfl, rfl, congrArg some ?_⟩
  rw [sensorRate_awake h, newBaseline_awake]

/-- A view of a station whose cabinet and reference are not followed further. -/
theorem kept_of_cabinet {k : Kept} {u : Station} {c : Cabinet} {r : Option IVec}
    (h : u.kept = { k with reference := r, cabinet := c }) :
    u.kept = { k with cabinet := u.cabinet, reference := u.keep.reference } := by
  obtain rfl : u.cabinet = c := congrArg Kept.cabinet h
  obtain rfl : u.keep.reference = r := congrArg Kept.reference h
  exact h

/-- A deviation that exceeds the threshold opens an event of a quiet detector, and no other does. -/
theorem offered_impact {v : IVec} {b : QVec} {s : Station} (h : s.power.opState ≠ .standby) (hq : s.cabinet.impact = .quiet) :
    (s.impacts (v.exact.minus b) →
      (offerImpact (some b) v.exact (offerCapture v (sampled v s))).cabinet.impact =
          .opened s.now ((v.exact.minus b).dot (v.exact.minus b)) (axisOfLargest (v.exact.minus b)) (s.within 2000) ∧
        (offerImpact (some b) v.exact (offerCapture v (sampled v s))).cabinet.lastImpact = some s.now) ∧
      (¬ s.impacts (v.exact.minus b) →
        (offerImpact (some b) v.exact (offerCapture v (sampled v s))).cabinet.impact = .quiet) := by
  obtain ⟨capture, tilt, reference, hcapture⟩ := offerCapture_shape v (sampled v s)
  rw [hcapture]
  obtain ⟨hopens, hstays⟩ := offerImpact_quiet (b := b) (v := v.exact)
    (s := { sampled v s with
      cabinet := { (sampled v s).cabinet with capture := capture, tilt := tilt }
      keep := { (sampled v s).keep with reference := reference } }) h hq
  refine ⟨fun hd => ?_, fun hd => ?_⟩
  · rw [hopens hd]
    exact ⟨rfl, rfl⟩
  · rw [hstays hd]
    exact hq

/-- A still window of 10 s ends with its mean as the reference. -/
theorem offered_reference {v : IVec} {s : Station} {start : Stamp} {n : Nat} {sum low high : IVec}
    (h : s.power.opState ≠ .standby) (hw : s.cabinet.capture = .window start n sum low high)
    (ht : 10000 ≤ Stamp.elapsed start s.now) (hstill : stillWindow (IVec.zip min low v) (IVec.zip max high v) = true) :
    (offerImpact s.cabinet.baseline v.exact (offerCapture v (sampled v s))).cabinet.capture = .off ∧
      (offerImpact s.cabinet.baseline v.exact (offerCapture v (sampled v s))).keep.reference =
        some (meanOf (IVec.zip (· + ·) sum v) (n + 1)) := by
  have hcapture := offerCapture_ends (s := sampled v s) hw ht hstill
  obtain ⟨impact, last, himpact⟩ := offerImpact_shape (s := offerCapture v (sampled v s))
    (by rw [hcapture]; exact h) s.cabinet.baseline v.exact
  rw [himpact, hcapture]
  exact ⟨rfl, rfl⟩

/-- Settles O56: a sample moves the baseline, and is offered to the IMPACT detector and the capture. -/
theorem sampleMovesBaseline : Obligations.SampleMovesBaseline := by
  intro x y z s hs c far
  have hrun : exec (.sample x y z) s =
      .next { s with station := finish (takeSample ⟨x, y, z⟩ (freshOut s.station)) } := by
    change execSample x y z s = _
    unfold execSample
    rw [takeEvent_running hs.1]
  refine ⟨fun hfar => ?_, fun hx hy hz => ?_⟩
  · have hout : IVec.inRange ⟨x, y, z⟩ = false := by
      rw [Bool.eq_false_iff, ne_eq, inRange_iff]
      rintro ⟨hx, hy, hz⟩
      rcases hfar with h | h | h
      · exact hx h
      · exact hy h
      · exact hz h
    rw [takeSample_outOfRange hout] at hrun
    exact ⟨_, hrun, finish_core (light_of_nil rfl) hs.2.2, finish_kept hs.2.1 hs.2.2⟩
  · have hin : IVec.inRange ⟨x, y, z⟩ = true := (inRange_iff x y z).mpr ⟨hx, hy, hz⟩
    obtain ⟨tilt, pending, hkept⟩ := takeSample_kept (s := freshOut s.station) hin hs.2.1
    have hend := finish_kept_of hkept (awake_opState hs) (awake_waitingEntry hs)
    have hcabinet := congrArg Kept.cabinet hend
    have hreference := congrArg Kept.reference hend
    obtain ⟨hsilent, hsilence, hbaseline⟩ := offered_frame (v := ⟨x, y, z⟩) (s := freshOut s.station) hs.2.1
    refine ⟨_, hrun, ?_, (congrArg Cabinet.silent hcabinet).trans hsilent, (congrArg Cabinet.silence hcabinet).trans hsilence,
      (congrArg Cabinet.baseline hcabinet).trans (hbaseline.trans ?_), fun b hb hq => ?_,
      fun start n sum low high hw ht h₁ h₂ h₃ => ?_⟩
    · exact kept_of_cabinet hend
    · change some (movedBaseline c.baseline _) = _
      cases c.baseline <;> rfl
    · intro d size limit
      obtain ⟨hopens, hstays⟩ := offered_impact (v := ⟨x, y, z⟩) (b := b) (s := freshOut s.station) hs.2.1 hq
      rw [show (freshOut s.station).cabinet.baseline = some b from hb] at hcabinet
      exact ⟨fun hd => ⟨(congrArg Cabinet.impact hcabinet).trans (hopens hd).1,
          (congrArg Cabinet.lastImpact hcabinet).trans (hopens hd).2⟩,
        fun hd => (congrArg Cabinet.impact hcabinet).trans (hstays hd)⟩
    · obtain ⟨hoff, hmean⟩ := offered_reference (v := ⟨x, y, z⟩) (s := freshOut s.station) hs.2.1 hw ht
        (by simp [stillWindow, IVec.zip, h₁, h₂, h₃])
      exact ⟨(congrArg Cabinet.capture hcabinet).trans hoff, hreference.trans (hmean.trans rfl)⟩

end Sys2Proof.Machine

/-! PROOFS. The tilt detector (O60): its table (R129), and what it raises. -/

namespace Sys2Proof.Machine

/-! ### The table of the detector (R129) -/

section
variable {s : Station} {high : Bool}

theorem testTilt_armed_low (h : s.cabinet.tilt = .armed) : testTilt false high s = s := by
  unfold testTilt
  rw [h]
  rfl

theorem testTilt_armed_above (h : s.cabinet.tilt = .armed) :
    testTilt true high s =
      { s with cabinet.tilt := .sustaining s.now (if high then some s.now else none) s.eligible } := by
  unfold testTilt
  rw [h]
  rfl

theorem testTilt_raised (h : s.cabinet.tilt = .raised) :
    testTilt true high s = s ∧ testTilt false high s = { s with cabinet.tilt := .rearming s.now } := by
  unfold testTilt
  rw [h]
  exact ⟨rfl, rfl⟩

theorem testTilt_rearming {start : Stamp} (h : s.cabinet.tilt = .rearming start) :
    testTilt true high s = { s with cabinet.tilt := .raised } ∧
      (5000 ≤ Stamp.elapsed start s.now → testTilt false high s = { s with cabinet.tilt := .armed }) ∧
      (Stamp.elapsed start s.now < 5000 → testTilt false high s = s) := by
  unfold testTilt
  rw [h]
  refine ⟨rfl, fun ht => ?_, fun ht => ?_⟩
  · exact (if_neg Bool.false_ne_true).trans (if_pos ht)
  · exact (if_neg Bool.false_ne_true).trans (if_neg (Nat.not_le.mpr ht))

variable {start : Stamp} {was : Option Stamp} {eligible : Bool} (h : s.cabinet.tilt = .sustaining start was eligible)
include h

theorem testTilt_sustaining_low : testTilt false high s = { s with cabinet.tilt := .armed } := by
  unfold testTilt
  rw [h]
  rfl

/-- An eligible detector above 60 degrees raises KNOCKDOWN after 5 s of it. -/
theorem testTilt_sustaining_high (he : eligible = true) :
    testTilt true true s =
      if 5000 ≤ Stamp.elapsed (was.getD s.now) s.now then raiseTilt .knockdown .knockdown s
      else { s with cabinet.tilt := .sustaining start (some (was.getD s.now)) eligible } := by
  subst he
  unfold testTilt
  simp only [h, Bool.not_true, Bool.false_eq_true, ↓reduceIte]

/-- A detector that is not both eligible and above 60 degrees raises TILT after 5 s above the threshold. -/
theorem testTilt_sustaining (hp : high = false ∨ eligible = false) :
    testTilt true high s =
      if 5000 ≤ Stamp.elapsed start s.now then raiseTilt .tilt .tilt s
      else { s with cabinet.tilt := .sustaining start (if high then some (was.getD s.now) else none) eligible } := by
  unfold testTilt
  cases high with
  | false => simp only [h, Bool.not_true, Bool.false_eq_true, ↓reduceIte]
  | true =>
    obtain rfl : eligible = false := hp.resolve_left (by decide)
    simp only [h, Bool.not_true, Bool.false_eq_true, ↓reduceIte]

end

/-! ### A sample at which no capture ends -/

/-- The moved baseline and the reference are long enough to test, or not. -/
theorem offerTilt_tests {s : Station} {m : QVec} {r : IVec} (hm : s.cabinet.baseline = some m) (hr : s.keep.reference = some r) :
    offerTilt s =
      if (m.testable && r.exact.testable) = true then
        testTilt (angleAbove (cosSq s.config.tiltThreshold) m r.exact) (angleAbove (1 / 4) m r.exact) s
      else s := by
  unfold offerTilt
  rw [hm, hr]

/-- A sample that ends no capture is offered to the tilt detector with the detector and the pending list as they were. -/
theorem takeSample_offers {v : IVec} {b : QVec} {s : Station} (hv : v.inRange = true) (h : s.power.opState ≠ .standby)
    (hb : s.cabinet.baseline = some b)
    (hopen : ∀ start n sum low high, s.cabinet.capture = .window start n sum low high →
      Stamp.elapsed start s.now < 10000) :
    ∃ c : Cabinet, c.tilt = s.cabinet.tilt ∧ c.pending = s.cabinet.pending ∧
      c.baseline = some (movedBaseline (some b) v.exact) ∧ takeSample v s = offerTilt { s with cabinet := c } := by
  obtain ⟨capture, hcapture⟩ := offerCapture_open (v := v) (s := sampled v s) hopen
  obtain ⟨impact, last, himpact⟩ := offerImpact_shape (s := offerCapture v (sampled v s))
    (by rw [hcapture]; exact h) s.cabinet.baseline v.exact
  have hbaseline : newBaseline s.sensorRate s.cabinet.baseline v.exact = movedBaseline (some b) v.exact := by
    rw [sensorRate_awake h, newBaseline_awake, hb]
  refine ⟨{ (sampled v s).cabinet with capture := capture, impact := impact, lastImpact := last }, rfl, rfl,
    congrArg some hbaseline, (takeSample_inRange hv).trans (congrArg offerTilt (himpact.trans ?_))⟩
  rw [hcapture]
  rfl

/-! ### What is raised (R129, R130, R132) -/

/-- The event of a detector that raises at a sample. -/
def raisedEvent (kind : ReportKind) (now : Stamp) : CabinetEvent :=
  { kind := kind, first := now, last := now, repeats := 1, peakSq := 0, axis := none }

theorem raiseTilt_awake {kind : ReportKind} {cause : WakeCause} {s : Station} (h : s.power.opState ≠ .standby) :
    raiseTilt kind cause s = handCabinetEvent (raisedEvent kind s.now) { s with cabinet.tilt := .raised } := by
  obtain ⟨pending, hkept⟩ := handCabinetEvent_kept (raisedEvent kind s.now) { s with cabinet.tilt := .raised }
  refine wakeIfStandby_awake (fun hs => h ?_) cause
  exact (congrArg Kept.opState hkept).symm.trans hs

/-- The station whose tilt detector has raised. -/
def tiltRaised (c : Cabinet) (s : Station) : Station := { freshOut s with cabinet := { c with tilt := .raised } }

theorem testable_iff (v : QVec) : v.testable = true ↔ 40000 ≤ v.dot v := by
  unfold QVec.testable
  rw [decide_eq_true_iff]

theorem angleAbove_iff (c : Rat) (a b : QVec) :
    angleAbove c a b = true ↔ a.dot b < 0 ∨ a.dot b * a.dot b < c * (a.dot a * b.dot b) := by
  unfold angleAbove
  rw [Bool.or_eq_true, decide_eq_true_iff, decide_eq_true_iff]

theorem eligible_iff (s : Station) :
    s.eligible = true ↔ ∃ i, s.cabinet.lastImpact = some i ∧ Stamp.elapsed i s.now ≤ 10000 := by
  unfold Station.eligible
  cases s.cabinet.lastImpact with
  | none => simp
  | some i => simp

/-- Settles O60: the tilt detector moves by its table, and raises TILT and KNOCKDOWN. -/
theorem tiltDetectorMoves : Obligations.TiltDetectorMoves := by
  intro x y z b r s hs hb hr hopen hx hy hz c now m dot wider above high becomes raises
  have hin : IVec.inRange ⟨x, y, z⟩ = true := (inRange_iff x y z).mpr (by omega)
  obtain ⟨C, htilt, hpending, hbaseline, hoffers⟩ := takeSample_offers (s := freshOut s.station) hin hs.2.1 hb hopen
  generalize hw : ({ freshOut s.station with cabinet := C } : Station) = w at hoffers
  have hrun : exec (.sample x y z) s = .next { s with station := finish (offerTilt w) } := by
    change execSample x y z s = _
    unfold execSample
    rw [takeEvent_running hs.1, hoffers]
  have hwake : w.power.opState ≠ .standby := by rw [← hw]; exact hs.2.1
  have hwt : w.cabinet.tilt = c.tilt := by rw [← hw]; exact htilt
  have hwnow : w.now = now := by rw [← hw]; rfl
  have hcore : ∀ t : Tilt, (finish { w with cabinet.tilt := t }).core = { s.station.core with cabinet := { C with tilt := t } } := by
    intro t
    subst hw
    exact finish_core (light_of_nil rfl) hs.2.2
  have hcabinet : ∀ t : Tilt, (finish { w with cabinet.tilt := t }).cabinet = { C with tilt := t } :=
    fun t => congrArg StationCore.cabinet (hcore t)
  have hbecomes : ∀ {u : Station} {t : Tilt}, offerTilt w = u → u = { w with cabinet.tilt := t } → becomes t := by
    intro u t hgo hu
    subst hu
    rw [hgo] at hrun
    refine ⟨_, hrun, congrArg Cabinet.tilt (hcabinet t), (congrArg Cabinet.pending (hcabinet t)).trans hpending, ?_⟩
    rw [show ({ s with station := finish { w with cabinet.tilt := t } } : State).station.cabinet = _ from hcabinet t]
    exact hcore t
  have hraises : ∀ {kind : ReportKind} {cause : WakeCause}, kind ≠ .impact → offerTilt w = raiseTilt kind cause w →
      raises kind := by
    intro kind cause hk hgo
    rw [hgo, raiseTilt_awake hwake, hwnow,
      show ({ w with cabinet.tilt := .raised } : Station) = tiltRaised C s.station by rw [← hw]; rfl] at hrun
    refine ⟨fun hserve hnone hroom => ?_, fun hstart hnone => ?_⟩
    · rw [handCabinetEvent_inService (s := tiltRaised C s.station) hserve,
        handReport_joins (e := raisedEvent kind now) (s := tiltRaised C s.station) hnone hroom] at hrun
      have hkept := finish_kept_of (k := (tiltRaised C s.station).kept) (s := post .decideReports
        { tiltRaised C s.station with
          keep.lastReport := nextNumber (tiltRaised C s.station).keep.lastReport
          reports.queue := (tiltRaised C s.station).reports.queue ++
            [newEntry ((tiltRaised C s.station).newRecord (raisedEvent kind now)) (raisedEvent kind now).peakSq] })
        rfl (awake_opState hs) (awake_waitingEntry hs)
      have hcabinet := congrArg Kept.cabinet hkept
      refine ⟨_, hrun, congrArg Cabinet.tilt hcabinet, (congrArg Cabinet.pending hcabinet).trans hpending,
        List.mem_append_right _ (List.mem_singleton.mpr rfl), ?_⟩
      refine congrArg (fun g => s.station.reports.queue ++ [newEntry g 0]) ?_
      change (tiltRaised C s.station).newRecord (raisedEvent kind now) = _
      unfold Station.newRecord
      rw [if_neg (show (raisedEvent kind now).kind ≠ .impact from hk), if_neg (show (raisedEvent kind now).kind ≠ .impact from hk)]
      rfl
    · have hno : (C.pending.any fun p => p.kind == (raisedEvent kind now).kind) = false := by
        rw [hpending]
        exact hnone
      rw [handCabinetEvent_pends (s := tiltRaised C s.station) hstart hno] at hrun
      have hkept := finish_kept (s :=
        { tiltRaised C s.station with cabinet.pending := C.pending ++ [raisedEvent kind now] }) hs.2.1 hs.2.2
      have hcabinet := congrArg Kept.cabinet hkept
      refine ⟨_, hrun, congrArg Cabinet.tilt hcabinet, (congrArg Cabinet.pending hcabinet).trans ?_⟩
      exact congrArg (· ++ [raisedEvent kind now]) hpending
  have htests : offerTilt w =
      if (m.testable && r.exact.testable) = true then
        testTilt (angleAbove (cosSq s.station.config.tiltThreshold) m r.exact) (angleAbove (1 / 4) m r.exact) w
      else w := by
    subst hw
    exact offerTilt_tests hbaseline hr
  have hstays : offerTilt w = w → becomes c.tilt := fun hgo => by
    refine hbecomes hgo ?_
    rw [← hwt]
  refine ⟨fun hshort => hstays (htests.trans (if_neg fun hlong => ?_)), fun hm hrr => ?_⟩
  · obtain ⟨h₁, h₂⟩ := Bool.and_eq_true _ _ ▸ hlong
    rcases hshort with h | h
    · exact absurd ((testable_iff m).mp h₁) (Rat.not_le.mpr h)
    · exact absurd ((testable_iff r.exact).mp h₂) (Rat.not_le.mpr h)
  rw [if_pos (by rw [(testable_iff m).mpr hm, (testable_iff r.exact).mpr hrr]; rfl)] at htests
  have habove : angleAbove (cosSq s.station.config.tiltThreshold) m r.exact = true ↔ above := angleAbove_iff _ m r.exact
  have hhigh : angleAbove (1 / 4) m r.exact = true ↔ high := angleAbove_iff _ m r.exact
  generalize angleAbove (cosSq s.station.config.tiltThreshold) m r.exact = A at htests habove
  generalize angleAbove (1 / 4) m r.exact = H at htests hhigh
  have hlow : ¬ above → A = false := fun h => Bool.eq_false_iff.mpr (fun hA => h (habove.mp hA))
  have hnear : ¬ high → H = false := fun h => Bool.eq_false_iff.mpr (fun hH => h (hhigh.mp hH))
  refine ⟨fun ht ha => ?_, fun ht ha => ?_, fun start was eligible ht => ?_, fun ht => ⟨fun ha => ?_, fun ha => ?_⟩,
    fun start ht => ⟨fun ha => ?_, fun ha hlong => ?_, fun ha hshort => ?_⟩⟩
  · rw [hlow ha, testTilt_armed_low (hwt.trans ht)] at htests
    exact ht ▸ hstays htests
  · rw [habove.mpr ha, testTilt_armed_above (hwt.trans ht), hwnow] at htests
    rw [htests] at hrun
    refine ⟨_, w.eligible, hrun, ?_, fun hh => ?_, fun hh => ?_⟩
    · rw [eligible_iff, hwnow, show w.cabinet.lastImpact = C.lastImpact by rw [← hw]]
      dsimp only
      rw [hcabinet (.sustaining now (if H = true then some now else none) w.eligible)]
    · rw [hhigh.mpr hh, if_pos rfl]
      exact congrArg Cabinet.tilt (hcabinet _)
    · rw [hnear hh, if_neg Bool.false_ne_true]
      exact congrArg Cabinet.tilt (hcabinet _)
  · have hwt' := hwt.trans ht
    intro since
    refine ⟨fun ha => ?_, fun ha hh he => ⟨fun hlong => ?_, fun hshort => ?_⟩, fun ha hh he hshort => ?_,
      fun ha hh hshort => ?_, fun ha hp hlong => ?_⟩
    · rw [hlow ha, testTilt_sustaining_low hwt'] at htests
      exact hbecomes htests rfl
    · rw [habove.mpr ha, hhigh.mpr hh, testTilt_sustaining_high hwt' he, hwnow, if_pos hlong] at htests
      exact hraises (by decide) htests
    · rw [habove.mpr ha, hhigh.mpr hh, testTilt_sustaining_high hwt' he, hwnow, if_neg (Nat.not_le.mpr hshort)] at htests
      exact hbecomes htests rfl
    · rw [habove.mpr ha, hhigh.mpr hh, testTilt_sustaining hwt' (Or.inr he), hwnow, if_neg (Nat.not_le.mpr hshort),
        if_pos rfl] at htests
      exact hbecomes htests rfl
    · rw [habove.mpr ha, hnear hh, testTilt_sustaining hwt' (Or.inl rfl), hwnow, if_neg (Nat.not_le.mpr hshort),
        if_neg Bool.false_ne_true] at htests
      exact hbecomes htests rfl
    · rw [habove.mpr ha, testTilt_sustaining hwt' (hp.imp hnear id), hwnow, if_pos hlong] at htests
      exact hraises (by decide) htests
  · rw [habove.mpr ha, (testTilt_raised (hwt.trans ht)).1] at htests
    exact ht ▸ hstays htests
  · rw [hlow ha, (testTilt_raised (hwt.trans ht)).2, hwnow] at htests
    exact hbecomes htests rfl
  · rw [habove.mpr ha, (testTilt_rearming (hwt.trans ht)).1] at htests
    exact hbecomes htests rfl
  · rw [hlow ha, (testTilt_rearming (hwt.trans ht)).2.1 (by rw [hwnow]; exact hlong)] at htests
    exact hbecomes htests rfl
  · rw [hlow ha, (testTilt_rearming (hwt.trans ht)).2.2 (by rw [hwnow]; exact hshort)] at htests
    exact ht ▸ hstays htests

end Sys2Proof.Machine

/-! PROOFS. Silence and the quiet limit (O57): an IMPACT event closes and is handed on. -/

namespace Sys2Proof.Machine

/-! ### The first of a list that passes (R130, R133) -/

theorem mapFirst_split {α : Type} {p : α → Bool} (f : α → α) {pre post : List α} {x : α} (hpre : pre.any p = false)
    (hx : p x = true) : mapFirst p f (pre ++ x :: post) = pre ++ f x :: post := by
  induction pre with
  | nil => exact if_pos hx
  | cons y ys ih =>
    rw [List.any_cons, Bool.or_eq_false_iff] at hpre
    obtain ⟨hy, hys⟩ := hpre
    change (if p y then f y :: (ys ++ x :: post) else y :: mapFirst p f (ys ++ x :: post)) = y :: (ys ++ f x :: post)
    rw [if_neg (by rw [hy]; decide), ih hys]

theorem eraseP_split {α : Type} {p : α → Bool} {pre post : List α} {x : α} (hpre : pre.any p = false) (hx : p x = true) :
    (pre ++ x :: post).eraseP p = pre ++ post := by
  rw [List.eraseP_append_right _ fun y hy => by simpa using List.any_eq_false.mp hpre y hy, List.eraseP_cons_of_pos hx]

/-! ### A report handed over (R132, R133) -/

/-- A report merges into the first waiting entry of its kind. -/
theorem handReport_merges {e : CabinetEvent} {pre rest : List ReportEntry} {g : ReportEntry} {s : Station}
    (hq : s.reports.queue = pre ++ g :: rest)
    (hpre : (pre.any fun g => g.waits && g.record.kind == e.kind) = false)
    (hg : (g.waits && g.record.kind == e.kind) = true) :
    handReport e s = post .decideReports { s with reports.queue := pre ++ ReportEntry.merge e g :: rest } := by
  unfold handReport
  dsimp only
  rw [if_pos, hq, mapFirst_split (p := fun g : ReportEntry => g.waits && g.record.kind == e.kind) _ hpre hg]
  rw [hq, List.any_append, List.any_cons, hg, Bool.true_or, Bool.or_true]

/-- A report that joins a full queue takes the place of the first entry that waits. -/
theorem handReport_replaces {e : CabinetEvent} {pre rest : List ReportEntry} {g : ReportEntry} {s : Station}
    (hq : s.reports.queue = pre ++ g :: rest)
    (hnone : (s.reports.queue.any fun g => g.waits && g.record.kind == e.kind) = false) (hfull : 8 ≤ s.reports.queue.length)
    (hpre : (pre.any fun g => g.waits) = false) (hg : g.waits = true) :
    handReport e s =
      post .decideReports
        { countDropped (raise .reportDropped s) with
          keep.lastReport := nextNumber s.keep.lastReport
          reports.queue := pre ++ rest ++ [newEntry (s.newRecord e) e.peakSq] } := by
  obtain ⟨n, free, hdropped, -⟩ := countDropped_counts (raise .reportDropped s)
  have hany : (s.reports.queue.any fun e => e.waits) = true := by
    rw [hq, List.any_append, List.any_cons, hg, Bool.true_or, Bool.or_true]
  have herase : (s.reports.queue.eraseP fun e => e.waits) = pre ++ rest := by
    rw [hq]
    exact eraseP_split hpre hg
  unfold handReport
  dsimp only
  rw [if_neg (by rw [hnone]; decide), if_neg (Nat.not_lt.mpr hfull), hdropped]
  dsimp only
  rw [show (raise .reportDropped s).reports.queue = s.reports.queue from rfl, if_pos hany, herase]
  rfl

/-! ### An event that closes (R128, R130) -/

/-- The event that a closing IMPACT hands on. -/
def impactEvent (first : Stamp) (peak : Rat) (axis : Axis) : CabinetEvent :=
  { kind := .impact, first := first, last := first, repeats := 1, peakSq := peak, axis := some axis }

theorem closeImpact_quiet {s : Station} (h : s.cabinet.impact = .quiet) : closeImpact s = s := by
  unfold closeImpact
  rw [h]

theorem closeImpact_opened {s : Station} {first limit : Stamp} {peak : Rat} {axis : Axis}
    (h : s.cabinet.impact = .opened first peak axis limit) :
    closeImpact s = handCabinetEvent (impactEvent first peak axis) { s with cabinet.impact := .quiet } := by
  unfold closeImpact
  rw [h]
  rfl

theorem merge_impact (first : Stamp) (peak : Rat) (axis : Axis) (e : ReportEntry) :
    ReportEntry.merge (impactEvent first peak axis) e =
      if e.peakSq < peak then
        { e with
          record :=
            { e.record with
              repeats := min 255 (e.record.repeats + 1), last := first, peak := peakLevel peak, axis := some axis }
          peakSq := peak }
      else { e with record := { e.record with repeats := min 255 (e.record.repeats + 1), last := first } } := by
  unfold ReportEntry.merge impactEvent
  simp only [true_and]

/-- The entry that a closing IMPACT makes. -/
theorem newEntry_impact (first : Stamp) (peak : Rat) (axis : Axis) (s : Station) :
    newEntry (s.newRecord (impactEvent first peak axis)) peak =
      { record :=
          { tag := ⟨s.tagOrigin, (s.keep.lastReport + 1) % 4096⟩, kind := .impact, first := first, last := first, repeats := 1
            peak := peakLevel peak, axis := some axis, label := s.config.label }
        peakSq := peak, state := .waiting, route := .absent, attempts := 0, declined := [], timer := none } := by
  unfold newEntry Station.newRecord
  rw [if_pos (show (impactEvent first peak axis).kind = .impact from rfl), if_pos (show (impactEvent first peak axis).kind = .impact from rfl)]
  rfl

theorem pendingMerge_impact (first : Stamp) (peak : Rat) (axis : Axis) (e : CabinetEvent) :
    CabinetEvent.merge (impactEvent first peak axis) e =
      if e.peakSq < peak then
        { e with repeats := min 255 (e.repeats + 1), last := first, peakSq := peak, axis := some axis }
      else { e with repeats := min 255 (e.repeats + 1), last := first } := by
  unfold CabinetEvent.merge impactEvent
  simp only [true_and]

/-- An event merges into the pending entry of its kind while the station starts. -/
theorem handCabinetEvent_merges {e : CabinetEvent} {pre rest : List CabinetEvent} {p : CabinetEvent} {s : Station}
    (h : s.power.opState = .start) (hq : s.cabinet.pending = pre ++ p :: rest)
    (hpre : (pre.any fun p => p.kind == e.kind) = false) (hp : p.kind = e.kind) :
    handCabinetEvent e s = { s with cabinet.pending := pre ++ e.merge p :: rest } := by
  have hp' : (p.kind == e.kind) = true := beq_iff_eq.mpr hp
  unfold handCabinetEvent
  rw [if_neg (by rw [inService_start h]; decide), if_pos, hq,
    mapFirst_split (p := fun p : CabinetEvent => p.kind == e.kind) _ hpre hp']
  rw [hq, List.any_append, List.any_cons, hp', Bool.true_or, Bool.or_true]

/-- The station when an event has closed and has not yet been handed on: `k` and `v` are the view and the cabinet before the
close. -/
structure Station.EventClosed (s w : Station) (now : Stamp) (k : Kept) (v : Cabinet) : Prop where
  core : w.core = { s.core with clock := now, cabinet := { v with impact := .quiet } }
  kept : w.kept = { k with clock := now, cabinet := { v with impact := .quiet } }
  work : w.work = []
  power : w.power = s.power
  dropped : w.keep.faults.counter .reportDropped = s.keep.faults.counter .reportDropped

namespace Station.EventClosed
variable {s w : Station} {now : Stamp} {k : Kept} {v : Cabinet} (h : s.EventClosed w now k v)
include h

theorem queue : w.reports.queue = s.reports.queue := congrArg StationCore.queue h.core
theorem lastReport : w.keep.lastReport = s.keep.lastReport := congrArg StationCore.lastReport h.core
theorem pending : w.cabinet.pending = v.pending := congrArg (fun c : StationCore => c.cabinet.pending) h.core
theorem config : w.config = s.config := congrArg (fun c : StationCore => c.config.getD builtInSet) h.core
theorem tagOrigin : w.tagOrigin = s.tagOrigin :=
  congrArg (fun c : StationCore => (c.config.getD builtInSet).address.getD 0) h.core

theorem inService : w.inService = s.inService := by
  unfold Station.inService
  rw [h.power]

/-- The entry that the closed event makes. -/
theorem entry (first : Stamp) (peak : Rat) (axis : Axis) :
    newEntry (w.newRecord (impactEvent first peak axis)) peak =
      { record :=
          { tag := ⟨s.tagOrigin, (s.keep.lastReport + 1) % 4096⟩, kind := .impact, first := first, last := first, repeats := 1
            peak := peakLevel peak, axis := some axis, label := s.config.label }
        peakSq := peak, state := .waiting, route := .absent, attempts := 0, declined := [], timer := none } := by
  rw [newEntry_impact, h.tagOrigin, h.lastReport, h.config]

end Station.EventClosed

/-- Settles O57: the sensor's silence and the quiet limit close an event, which is handed on. -/
theorem silenceAndQuietLimits : Obligations.SilenceAndQuietLimits := by
  intro d now s hs hnow c queue silent quiet merges closes k
  have hcloses : ∀ {i : Instr} {a : Kept} {v : Cabinet} {first : Stamp} {peak : Rat} {axis : Axis} {w : Station},
      exec i s = .next { s with station := finish (handCabinetEvent (impactEvent first peak axis) w) } →
      s.station.EventClosed w now a v → a.opState = k.opState → a.waitingEntry = k.waitingEntry → v.pending = c.pending →
      closes i a v first peak axis := by
    intro i a v first peak axis w hrun hw ho hwait hp
    unfold closes
    intro number record entry hands waits
    have hentry : newEntry (w.newRecord (impactEvent first peak axis)) peak = entry := hw.entry first peak axis
    have hkept : (finish (handReport (impactEvent first peak axis) w)).kept = quiet a { v with impact := .quiet } :=
      finish_kept_of ((handReport_kept _ _).trans hw.kept) (by rw [show (quiet a _).opState = _ from ho]; exact awake_opState hs)
        (by rw [show (quiet a _).waitingEntry = _ from hwait]; exact awake_waitingEntry hs)
    refine ⟨fun hserve => ?_, fun hstart => ?_⟩
    · rw [handCabinetEvent_inService (hw.inService.trans hserve)] at hrun
      refine ⟨fun hnone hroom => ?_, fun pre e rest hq hpre he => ?_, fun pre e rest hq hnone hfull hpre he => ?_⟩
      · rw [handReport_joins (by rw [hw.queue]; exact hnone) (by rw [hw.queue]; exact hroom)] at hrun hkept
        refine ⟨_, hrun, ?_, congrArg nextNumber hw.lastReport, List.mem_append_right _ (List.mem_singleton.mpr rfl), hkept⟩
        change w.reports.queue ++ [newEntry (w.newRecord (impactEvent first peak axis)) peak] = _
        rw [hw.queue, hentry]
      · rw [handReport_merges (hw.queue.trans hq) hpre he] at hrun hkept
        intro one
        refine ⟨_, hrun, ?_, hw.lastReport, List.mem_append_right _ (List.mem_singleton.mpr rfl), hkept⟩
        change pre ++ ReportEntry.merge (impactEvent first peak axis) e :: rest = _
        rw [merge_impact]
      · obtain ⟨n, free, hdropped, hn⟩ := countDropped_counts (raise .reportDropped w)
        rw [handReport_replaces (hw.queue.trans hq) (by rw [hw.queue]; exact hnone) (by rw [hw.queue]; exact hfull) hpre he,
          hdropped] at hrun hkept
        refine ⟨_, ⟨hrun, ?_, congrArg nextNumber hw.lastReport, List.mem_append_right _ (List.mem_singleton.mpr rfl), hkept⟩,
          ?_, fun hmax => ?_⟩
        · change pre ++ rest ++ [newEntry (w.newRecord (impactEvent first peak axis)) peak] = _
          rw [hentry]
        · exact (raised_counter_same .reportDropped w.now w.keep.faults).trans (by rw [hw.dropped])
        · have hsame : w.keep.dropped = s.station.keep.dropped := congrArg StationCore.dropped hw.core
          exact (hn (by rw [show (raise .reportDropped w).keep.dropped = _ from hsame]; exact hmax)).trans
            (congrArg (· + 1) hsame)
    · have hwstart : w.power.opState = .start := by rw [hw.power]; exact hstart
      have hwaits : ∀ {l : List CabinetEvent}, handCabinetEvent (impactEvent first peak axis) w =
          { w with cabinet.pending := l } → waits l := by
        intro l hgo
        rw [hgo] at hrun
        refine ⟨_, hrun, ?_⟩
        refine (finish_core (s := { w with cabinet.pending := l }) (light_of_nil hw.work) ?_).trans ?_
        · rw [show ({ w with cabinet.pending := l } : Station).power = _ from hw.power]
          exact hs.2.2
        · exact congrArg (fun x : StationCore => { x with cabinet.pending := l }) hw.core
      refine ⟨fun hnone => ?_, fun pre e rest hq hpre he => ?_⟩
      · refine hwaits ((handCabinetEvent_pends hwstart (by rw [hw.pending, hp]; exact hnone)).trans ?_)
        rw [hw.pending, hp]
        rfl
      · intro one
        refine hwaits ((handCabinetEvent_merges hwstart (hw.pending.trans (hp.trans hq)) hpre he).trans ?_)
        rw [pendingMerge_impact]
  refine ⟨fun hsilence => ?_, fun first peak axis hopened => ?_⟩
  · generalize hw : ({ raise .sensorSilent (atMoment now s.station) with cabinet := silent } : Station) = w
    have hrun : exec .sensorSilence s = .next { s with station := finish (closeImpact w) } := by
      change execSensorSilence s = _
      unfold execSensorSilence
      rw [takeExpiry_running (d := d) hs.1 hsilence, ← hnow, ← hw]
      rfl
    have hkept : w.kept = quiet (k.raised .sensorSilent) silent := by
      subst hw
      exact congrArg (fun a : Kept => { a with cabinet := silent })
        ((raise_kept_raised .sensorSilent (atMoment now s.station)).trans rfl)
    refine ⟨fun hquiet => ?_, fun first peak axis limit hopened => ?_⟩
    · rw [closeImpact_quiet (by rw [← hw]; exact hquiet)] at hrun
      exact ⟨_, hrun, finish_kept_of hkept (awake_opState hs) (awake_waitingEntry hs)⟩
    · rw [closeImpact_opened (s := w) (by rw [← hw]; exact hopened)] at hrun
      refine hcloses hrun ⟨?_, ?_, ?_, ?_, ?_⟩ rfl rfl rfl
      · subst hw
        rfl
      · rw [show w.cabinet = silent by rw [← hw]]
        exact congrArg (fun a : Kept => { a with cabinet := { silent with impact := .quiet } }) hkept
      · subst hw
        rfl
      · subst hw
        rfl
      · subst hw
        exact raised_counter_other (by decide) _ _
  · have hrun : exec .impactQuietLimitExpiry s = .next { s with station := finish (closeImpact (atMoment now s.station)) } := by
      change execImpactQuietLimitExpiry s = _
      unfold execImpactQuietLimitExpiry
      rw [takeExpiry_running (d := d) hs.1, ← hnow]
      rw [show (freshOut s.station).cabinet.impact = _ from hopened]
      rfl
    rw [closeImpact_opened (s := atMoment now s.station) hopened] at hrun
    exact hcloses hrun ⟨rfl, rfl, rfl, rfl, rfl⟩ rfl rfl rfl

end Sys2Proof.Machine

/-! PROOFS. Voice claims (R51, R52): the best bearer, the bearer reserved or preempted, and the order to dial. -/

namespace Sys2Proof.Machine

/-! ### The best bearer (R51) -/

/-- No bearer that passes a test outranks one: a higher grade, or A between equal ones. -/
def Station.outranksNone (s : Station) (p : Letter → Prop) (l : Letter) : Prop :=
  ∀ m, p m → (s.bearer m).grade < (s.bearer l).grade ∨ ((s.bearer m).grade = (s.bearer l).grade ∧ (l = .a ∨ m = .b))

/-- A fitted bearer that passes a test. -/
def Station.passes (s : Station) (q : Bearer → Bool) (l : Letter) : Prop := s.fitted l = true ∧ q (s.bearer l) = true

theorem bestBearer_iff {s : Station} {q : Bearer → Bool} {l : Letter} (h : s.passes q l)
    (hb : s.outranksNone (s.passes q) l) : s.bestBearer q = some l :=
  bestBearer_of_best h.1 h.2 fun m hm hq => hb m ⟨hm, hq⟩

/-- Where a bearer passes a test there is a best one. -/
theorem exists_best {s : Station} {q : Bearer → Bool} {m : Letter} (h : s.passes q m) :
    ∃ l, s.passes q l ∧ s.outranksNone (s.passes q) l := by
  have hself : ∀ l, s.passes q l → (∀ n, n ≠ l → ¬ s.passes q n) → s.outranksNone (s.passes q) l := by
    intro l hl hno n hn
    by_cases he : n = l
    · subst he
      refine Or.inr ⟨rfl, ?_⟩
      cases n
      · exact Or.inl rfl
      · exact Or.inr rfl
    · exact absurd hn (hno n he)
  by_cases ha : s.passes q .a
  · by_cases hb : s.passes q .b
    · by_cases hg : (s.bearer .a).grade < (s.bearer .b).grade
      · refine ⟨.b, hb, fun n hn => ?_⟩
        cases n
        · exact Or.inl hg
        · exact Or.inr ⟨rfl, Or.inr rfl⟩
      · refine ⟨.a, ha, fun n hn => ?_⟩
        cases n
        · exact Or.inr ⟨rfl, Or.inl rfl⟩
        · rcases Nat.lt_or_eq_of_le (Nat.not_lt.mp hg) with h | h
          · exact Or.inl h
          · exact Or.inr ⟨h, Or.inl rfl⟩
    · refine ⟨.a, ha, hself .a ha fun n hn => ?_⟩
      cases n
      · exact absurd rfl hn
      · exact hb
  · have hm : m = .b := by
      cases m
      · exact absurd h ha
      · rfl
    subst hm
    refine ⟨.b, h, hself .b h fun n hn => ?_⟩
    cases n
    · exact ha
    · exact absurd rfl hn

theorem bestBearer_none {s : Station} {q : Bearer → Bool} (h : ∀ l, ¬ s.passes q l) : s.bestBearer q = none :=
  bestBearer_eq_none fun l hf => Bool.eq_false_iff.mpr fun hq => h l ⟨hf, hq⟩

/-! ### The claim (R51, R52) -/

/-- A bearer that a voice claim may take at once. -/
def readyTest (minimum : Nat) (r : Bearer) : Bool :=
  (r.state == .available || r.state == .checking) && minimum ≤ r.grade

/-- A bearer whose report a voice claim may preempt. -/
def sendingTest (minimum : Nat) (r : Bearer) : Bool := r.state == .sending && minimum ≤ r.grade

section
variable {who : Claimant} {minimum : Nat} {l : Letter} {s : Station}

theorem claimVoice_ready (h : s.bestBearer (readyTest minimum) = some l) :
    claimVoice who minimum s = (some l, reserve l who s) := by
  unfold claimVoice
  rw [show (s.bestBearer fun r => (r.state == .available || r.state == .checking) && minimum ≤ r.grade) = some l from h]

theorem claimVoice_sending (h : s.bestBearer (readyTest minimum) = none)
    (hs : s.bestBearer (sendingTest minimum) = some l) : claimVoice who minimum s = (some l, preempt l who s) := by
  unfold claimVoice
  rw [show (s.bestBearer fun r => (r.state == .available || r.state == .checking) && minimum ≤ r.grade) = none from h]
  dsimp only
  rw [show (s.bestBearer fun r => r.state == .sending && minimum ≤ r.grade) = some l from hs]

theorem claimVoice_refused (h : s.bestBearer (readyTest minimum) = none) (hs : s.bestBearer (sendingTest minimum) = none) :
    claimVoice who minimum s = (none, s) := by
  unfold claimVoice
  rw [show (s.bestBearer fun r => (r.state == .available || r.state == .checking) && minimum ≤ r.grade) = none from h]
  dsimp only
  rw [show (s.bestBearer fun r => r.state == .sending && minimum ≤ r.grade) = none from hs]

end

theorem readyTest_iff (minimum : Nat) (r : Bearer) :
    readyTest minimum r = true ↔
      (r.state = .available ∧ minimum ≤ r.grade) ∨ (r.state = .checking ∧ minimum ≤ r.grade) := by
  unfold readyTest
  rw [Bool.and_eq_true, Bool.or_eq_true, beq_iff_eq, beq_iff_eq, decide_eq_true_iff, or_and_right]

theorem sendingTest_iff (minimum : Nat) (r : Bearer) :
    sendingTest minimum r = true ↔ r.state = .sending ∧ minimum ≤ r.grade := by
  unfold sendingTest
  rw [Bool.and_eq_true, beq_iff_eq, decide_eq_true_iff]

/-! ### The bearer taken -/

/-- What a bearer record replaced leaves: the calls, the circuits, the keep domain's configuration and clock, the operating
state, and every notice. -/
structure Station.Leaves (s t : Station) : Prop where
  call : t.call = s.call
  circuits : t.circuits = s.circuits
  clock : t.keep.clock = s.keep.clock
  config : t.keep.config = s.keep.config
  opState : t.power.opState = s.power.opState
  directory : t.directory = s.directory
  notices : ∀ x ∈ s.work, x ∈ t.work
  frames : ∀ b d, b.isAnnounce = false → s.holdsFrame b d = true → t.holdsFrame b d = true

theorem Station.Leaves.refl (s : Station) : s.Leaves s := ⟨rfl, rfl, rfl, rfl, rfl, rfl, fun _ h => h, fun _ _ _ h => h⟩

theorem Station.Leaves.trans {s t u : Station} (h : t.Leaves u) (h' : s.Leaves t) : s.Leaves u :=
  ⟨h.call.trans h'.call, h.circuits.trans h'.circuits, h.clock.trans h'.clock, h.config.trans h'.config,
    h.opState.trans h'.opState, h.directory.trans h'.directory, fun x hx => h.notices x (h'.notices x hx),
    fun b d hb hh => h.frames b d hb (h'.frames b d hb hh)⟩

theorem putBearer_leaves (l : Letter) (r : Bearer) (s : Station) : s.Leaves (putBearer l r s) := by
  obtain ⟨hcall, hcircuits, hnotices⟩ := putBearer_frame l r s
  have hdesk := putBearer_desk l r s
  have hkept := putBearer_kept_with l r s
  refine ⟨hcall, hcircuits, congrArg Desk.clock hdesk, congrArg Desk.config hdesk, congrArg Desk.opState hdesk,
    (congrArg Kept.directory hkept).trans ?_, hnotices, fun b d hb hh => putBearer_holds hb hh⟩
  cases l <;> rfl

theorem emit_leaves (o : Output) (s : Station) : s.Leaves (emit o s) :=
  ⟨rfl, rfl, rfl, rfl, rfl, rfl, fun _ h => h, fun _ _ _ h => h⟩

theorem setBearer_leaves (l : Letter) (r : Bearer) (s : Station) : s.Leaves (setBearer l r s) := by
  cases l <;> exact ⟨rfl, rfl, rfl, rfl, rfl, rfl, fun _ h => h, fun _ _ _ h => h⟩

theorem notify_leaves (l : Letter) (n : Notice) (s : Station) : s.Leaves (notify l n s) := by
  refine ⟨?_, ?_, ?_, ?_, ?_, ?_, fun _ h => mem_notify_work h, fun b d _ h => (holdsFrame_of_line (notify_line l n s) b d).trans h⟩
  all_goals
    unfold notify
    split <;> rfl

theorem sendCommand_leaves (l : Letter) (c : Command) (r : Bearer) (s : Station) : s.Leaves (sendCommand l c r s) :=
  (putBearer_leaves l _ _).trans (emit_leaves _ s)

/-- A bearer reserved for a claimant. -/
theorem reserve_effect (l : Letter) (who : Claimant) (s : Station) :
    s.Leaves (reserve l who s) ∧ ((reserve l who s).bearer l).state = .reserved ∧
      ((reserve l who s).bearer l).alloc = some (voiceAllocation who false) ∧
      ((reserve l who s).bearer l).networkId = (s.bearer l).networkId := by
  refine ⟨?_, ?_, ?_, ?_⟩
  all_goals unfold reserve
  · exact putBearer_leaves l _ s
  all_goals rw [putBearer_bearer]
  split <;> rfl

/-- A bearer whose report is preempted for a claimant. -/
theorem preempt_effect (l : Letter) (who : Claimant) (s : Station) :
    s.Leaves (preempt l who s) ∧ ((preempt l who s).bearer l).state = .ending ∧
      ((preempt l who s).bearer l).inFlight = some ⟨.hangup, some (s.within 5000)⟩ ∧
      ((preempt l who s).bearer l).alloc = some (voiceAllocation who true) ∧
      ((preempt l who s).bearer l).networkId = (s.bearer l).networkId ∧
      ∀ a, (s.bearer l).alloc = some a → .notice a.who l .preempted ∈ (preempt l who s).work := by
  have hnotified := notify_leaves l .preempted s
  have hnow : (notify l .preempted s).within 5000 = s.within 5000 := congrArg (Stamp.later · 5000) hnotified.clock
  refine ⟨(sendCommand_leaves l _ _ _).trans hnotified, ?_, ?_, ?_, ?_, fun a ha => ?_⟩
  · unfold preempt
    rw [sendCommand_bearer]
  · unfold preempt
    rw [sendCommand_bearer, ← hnow]
    rfl
  · unfold preempt
    rw [sendCommand_bearer]
  · unfold preempt
    rw [sendCommand_bearer, notify_bearer]
    rfl
  · exact (sendCommand_leaves l _ _ _).notices _ (notify_work ha)

/-! ### The order to dial (R52) -/

theorem orderDial_reserved {l : Letter} {s : Station} (h : (s.bearer l).state = .reserved) :
    s.Leaves (orderDial l s) ∧ ((orderDial l s).bearer l).state = .dialing ∧
      ((orderDial l s).bearer l).inFlight = some ⟨.dial, none⟩ ∧
      ((orderDial l s).bearer l).dialLimit = some (s.within 60000) ∧
      ((orderDial l s).bearer l).alloc = (s.bearer l).alloc := by
  have hgo : orderDial l s = sendDial l s := by
    unfold orderDial
    dsimp only
    rw [h]
  rw [hgo]
  refine ⟨sendCommand_leaves l _ _ s, ?_, ?_, ?_, ?_⟩
  all_goals
    unfold sendDial
    rw [sendCommand_bearer]
  rfl

theorem orderDial_preempting {l : Letter} {a : Allocation} {s : Station} (h : (s.bearer l).state = .ending)
    (ha : (s.bearer l).alloc = some a) (hp : a.preempt = true) :
    s.Leaves (orderDial l s) ∧ ((orderDial l s).bearer l).state = .ending ∧
      ((orderDial l s).bearer l).inFlight = (s.bearer l).inFlight ∧
      ((orderDial l s).bearer l).alloc = some { a with keptDial := true } := by
  have hgo : orderDial l s = setBearer l { s.bearer l with alloc := some { a with keptDial := true } } s := by
    unfold orderDial
    dsimp only
    rw [h, ha]
    exact if_pos hp
  rw [hgo]
  refine ⟨setBearer_leaves l _ s, ?_⟩
  cases l <;> exact ⟨h, rfl, rfl⟩

end Sys2Proof.Machine

/-! PROOFS. Room in the transmit queue while a claim round goes on and ANNOUNCE causes merge (R12, R27). -/

namespace Sys2Proof.Machine

/-! ### The load of the transmit queue -/

/-- The places that the transmit queue has taken, with one for the ANNOUNCE that a cause would queue (R12). -/
def Station.load (s : Station) : Nat := s.line.total + if s.announceQueued then 0 else 1

theorem load_of_line {s t : Station} (h : t.line = s.line) : t.load = s.load := by
  unfold Station.load Station.announceQueued
  rw [h]

theorem total_le_load (s : Station) : s.line.total ≤ s.load := Nat.le_add_right _ _

theorem load_le_total (s : Station) : s.load ≤ s.line.total + 1 := by
  unfold Station.load
  split <;> omega

theorem load_queued {s : Station} (h : s.announceQueued = true) : s.load = s.line.total := by
  unfold Station.load
  rw [if_pos h]
  rfl

theorem load_unqueued {s : Station} (h : s.announceQueued = false) : s.load = s.line.total + 1 := by
  unfold Station.load
  rw [if_neg (by rw [h]; decide)]

theorem mapAnnounce_total (f : TxBody → TxBody) (s : Station) : (mapAnnounce f s).line.total = s.line.total := by
  unfold mapAnnounce Line.total
  simp

/-- A frame handed over where there is room joins the queue, and an ANNOUNCE that stands there stays. -/
theorem handOver_load {b : TxBody} {d : Nat} {s : Station} (h : s.line.total < 8) : (handOver b d s).load ≤ s.load + 1 := by
  by_cases ht : s.takesFrame b d = true
  · have htotal : (handOver b d s).line.total = s.line.total + 1 := by rw [handOver_room ht h, addFrame_total]
    by_cases hq : s.announceQueued = true
    · have hstay : (handOver b d s).announceQueued = true := by
        obtain ⟨g, hg, hann⟩ := (announceQueued_iff s).mp hq
        rw [handOver_room ht h]
        exact (announceQueued_iff _).mpr ⟨g, (addFrame_frames _ _ _).mpr (Or.inr hg), hann⟩
      exact Nat.le_of_eq (by rw [load_queued hstay, load_queued hq, htotal])
    · have hload := load_unqueued (Bool.eq_false_iff.mpr hq)
      have hle := load_le_total (handOver b d s)
      omega
  · have hsame : handOver b d s = s := by
      unfold handOver
      exact if_pos (by rw [Bool.eq_false_iff.mpr ht]; rfl)
    rw [hsame]
    exact Nat.le_succ _

theorem mergeAnnounce_load {x y : Bool} {s : Station} (h : s.load ≤ 8) (hact : s.power.opState = .active) :
    (mergeAnnounce x y s).load ≤ s.load := by
  unfold mergeAnnounce
  split
  · next hq =>
    have hmap : (mapAnnounce (TxBody.mergedWith x y) s).load ≤ s.load := by
      exact Nat.le_of_eq (by rw [load_queued hq, load_queued (mapAnnounce_queued hq), mapAnnounce_total])
    dsimp only
    split
    · exact hmap
    · exact hmap
  · next hq =>
    have hload := load_unqueued (Bool.eq_false_iff.mpr hq)
    have hroom : ({ s with announcing.period := none } : Station).line.total < 8 := by
      change s.line.total < 8
      omega
    have htakes : ({ s with announcing.period := none } : Station).takesFrame (.announce x y) 63 = true :=
      takesFrame_active (s := { s with announcing.period := none }) hact _ _
    have hqueued : (addFrame ⟨.announce x y, 63, 0, false⟩ { s with announcing.period := none }).announceQueued = true :=
      (announceQueued_iff _).mpr ⟨_, (addFrame_frames _ _ _).mpr (Or.inl rfl), rfl⟩
    rw [handOver_room htakes hroom]
    exact Nat.le_of_eq (by rw [load_queued hqueued, addFrame_total, hload])

theorem announceCause_load {y : Bool} {s : Station} (h : s.load ≤ 8) : (announceCause y s).load ≤ s.load := by
  unfold announceCause
  split
  · next hact =>
    split
    · exact Nat.le_refl _
    · exact Nat.le_refl _
    · exact mergeAnnounce_load h hact
    · exact mergeAnnounce_load h hact
  · exact Nat.le_refl _

theorem setEntry_line (c : Circuit) (e : CircuitEntry) (s : Station) : (setEntry c e s).line = s.line := by
  unfold setEntry
  dsimp only
  split <;> rfl

theorem putBearer_load {l : Letter} {r : Bearer} {s : Station} (h : s.load ≤ 8) : (putBearer l r s).load ≤ s.load := by
  unfold putBearer
  dsimp only
  generalize hu : (if (s.bearer l).state == .inCall && r.state != .inCall then removeBearerBridges l s else s) = u
  have hset : (setBearer l r u).load = s.load := by
    refine load_of_line ?_
    rw [← hu]
    cases l <;> (dsimp only [setBearer]; split <;> rfl)
  have hann : (announceCause false (setBearer l r u)).load ≤ s.load := by
    rw [← hset] at h ⊢
    exact announceCause_load h
  split <;> split
  · exact hann
  · exact Nat.le_of_eq hset
  · exact hann
  · exact Nat.le_of_eq hset

/-! ### The steps of a claim round (R27, R28) -/

/-- The station `t` follows `s` by steps of the claim round and by frames, `n` at the most, that they hand over: the calls,
the bearers, the power unit and the clock are the same, and every task stays. -/
structure Station.Rounds (n : Nat) (s t : Station) : Prop where
  call : t.call = s.call
  bearers : t.bearers = s.bearers
  power : t.power = s.power
  clock : t.keep.clock = s.keep.clock
  work : ∀ x ∈ s.work, x ∈ t.work
  load : t.load ≤ s.load + n

theorem Station.Rounds.refl (s : Station) : s.Rounds 0 s := ⟨rfl, rfl, rfl, rfl, fun _ h => h, Nat.le_refl _⟩

theorem Station.Rounds.trans {n m : Nat} {s t u : Station} (h : s.Rounds n t) (h' : t.Rounds m u) : s.Rounds (n + m) u :=
  ⟨h'.call.trans h.call, h'.bearers.trans h.bearers, h'.power.trans h.power,
    h'.clock.trans h.clock, fun x hx => h'.work x (h.work x hx), by have := h.load; have := h'.load; omega⟩

theorem Station.Rounds.mono {n m : Nat} {s t : Station} (h : s.Rounds n t) (hm : n ≤ m) : s.Rounds m t :=
  ⟨h.call, h.bearers, h.power, h.clock, h.work, Nat.le_trans h.load (Nat.add_le_add_left hm _)⟩

theorem Station.Rounds.opState {n : Nat} {s t : Station} (h : s.Rounds n t) : t.power.opState = s.power.opState :=
  congrArg Power.opState h.power

theorem rounds_circuits (v : Circuits) (s : Station) : s.Rounds 0 { s with circuits := v } :=
  ⟨rfl, rfl, rfl, rfl, fun _ h => h, Nat.le_refl _⟩

theorem rounds_post (t : Task) (s : Station) : s.Rounds 0 (post t s) :=
  ⟨rfl, rfl, rfl, rfl, fun _ h => List.mem_append_left _ h, Nat.le_refl _⟩

theorem rounds_requestDraw (c : Consumer) (s : Station) : s.Rounds 0 (requestDraw c s).2 := by
  unfold requestDraw
  repeat' split
  all_goals exact ⟨rfl, rfl, rfl, rfl, fun _ h => h, Nat.le_refl _⟩

theorem rounds_handOver {b : TxBody} {d : Nat} {s : Station} (h : s.line.total < 8) : s.Rounds 1 (handOver b d s) :=
  ⟨core_call_eq (handOver_core b d s), handOver_bearers b d s, handOver_power b d s,
    congrArg StationCore.clock (handOver_core b d s),
    fun _ hx => handOver_notices hx, handOver_load h⟩

theorem announceCause_power (y : Bool) (s : Station) : (announceCause y s).power = s.power := by
  unfold announceCause
  split
  · split
    · rfl
    · rfl
    · exact mergeAnnounce_power false y s
    · exact mergeAnnounce_power false y s
  · rfl

theorem rounds_announceCause {y : Bool} {s : Station} (h : s.load ≤ 8) : s.Rounds 0 (announceCause y s) :=
  ⟨core_call_eq (announceCause_core y s), announceCause_bearers y s, announceCause_power y s,
    congrArg StationCore.clock (announceCause_core y s), fun _ hx => announceCause_notices hx, announceCause_load h⟩

theorem rounds_claimDraw {d : Nat} {s : Station} (h : s.line.total < 8) : s.Rounds 1 (claimDraw d s) := by
  unfold claimDraw
  split
  · next r _ =>
    split
    · exact (rounds_circuits { s.circuits with round := some { r with stage := .claimSent d } } s).trans (rounds_handOver h)
    · exact (Station.Rounds.refl s).mono (Nat.zero_le 1)
  · exact (Station.Rounds.refl s).mono (Nat.zero_le 1)

theorem rounds_beginAttempt {r : Round} {s t : Station} (h : s.line.total < 8) (hb : beginAttempt r s = some t) :
    s.Rounds 1 t := by
  unfold beginAttempt at hb
  split at hb
  · exact nomatch hb
  · next c _ =>
    dsimp only at hb
    generalize hu : ({ s with
      circuits.round := some { r with attempted := r.attempted ++ [c], circuit := c, stage := .waitingDraw } } : Station) = u
      at hb
    have hbegin : s.Rounds 0 u := hu ▸ rounds_circuits _ s
    have hdraw := hbegin.trans (rounds_requestDraw .circuit u)
    have hline : (requestDraw .circuit u).2.line = s.line := (requestDraw_line _ _).trans (by rw [← hu])
    generalize requestDraw .circuit u = p at hb hdraw hline
    obtain ⟨d, v⟩ := p
    cases d with
    | none =>
      obtain rfl := Option.some.inj hb
      exact hdraw.mono (Nat.zero_le 1)
    | some d =>
      obtain rfl := Option.some.inj hb
      exact hdraw.trans (rounds_claimDraw (by rw [hline]; exact h))

theorem rounds_openRound {tag : Tag} {s : Station} (h : s.line.total < 8) : s.Rounds 1 (openRound tag s) := by
  unfold openRound
  dsimp only
  split
  · next hb => exact rounds_beginAttempt h hb
  · exact ((rounds_circuits _ s).trans (rounds_post _ _)).mono (Nat.zero_le 1)

theorem rounds_takeHeldRequest {s : Station} (h : s.line.total < 8) : s.Rounds 1 (takeHeldRequest s) := by
  unfold takeHeldRequest
  split
  · exact (rounds_circuits { s.circuits with request := none } s).trans (rounds_openRound h)
  · exact (Station.Rounds.refl s).mono (Nat.zero_le 1)

theorem rounds_endRound {r : Round} {reason : RoundFailure} {s : Station} (h : s.line.total < 8) :
    s.Rounds 1 (endRound r reason s) := by
  have hclosed := rounds_circuits { s.circuits with round := none } s
  unfold endRound
  dsimp only
  split
  · exact (hclosed.trans (rounds_post _ _)).trans (rounds_takeHeldRequest h)
  · exact hclosed.trans (rounds_takeHeldRequest h)

theorem rounds_attemptLost {s : Station} (h : s.line.total < 8) : s.Rounds 1 (attemptLost s) := by
  unfold attemptLost
  split
  · dsimp only
    split
    · exact rounds_endRound h
    · unfold continueRound
      split
      · next hb => exact rounds_beginAttempt h hb
      · exact rounds_endRound h
  · exact (Station.Rounds.refl s).mono (Nat.zero_le 1)

theorem rounds_setEntry (c : Circuit) (e : CircuitEntry) (s : Station) : s.Rounds 0 (setEntry c e s) := by
  unfold setEntry
  dsimp only
  split
  · exact rounds_circuits _ s
  · exact (rounds_circuits _ s).trans (rounds_post _ _)

/-- A holding adopted takes a place in the queue only where the own attempt contests its circuit. -/
theorem rounds_adoptHolding {c : Circuit} {e : CircuitEntry} {s : Station} (h : s.line.total < 8) :
    s.Rounds (if s.contesting c = true then 1 else 0) (adoptHolding c e s) := by
  have hset := rounds_setEntry c e s
  unfold adoptHolding
  dsimp only
  split
  · next hc => exact hset.trans (rounds_attemptLost (by rw [setEntry_line]; exact h))
  · next hc => exact hset

end Sys2Proof.Machine

/-! PROOFS. BORROW of kind VOICE at the lender (O35): declined, repeated, or accepted. -/

namespace Sys2Proof.Machine

/-! ### What the lending reads -/

theorem bestBearer_of_bearers {q : Bearer → Bool} {s t : Station} (hb : t.bearers = s.bearers)
    (hk : t.keep.config = s.keep.config) : t.bestBearer q = s.bestBearer q := by
  unfold Station.bestBearer Station.fittedBearers Station.fitted Station.config Station.bearer
  rw [hb, hk]

theorem passes_ready (s : Station) (l : Letter) :
    s.passes (readyTest s.config.lendMinimum) l ↔
      (s.fitted l = true ∧ (s.bearer l).state = .available ∧ s.config.lendMinimum ≤ (s.bearer l).grade) ∨
        (s.fitted l = true ∧ (s.bearer l).state = .checking ∧ s.config.lendMinimum ≤ (s.bearer l).grade) := by
  unfold Station.passes
  rw [readyTest_iff, and_or_left]

theorem passes_sending (s : Station) (l : Letter) :
    s.passes (sendingTest s.config.lendMinimum) l ↔
      s.fitted l = true ∧ (s.bearer l).state = .sending ∧ s.config.lendMinimum ≤ (s.bearer l).grade := by
  unfold Station.passes
  rw [sendingTest_iff]

theorem contesting_iff (s : Station) (c : Circuit) :
    s.contesting c = true ↔ ∃ r draw, s.circuits.round = some r ∧ r.stage = .contesting draw ∧ r.circuit = c := by
  unfold Station.contesting Station.ownClaim
  constructor
  · intro h
    split at h
    · next r hr =>
      split at h
      · next draw hstage =>
        split at h
        · next hc => exact ⟨r, draw, hr, hstage, hc⟩
        · exact nomatch h
      · exact nomatch h
    · exact nomatch h
  · rintro ⟨r, draw, hr, hstage, hc⟩
    rw [hr]
    dsimp only
    rw [hstage]
    dsimp only
    rw [if_pos hc]
    rfl

theorem contesting_of_circuits {s t : Station} (h : t.circuits = s.circuits) (c : Circuit) :
    t.contesting c = s.contesting c := by
  rw [Bool.eq_iff_iff, contesting_iff, contesting_iff, h]

theorem circuitOf_some {n : Nat} {c : Circuit} (h : circuitOf n = some c) : n = circuitNumber c := by
  unfold circuitOf at h
  split at h
  · obtain rfl := Option.some.inj h
    unfold circuitNumber
    dsimp only
    omega
  · exact nomatch h

theorem circuitOf_eq_iff (n : Nat) (c : Circuit) : circuitOf n = some c ↔ n = circuitNumber c :=
  ⟨circuitOf_some, fun h => h ▸ circuitOf_circuitNumber c⟩

/-! ### The holding recorded at the lender (R22, R33) -/

/-- The circuit of an accepted BORROW is its origin's from now on, and a holding that stood keeps its start. -/
theorem recordLending_entry {c : Circuit} {tag : Tag} {s : Station} (hown : (s.entry c).own = false)
    (hheld : ∀ h, (s.entry c).holding = some h → h = (tag.origin, tag)) :
    (∀ h t start r, s.entry c = .heldByPeer h t start r →
        (recordLending c tag.origin tag s).entry c = .heldByPeer tag.origin tag start s.now) ∧
      ((∀ h t start r, s.entry c ≠ .heldByPeer h t start r) →
        (recordLending c tag.origin tag s).entry c = .heldByPeer tag.origin tag s.now s.now) := by
  unfold recordLending
  split
  · next he => exact ⟨fun _ _ _ _ h => (nomatch (he.symm.trans h)), fun _ => (adoptHolding_sets _ _ _).1⟩
  · next he => exact ⟨fun _ _ _ _ h => (nomatch (he.symm.trans h)), fun _ => (adoptHolding_sets _ _ _).1⟩
  · next h t start r he =>
    have htag : (h, t) = (tag.origin, tag) := hheld _ (by rw [he]; rfl)
    obtain ⟨rfl, rfl⟩ := Prod.mk.inj htag
    refine ⟨fun h' t' start' r' h => ?_, fun hno => absurd he (hno _ _ _ _)⟩
    obtain ⟨-, -, rfl, -⟩ := CircuitEntry.heldByPeer.inj (he.symm.trans h)
    exact setEntry_entry _ _ _
  · next he =>
    rw [he] at hown
    exact nomatch hown

theorem recordLending_rounds {c : Circuit} {h : Nat} {tag : Tag} {s : Station} (hroom : s.line.total < 8) :
    s.Rounds (if s.contesting c = true then 1 else 0) (recordLending c h tag s) := by
  have hopen := fun e => rounds_adoptHolding (c := c) (e := e) hroom
  generalize (if s.contesting c = true then 1 else 0) = n at hopen
  unfold recordLending
  split
  · exact hopen _
  · exact hopen _
  · exact (rounds_setEntry _ _ s).mono (Nat.zero_le _)
  · exact (Station.Rounds.refl s).mono (Nat.zero_le _)

/-! ### A BORROW accepted (R52, R82) -/

/-- The context of an accepted BORROW. -/
def lentCarrier (tag : Tag) (c : Circuit) (l : Letter) (s : Station) : Carrier :=
  { tag := tag, circuit := c, letter := l, phase := .dialing, lastPartner := s.now, schedule := some (s.within 5000) }

/-- A carrier context joins the table. -/
def addCarrier (k : Carrier) (s : Station) : Station := { s with call.carriers := s.call.carriers ++ [k] }

/-- The table filled may take the lend readiness from the station, which announces it (R12). -/
theorem addCarrier_noted {k : Carrier} {s : Station} (h : s.load ≤ 8) :
    (addCarrier k s).Rounds 0 (notingLendReady (addCarrier k) s) ∧
      (notingLendReady (addCarrier k) s).core = (addCarrier k s).core := by
  unfold notingLendReady
  dsimp only
  split
  · exact ⟨.refl _, rfl⟩
  · exact ⟨rounds_announceCause (s := addCarrier k s) h, announceCause_core _ _⟩

/-- The accepted BORROW up to its LEND, before the order to dial. -/
def lent (tag : Tag) (c : Circuit) (l : Letter) (s : Station) : Station :=
  sendLend (lentCarrier tag c l s)
    (recordLending c tag.origin tag (notingLendReady (addCarrier (lentCarrier tag c l s)) s))

theorem acceptBorrow_lent (tag : Tag) (c : Circuit) (l : Letter) (s : Station) :
    acceptBorrow tag c l s = orderDial l (lent tag c l s) := rfl

/-- What a BORROW accepted at `s` holds at `u`, but for the bearer. -/
structure Station.Lends (s u : Station) (tag : Tag) (c : Circuit) (l : Letter) : Prop where
  call : u.call = { s.call with carriers := s.call.carriers ++ [lentCarrier tag c l s] }
  stood : ∀ h t start r, s.entry c = .heldByPeer h t start r → u.entry c = .heldByPeer tag.origin tag start s.now
  fresh : (∀ h t start r, s.entry c ≠ .heldByPeer h t start r) → u.entry c = .heldByPeer tag.origin tag s.now s.now
  lend : u.holdsFrame (.lendCall tag l (s.bearer l).networkId) tag.origin = true
  work : ∀ x ∈ s.work, x ∈ u.work

theorem lent_effect {tag : Tag} {c : Circuit} {l : Letter} {s : Station} (hact : s.power.opState = .active)
    (hown : (s.entry c).own = false) (hheld : ∀ h, (s.entry c).holding = some h → h = (tag.origin, tag))
    (hload : s.load + (if s.contesting c = true then 1 else 0) ≤ 7) :
    s.Lends (lent tag c l s) tag c l ∧ (lent tag c l s).bearers = s.bearers ∧
      (lent tag c l s).keep.clock = s.keep.clock := by
  obtain ⟨hnoted, hcore⟩ := addCarrier_noted (k := lentCarrier tag c l s) (s := s) (by omega)
  unfold lent
  generalize notingLendReady (addCarrier (lentCarrier tag c l s)) s = t at hnoted hcore
  have hcircuits : t.circuits = s.circuits := congrArg StationCore.circuits hcore
  have hclock : t.now = s.now := congrArg StationCore.clock hcore
  have hentry : t.entry c = s.entry c := congrArg (fun v : Circuits => v.view.get c) hcircuits
  have htload : t.load ≤ s.load := hnoted.load
  have hroom : t.line.total < 8 := by have := total_le_load t; omega
  obtain ⟨hstood, hfresh⟩ := recordLending_entry (tag := tag) (by rw [hentry]; exact hown) (by rw [hentry]; exact hheld)
  have hrec := hnoted.trans (recordLending_rounds (c := c) (h := tag.origin) (tag := tag) hroom)
  rw [contesting_of_circuits hcircuits] at hrec
  rw [hentry, hclock] at hstood hfresh
  generalize recordLending c tag.origin tag t = v at hstood hfresh hrec
  have hvload : v.load ≤ s.load + (0 + if s.contesting c = true then 1 else 0) := hrec.load
  have hvroom : v.line.total < 8 := by have := total_le_load v; omega
  have hbearers : v.bearers = s.bearers := hrec.bearers
  have hsame : ∀ d b w, (handOver b d v).entry w = v.entry w := fun d b w =>
    entry_of_view (congrArg (fun k : StationCore => k.circuits.view) (handOver_core b d v)) w
  have hbearer : (s.bearer l).networkId = (v.bearer l).networkId := by
    unfold Station.bearer
    rw [hbearers]
  refine ⟨⟨?_, fun h w start r he => (hsame _ _ _).trans (hstood h w start r he), fun hno => (hsame _ _ _).trans (hfresh hno),
    ?_, fun x hx => handOver_notices (hrec.work x hx)⟩, ?_, ?_⟩
  · exact (core_call_eq (handOver_core _ _ v)).trans hrec.call
  · rw [hbearer]
    exact handOver_holds (takesFrame_active (hrec.opState.trans hact) _ _) hvroom
  · exact (handOver_bearers _ _ v).trans hbearers
  · exact (congrArg StationCore.clock (handOver_core _ _ v)).trans hrec.clock

/-- The order to dial keeps what the accepted BORROW holds. -/
theorem Station.Lends.leaves {s t u v : Station} {tag : Tag} {c : Circuit} {l : Letter} (h : t.Lends u tag c l)
    (ht : s.Leaves t) (hn : (t.bearer l).networkId = (s.bearer l).networkId) (hu : u.Leaves v) : s.Lends v tag c l := by
  have hk : lentCarrier tag c l t = lentCarrier tag c l s := by
    unfold lentCarrier Station.within Station.now
    rw [ht.clock]
  have hentry : t.entry c = s.entry c := congrArg (fun k : Circuits => k.view.get c) ht.circuits
  have hafter : v.entry c = u.entry c := congrArg (fun k : Circuits => k.view.get c) hu.circuits
  have hnow : t.now = s.now := ht.clock
  refine ⟨?_, fun a w start r he => ?_, fun hno => ?_, ?_, fun x hx => hu.notices x (h.work x (ht.notices x hx))⟩
  · rw [hu.call, h.call, ht.call, hk]
  · rw [hafter, h.stood a w start r (hentry.trans he), hnow]
  · rw [hafter, h.fresh (fun a w start r he => hno a w start r (hentry.symm.trans he)), hnow]
  · rw [← hn]
    exact hu.frames _ _ rfl h.lend

section
variable {tag : Tag} {c : Circuit} {l : Letter} {s : Station} (hact : s.power.opState = .active)
  (hown : (s.entry c).own = false) (hheld : ∀ h, (s.entry c).holding = some h → h = (tag.origin, tag))
  (hload : s.load + (if s.contesting c = true then 1 else 0) ≤ 7)
include hact hown hheld hload

/-- The claimed bearer is not yet ordered to dial when LEND is queued. -/
theorem lent_claimed {t : Station} (ht : s.Leaves t) (htload : t.load ≤ s.load) :
    t.Lends (lent tag c l t) tag c l ∧ (lent tag c l t).bearer l = t.bearer l ∧
      (lent tag c l t).within 60000 = s.within 60000 := by
  have hentry : t.entry c = s.entry c := congrArg (fun k : Circuits => k.view.get c) ht.circuits
  obtain ⟨hlends, hbearers, hclock⟩ := lent_effect (l := l) (ht.opState.trans hact) (by rw [hentry]; exact hown)
    (by rw [hentry]; exact hheld) (by rw [contesting_of_circuits ht.circuits]; omega)
  refine ⟨hlends, ?_, ?_⟩
  · unfold Station.bearer
    rw [hbearers]
  · unfold Station.within Station.now
    rw [hclock, ht.clock]

/-- A BORROW accepted with a bearer that is free dials at once. -/
theorem acceptBorrow_reserved (who : Claimant) :
    s.Lends (acceptBorrow tag c l (reserve l who s)) tag c l ∧
      ((acceptBorrow tag c l (reserve l who s)).bearer l).state = .dialing ∧
      ((acceptBorrow tag c l (reserve l who s)).bearer l).inFlight = some ⟨.dial, none⟩ ∧
      ((acceptBorrow tag c l (reserve l who s)).bearer l).dialLimit = some (s.within 60000) ∧
      ((acceptBorrow tag c l (reserve l who s)).bearer l).alloc = some (voiceAllocation who false) := by
  obtain ⟨hleaves, hstate, halloc, hnet⟩ := reserve_effect l who s
  have hsent : (reserve l who s).load ≤ s.load := putBearer_load (by omega)
  obtain ⟨hlends, hrec, hnow⟩ := lent_claimed (l := l) hact hown hheld hload hleaves hsent
  obtain ⟨hdial, hdialing, hflight, hlimit, hkept⟩ := orderDial_reserved (by rw [hrec]; exact hstate)
  rw [acceptBorrow_lent]
  exact ⟨hlends.leaves hleaves hnet hdial, hdialing, hflight, hlimit.trans (by rw [hnow]), hkept.trans (by rw [hrec, halloc])⟩

/-- A BORROW accepted with a bearer that sends a report preempts it, and the order to dial waits. -/
theorem acceptBorrow_preempting (who : Claimant) :
    s.Lends (acceptBorrow tag c l (preempt l who s)) tag c l ∧
      ((acceptBorrow tag c l (preempt l who s)).bearer l).state = .ending ∧
      ((acceptBorrow tag c l (preempt l who s)).bearer l).inFlight = some ⟨.hangup, some (s.within 5000)⟩ ∧
      ((acceptBorrow tag c l (preempt l who s)).bearer l).alloc = some { voiceAllocation who true with keptDial := true } ∧
      ∀ a, (s.bearer l).alloc = some a → .notice a.who l .preempted ∈ (acceptBorrow tag c l (preempt l who s)).work := by
  obtain ⟨hleaves, hstate, hflight, halloc, hnet, hnotice⟩ := preempt_effect l who s
  have hnotified : (notify l .preempted s).load = s.load := load_of_line (notify_line _ _ _)
  have hsent : (preempt l who s).load ≤ s.load :=
    have hroom : (emit (.port l (commandMessage .hangup)) (notify l .preempted s)).load ≤ 8 :=
      Nat.le_trans (Nat.le_of_eq hnotified) (by omega)
    Nat.le_trans (putBearer_load hroom) (Nat.le_of_eq hnotified)
  obtain ⟨hlends, hrec, -⟩ := lent_claimed (l := l) hact hown hheld hload hleaves hsent
  obtain ⟨hdial, hending, hkept, hdials⟩ := orderDial_preempting (by rw [hrec]; exact hstate)
    (by rw [hrec]; exact halloc) rfl
  rw [acceptBorrow_lent]
  refine ⟨hlends.leaves hleaves hnet hdial, hending, hkept.trans (by rw [hrec, hflight]), hdials, fun a ha => ?_⟩
  exact hdial.notices _ (hlends.work _ (hnotice a ha))

end

/-! ### The judgement of a BORROW (R82, R83) -/

theorem recordable_iff {c : Circuit} {o : Nat} {tag : Tag} {s : Station} :
    s.recordable c o tag = true ↔ ∀ h, (s.entry c).holding = some h → h = (o, tag) := by
  unfold Station.recordable
  cases (s.entry c).holding with
  | none => exact ⟨fun _ _ h => (nomatch h), fun _ => rfl⟩
  | some h =>
    dsimp only
    rw [decide_eq_true_iff]
    exact ⟨fun e g hg => Option.some.inj hg ▸ e, fun e => e h rfl⟩

theorem judgeBorrow_badCircuit {tag : Tag} {n : Nat} {s : Station}
    (h : ∀ c, n = circuitNumber c → s.directory.effective < n) :
    judgeBorrow tag n s = handOver (.declineCall tag .badCircuit) tag.origin s := by
  unfold judgeBorrow
  cases hc : circuitOf n with
  | none => rfl
  | some c => exact if_pos (h c (circuitOf_some hc))

section
variable {tag : Tag} {c : Circuit} {s : Station} (hle : circuitNumber c ≤ s.directory.effective)
include hle

theorem judgeBorrow_conflict {h : Nat × Tag} (hh : (s.entry c).holding = some h) (hne : h ≠ (tag.origin, tag)) :
    judgeBorrow tag (circuitNumber c) s = handOver (.declineCall tag .circuitConflict) tag.origin s := by
  have hrec : ¬ s.recordable c tag.origin tag = true := fun x => hne (recordable_iff.mp x h hh)
  unfold judgeBorrow
  rw [circuitOf_circuitNumber]
  dsimp only
  rw [if_neg (Nat.not_lt.mpr hle), if_pos (by rw [Bool.eq_false_iff.mpr hrec]; rfl)]

variable (hheld : ∀ h, (s.entry c).holding = some h → h = (tag.origin, tag))
include hheld

theorem judgeBorrow_busy (h : 2 ≤ s.call.carriers.length) :
    judgeBorrow tag (circuitNumber c) s = handOver (.declineCall tag .busy) tag.origin s := by
  unfold judgeBorrow
  rw [circuitOf_circuitNumber]
  dsimp only
  rw [if_neg (Nat.not_lt.mpr hle), if_neg (by rw [recordable_iff.mpr hheld]; decide), if_pos h]

variable (hroom : s.call.carriers.length < 2)
include hroom

theorem judgeBorrow_claims {l : Letter} {t : Station}
    (h : claimVoice (.carrier tag) s.config.lendMinimum s = (some l, t)) :
    judgeBorrow tag (circuitNumber c) s = acceptBorrow tag c l t := by
  unfold judgeBorrow
  rw [circuitOf_circuitNumber]
  dsimp only
  rw [if_neg (Nat.not_lt.mpr hle), if_neg (by rw [recordable_iff.mpr hheld]; decide), if_neg (Nat.not_le.mpr hroom), h]

theorem judgeBorrow_noBearer (h : claimVoice (.carrier tag) s.config.lendMinimum s = (none, s)) :
    judgeBorrow tag (circuitNumber c) s = handOver (.declineCall tag .noBearer) tag.origin s := by
  unfold judgeBorrow
  rw [circuitOf_circuitNumber]
  dsimp only
  rw [if_neg (Nat.not_lt.mpr hle), if_neg (by rw [recordable_iff.mpr hheld]; decide), if_neg (Nat.not_le.mpr hroom), h]

end

section
variable {a n : Nat} {tag : Tag} {s : Station} (hact : s.power.opState = .active) (hpeer : s.isPeer a = true)
  (htag : tag.origin = a)
include hact hpeer htag

theorem takeBorrow_new (h : s.carrier? tag = none) : takeBorrow a ⟨tag, n⟩ s = judgeBorrow tag n s := by
  unfold takeBorrow
  rw [if_pos ⟨hact, hpeer, htag⟩]
  dsimp only
  rw [h]

variable {k : Carrier} (hk : s.carrier? tag = some k)
include hk

theorem takeBorrow_ending (h : k.phase = .ending) :
    takeBorrow a ⟨tag, n⟩ s = handOver (.declineCall tag .busy) a s := by
  unfold takeBorrow
  rw [if_pos ⟨hact, hpeer, htag⟩]
  dsimp only
  rw [hk]
  exact if_pos h

theorem takeBorrow_repeated (h : k.phase ≠ .ending) (hn : n = circuitNumber k.circuit) :
    takeBorrow a ⟨tag, n⟩ s = sendLend k (updCarrier tag (fun k => { k with lastPartner := s.now }) s) := by
  unfold takeBorrow
  rw [if_pos ⟨hact, hpeer, htag⟩]
  dsimp only
  rw [hk]
  dsimp only
  rw [if_neg h, if_pos ((circuitOf_eq_iff n k.circuit).mpr hn)]

theorem takeBorrow_otherCircuit (h : k.phase ≠ .ending) (hn : n ≠ circuitNumber k.circuit) :
    takeBorrow a ⟨tag, n⟩ s = handOver (.declineCall tag .busy) a (originCleared k s) := by
  unfold takeBorrow
  rw [if_pos ⟨hact, hpeer, htag⟩]
  dsimp only
  rw [hk]
  dsimp only
  rw [if_neg h, if_neg fun e => hn ((circuitOf_eq_iff n k.circuit).mp e)]

end

theorem carrier?_tag {tag : Tag} {k : Carrier} {s : Station} (h : s.carrier? tag = some k) : k.tag = tag := by
  have hp := List.find?_some h
  exact beq_iff_eq.mp hp

end Sys2Proof.Machine

/-! PROOFS. BORROW of kind VOICE at the lender (O35): the whole command. -/

namespace Sys2Proof.Machine

/-- What a BORROW of a peer is settled in: the station that has heard it. -/
theorem borrowVoice_runs {f : RxFrame} {b : VoiceBody} {s : State} (h : s.station.Hears 5 f)
    (hd : s.station.isOwn f.dest.toNat = true) (hb : readBorrowVoice f.body = some b) :
    exec (.borrowVoice f) s =
      .next { s with station := finish (takeBorrow f.source.toNat b (heardFrom f.source.toNat s.station)) } := by
  change execBorrowVoice f s = _
  unfold execBorrowVoice
  exact takeAddressed_heard h hd hb

theorem heardFrom_fitted (a : Nat) (l : Letter) (s : Station) : (heardFrom a s).fitted l = s.fitted l := by
  unfold Station.fitted Station.config
  rw [heardFrom_keep]

theorem heardFrom_config (a : Nat) (s : Station) : (heardFrom a s).config = s.config := by
  unfold Station.config
  rw [heardFrom_keep]

theorem heardFrom_bestBearer (a : Nat) (q : Bearer → Bool) (s : Station) :
    (heardFrom a s).bestBearer q = s.bestBearer q :=
  bestBearer_of_bearers (heardFrom_bearers a s) (by rw [heardFrom_keep])

theorem heardFrom_contesting (a : Nat) (c : Circuit) (s : Station) : (heardFrom a s).contesting c = s.contesting c :=
  contesting_of_circuits (heardFrom_circuits a s) c

theorem heardFrom_lentCarrier (a : Nat) (tag : Tag) (c : Circuit) (l : Letter) (s : Station) :
    lentCarrier tag c l (heardFrom a s) = lentCarrier tag c l s := by
  unfold lentCarrier
  rw [heardFrom_now, heardFrom_within]

theorem heardFrom_carrier? (a : Nat) (tag : Tag) (s : Station) : (heardFrom a s).carrier? tag = s.carrier? tag := by
  unfold Station.carrier?
  rw [heardFrom_call]

/-- LEND repeated: the partner is heard now, and nothing else changes. -/
theorem finish_lendRepeated {a : Nat} {k : Carrier} {s : Station} (hact : s.power.opState = .active)
    (hp : s.power.progress ≠ .waitingEntry) (hroom : s.line.total < 8) :
    (finish (sendLend k (updCarrier k.tag (fun q => { q with lastPartner := s.now }) (heardFrom a s)))).core =
        { s.core with
          directory := (refreshPeer a s).directory
          call :=
            { s.call with
              carriers := s.call.carriers.map fun q => if q.tag = k.tag then { q with lastPartner := s.now } else q } } ∧
      (finish (sendLend k (updCarrier k.tag (fun q => { q with lastPartner := s.now }) (heardFrom a s)))).holdsFrame
        (.lendCall k.tag k.letter (s.bearer k.letter).networkId) k.tag.origin = true := by
  generalize hu : updCarrier k.tag (fun q => { q with lastPartner := s.now }) (heardFrom a s) = u
  have hcore : u.core =
      { s.core with
        directory := (refreshPeer a s).directory
        call :=
          { s.call with
            carriers := s.call.carriers.map fun q => if q.tag = k.tag then { q with lastPartner := s.now } else q } } := by
    rw [← hu]
    unfold updCarrier
    rw [heardFrom_call]
    have hheard := heardFrom_core a s
    rw [heardFrom_directory] at hheard
    exact congrArg (fun v : StationCore => { v with call := { s.call with
      carriers := s.call.carriers.map fun q : Carrier => if q.tag = k.tag then { q with lastPartner := s.now } else q } }) hheard
  have hlight : u.light := light_of_nil (by rw [← hu]; exact heardFrom_work a s)
  have hpower : u.power = s.power := by rw [← hu]; exact heardFrom_power a s
  have htotal : u.line.total = s.line.total := by rw [← hu]; exact heardFrom_total a s
  have hbearer : u.bearer k.letter = s.bearer k.letter := by rw [← hu]; exact heardFrom_bearer a _ s
  have hlend : (sendLend k u).light := handOver_light _ rfl hlight
  have hprog : (sendLend k u).power.progress ≠ .waitingEntry := by
    unfold sendLend
    rw [handOver_power, hpower]
    exact hp
  refine ⟨?_, finish_holds rfl hlend hprog ?_⟩
  · rw [finish_core hlend hprog]
    exact (handOver_core _ _ _).trans hcore
  · rw [← hbearer]
    exact handOver_holds (takesFrame_active (by rw [hpower]; exact hact) _ _) (by omega)

/-- Another circuit than the context's ends the context as its origin's CLEAR does (R83). -/
theorem otherCircuit_effect {k : Carrier} {d : Nat} {s : Station} (hk : k.phase ≠ .ending) (hact : s.power.opState = .active)
    (hroom : s.line.total < 7) :
    (∀ q ∈ (handOver (.declineCall k.tag .busy) d (originCleared k s)).call.carriers,
        q.tag = k.tag → q.phase = .ending ∧ q.schedule = none) ∧
      (∀ b ∈ (handOver (.declineCall k.tag .busy) d (originCleared k s)).audio, b.owner ≠ .carrier k.tag) ∧
      (handOver (.declineCall k.tag .busy) d (originCleared k s)).holdsFrame (.declineCall k.tag .busy) d = true := by
  obtain ⟨hcarriers, haudio, -⟩ := originCleared_effect (s := s) hk
  have hclosed : originCleared k s = closeCarrier k.tag (releaseFor (.carrier k.tag) k.letter s) := if_neg hk
  have htotal : (originCleared k s).line.total ≤ s.line.total + 1 := by
    rw [hclosed]
    exact releaseFor_total (by omega)
  have hstate : (originCleared k s).power.opState = .active := by
    rw [hclosed]
    exact (congrArg Kept.opState (releaseFor_kept (.carrier k.tag) k.letter s) :).trans hact
  generalize originCleared k s = t at hcarriers haudio htotal hstate
  refine ⟨?_, ?_, handOver_holds (takesFrame_active hstate _ _) (by omega)⟩
  · rw [core_call_eq (handOver_core _ _ t)]
    exact hcarriers
  · rw [show (handOver (.declineCall k.tag .busy) d t).audio = t.audio from congrArg StationCore.audio (handOver_core _ _ t)]
    exact haudio

section
variable {f : RxFrame} {tag : Tag} {c : Circuit} {s : State}

/-- The station that has heard a BORROW can accept it. -/
theorem heard_accepts (a : Nat) (hact : s.station.power.opState = .active) (hroom : s.station.line.total < 7)
    (hcontest : s.station.contesting c = true → s.station.line.total < 6) (hown : (s.station.entry c).own = false)
    (hheld : ∀ h, (s.station.entry c).holding = some h → h = (tag.origin, tag)) :
    (heardFrom a s.station).power.opState = .active ∧ ((heardFrom a s.station).entry c).own = false ∧
      (∀ h, ((heardFrom a s.station).entry c).holding = some h → h = (tag.origin, tag)) ∧
      (heardFrom a s.station).load + (if (heardFrom a s.station).contesting c = true then 1 else 0) ≤ 7 := by
  refine ⟨heardFrom_active hact a, by rw [heardFrom_entry]; exact hown, by rw [heardFrom_entry]; exact hheld, ?_⟩
  have hload := load_le_total (heardFrom a s.station)
  rw [heardFrom_total] at hload
  rw [heardFrom_contesting]
  split
  · next hc => have := hcontest hc; omega
  · omega

end

/-- Settles O35: a BORROW of kind VOICE is declined, accepted, or answered again. -/
theorem borrowIsAccepted : Obligations.BorrowIsAccepted := by
  intro f tag n s h hdest hb htag hroom core declines fits ready best accepted
  have hact : s.station.power.opState = .active := h.2.1
  have hpeer : (heardFrom f.source.toNat s.station).isPeer f.source.toNat = true := by
    rw [heardFrom_isPeer]
    exact isPeer_of_hears h
  have hactive := heardFrom_active hact f.source.toNat
  have hprogress : s.station.power.progress ≠ .waitingEntry := h.1.2.2
  have hrun := borrowVoice_runs h hdest hb
  have hanswer : ∀ reason, takeBorrow f.source.toNat ⟨tag, n⟩ (heardFrom f.source.toNat s.station) =
      handOver (.declineCall tag reason) tag.origin (heardFrom f.source.toNat s.station) → declines reason := by
    intro reason he
    rw [he] at hrun
    obtain ⟨hcore, hholds⟩ := finish_answer (a := f.source.toNat) (d := tag.origin) (b := .declineCall tag reason) hact
      hprogress (by omega) rfl rfl
    exact ⟨_, hrun, hcore, hholds⟩
  refine ⟨fun hnew => ?_, fun k hk => ?_⟩
  · have hjudge := takeBorrow_new (n := n) hactive hpeer htag (by rw [heardFrom_carrier?]; exact hnew)
    refine ⟨fun hbad => hanswer _ (hjudge.trans (judgeBorrow_badCircuit ?_)), fun c hn hle => ?_⟩
    · rw [heardFrom_effective]
      exact hbad
    subst hn
    have hle' : circuitNumber c ≤ (heardFrom f.source.toNat s.station).directory.effective := by
      rw [heardFrom_effective]
      exact hle
    refine ⟨fun g hg hne => ?_, fun hheld => ?_⟩
    · exact hanswer _ (hjudge.trans (judgeBorrow_conflict hle' (by rw [heardFrom_entry]; exact hg) hne))
    have hheld' : ∀ g, ((heardFrom f.source.toNat s.station).entry c).holding = some g → g = (tag.origin, tag) := by
      rw [heardFrom_entry]
      exact hheld
    refine ⟨fun hfull => ?_, fun hfew => ?_⟩
    · exact hanswer _ (hjudge.trans (judgeBorrow_busy hle' hheld' (by rw [heardFrom_call]; exact hfull)))
    have hfew' : (heardFrom f.source.toNat s.station).call.carriers.length < 2 := by
      rw [heardFrom_call]
      exact hfew
    have hready : ∀ l, s.station.passes (readyTest s.station.config.lendMinimum) l ↔ ready l := passes_ready s.station
    have hsending : ∀ l, s.station.passes (sendingTest s.station.config.lendMinimum) l ↔ fits .sending l :=
      passes_sending s.station
    have hreadies : s.station.passes (readyTest s.station.config.lendMinimum) = ready := funext fun l => propext (hready l)
    have hsendings : s.station.passes (sendingTest s.station.config.lendMinimum) = fits .sending :=
      funext fun l => propext (hsending l)
    refine ⟨fun hnone => ?_, fun hown hcontest => ?_⟩
    · refine hanswer _ (hjudge.trans (judgeBorrow_noBearer hle' hheld' hfew' (claimVoice_refused ?_ ?_)))
      · rw [heardFrom_bestBearer, heardFrom_config]
        exact bestBearer_none fun l hl => (hnone l).1 ((hready l).mp hl)
      · rw [heardFrom_bestBearer, heardFrom_config]
        exact bestBearer_none fun l hl => (hnone l).2 ((hsending l).mp hl)
    obtain ⟨-, hown', -, hload⟩ := heard_accepts (tag := tag) f.source.toNat hact hroom hcontest hown hheld
    have haccepted : ∀ l preempts u,
        exec (.borrowVoice f) s = .next { s with station := finish u } →
        (heardFrom f.source.toNat s.station).Lends u tag c l →
        (u.bearer l).alloc = some { who := .carrier tag, redialUsed := false, preempt := preempts, keptDial := preempts } →
        accepted c l preempts u := by
      intro l preempts u hgo hlends halloc
      refine ⟨hgo, ?_, ?_, halloc, ?_, ?_⟩
      · rw [hlends.call, heardFrom_lentCarrier, heardFrom_call]
        rfl
      · split
        · next he => rw [hlends.stood _ _ _ _ ((heardFrom_entry _ _ _).trans he), heardFrom_now]
        · next hno =>
          rw [hlends.fresh (fun a w start r he => hno a w start r ((heardFrom_entry _ _ _).symm.trans he)), heardFrom_now]
      · rw [← heardFrom_bearer f.source.toNat l s.station]
        exact hlends.lend
      · rw [hlends.call, heardFrom_call]
    refine ⟨fun m hm => ?_, fun hno m hm => ?_⟩
    · obtain ⟨l, hl, hbest⟩ := exists_best ((hready m).mpr hm)
      have hclaim : claimVoice (.carrier tag) (heardFrom f.source.toNat s.station).config.lendMinimum
          (heardFrom f.source.toNat s.station) =
            (some l, reserve l (.carrier tag) (heardFrom f.source.toNat s.station)) := by
        refine claimVoice_ready ?_
        rw [heardFrom_bestBearer, heardFrom_config]
        exact bestBearer_iff hl hbest
      rw [hjudge, judgeBorrow_claims hle' hheld' hfew' hclaim] at hrun
      obtain ⟨hlends, hdialing, hflight, hlimit, halloc⟩ :=
        acceptBorrow_reserved (l := l) hactive hown' hheld' hload (.carrier tag)
      refine ⟨_, l, ⟨(hready l).mp hl, hreadies ▸ hbest⟩, haccepted l false _ hrun hlends halloc, hdialing, hflight, ?_⟩
      rw [hlimit, heardFrom_within]
    · obtain ⟨l, hl, hbest⟩ := exists_best ((hsending m).mpr hm)
      have hclaim : claimVoice (.carrier tag) (heardFrom f.source.toNat s.station).config.lendMinimum
          (heardFrom f.source.toNat s.station) =
            (some l, preempt l (.carrier tag) (heardFrom f.source.toNat s.station)) := by
        refine claimVoice_sending ?_ ?_
        · rw [heardFrom_bestBearer, heardFrom_config]
          exact bestBearer_none fun w hw => hno w ((hready w).mp hw)
        · rw [heardFrom_bestBearer, heardFrom_config]
          exact bestBearer_iff hl hbest
      rw [hjudge, judgeBorrow_claims hle' hheld' hfew' hclaim] at hrun
      obtain ⟨hlends, hending, hflight, halloc, hnotice⟩ :=
        acceptBorrow_preempting (l := l) hactive hown' hheld' hload (.carrier tag)
      refine ⟨_, l, ⟨(hsending l).mp hl, hsendings ▸ hbest⟩, haccepted l true _ hrun hlends halloc, hending, ?_,
        fun a ha => hnotice a (by rw [heardFrom_bearer]; exact ha)⟩
      rw [hflight, heardFrom_within]
  · have hk' : (heardFrom f.source.toNat s.station).carrier? tag = some k := by
      rw [heardFrom_carrier?]
      exact hk
    obtain rfl := carrier?_tag hk
    refine ⟨fun hending => ?_, fun hphase hn => ?_, fun hphase hn => ?_⟩
    · refine hanswer _ ((takeBorrow_ending hactive hpeer htag hk' hending).trans ?_)
      rw [htag]
    · rw [takeBorrow_repeated hactive hpeer htag hk' hphase hn, heardFrom_now] at hrun
      obtain ⟨hcore, hholds⟩ := finish_lendRepeated (a := f.source.toNat) (k := k) hact hprogress (by omega)
      exact ⟨_, hrun, hcore, hholds⟩
    · rw [takeBorrow_otherCircuit hactive hpeer htag hk' hphase hn, ← htag] at hrun
      exact ⟨_, hrun, otherCircuit_effect hphase (htag ▸ hactive) (by rw [heardFrom_total]; exact hroom)⟩

end Sys2Proof.Machine

/-! PROOFS. The route of a call (O26): the own bearer dialled, the end of a round, and the end of borrowing (R52, R68, R72,
R77). -/

namespace Sys2Proof.Machine

/-! ### What the choice of a route reads -/

/-- A fitted bearer of a grade, in a state. -/
def Station.fits (s : Station) (minimum : Nat) (state : BearerState) (l : Letter) : Prop :=
  s.fitted l = true ∧ (s.bearer l).state = state ∧ minimum ≤ (s.bearer l).grade

/-- A bearer that a claim takes at once. -/
def Station.readyFor (s : Station) (minimum : Nat) (l : Letter) : Prop :=
  s.fits minimum .available l ∨ s.fits minimum .checking l

theorem passes_readyTest (s : Station) (minimum : Nat) : s.passes (readyTest minimum) = s.readyFor minimum := by
  funext l
  unfold Station.passes Station.readyFor Station.fits
  rw [readyTest_iff, and_or_left]

theorem passes_sendingTest (s : Station) (minimum : Nat) : s.passes (sendingTest minimum) = s.fits minimum .sending := by
  funext l
  unfold Station.passes Station.fits
  rw [sendingTest_iff]

/-- A bearer that passes a test and is outranked by none that does. -/
def Station.best (s : Station) (p : Letter → Prop) (l : Letter) : Prop := p l ∧ s.outranksNone p l

/-- A round that ends in PAUSED (R77). -/
def Station.Pauses (s : Station) (o : Origin) (u : Station) : Prop :=
  o.phase ≠ .recovering →
    u.call.origin =
      some { o with phase := .paused, phaseDeadline := some (s.within 5000), carrier := .absent, schedule := none }

/-- The own bearer that the origin context dials on. -/
def Station.DialsOn (o : Origin) (u : Station) (l : Letter) (preempts : Bool) : Prop :=
  u.call.origin = some (Origin.enter .dialingLocal none { o with localTried := true, carrier := .own l }) ∧
    (u.bearer l).alloc =
      some { who := .origin o.tag, redialUsed := false, preempt := preempts, keptDial := preempts }

/-- The local route taken with a minimum grade (R68). -/
def Station.Dials (s : Station) (minimum : Nat) (o : Origin) (u : Station) : Prop :=
  (∀ l, s.best (s.readyFor minimum) l →
      Station.DialsOn o u l false ∧ (u.bearer l).state = .dialing ∧ (u.bearer l).inFlight = some ⟨.dial, none⟩ ∧
        (u.bearer l).dialLimit = some (s.within 60000)) ∧
    ((∀ l, ¬ s.readyFor minimum l) →
      (∀ l, s.best (s.fits minimum .sending) l →
        Station.DialsOn o u l true ∧ (u.bearer l).state = .ending ∧
          (u.bearer l).inFlight = some ⟨.hangup, some (s.within 5000)⟩) ∧
      ((∀ l, ¬ s.fits minimum .sending l) →
        (s.power.opState = .active → u.call.origin = some { o with localTried := true } ∧ .borrow o.tag ∈ u.work) ∧
        (¬ s.power.opState = .active → s.Pauses { o with localTried := true } u)))

/-- Two stations that the local route reads alike. -/
structure Station.Alike (s t : Station) : Prop where
  kept : t.kept = s.kept
  bearers : t.bearers = s.bearers

namespace Station.Alike
variable {s t : Station} (h : s.Alike t)
include h

theorem clock : t.keep.clock = s.keep.clock := congrArg Kept.clock h.kept
theorem config : t.keep.config = s.keep.config := congrArg Kept.config h.kept
theorem opState : t.power.opState = s.power.opState := congrArg Kept.opState h.kept
theorem directory : t.directory = s.directory := congrArg Kept.directory h.kept

theorem bearer : t.bearer = s.bearer := by
  funext l
  unfold Station.bearer
  rw [h.bearers]

theorem fits : t.fits = s.fits := by
  unfold Station.fits Station.fitted Station.config
  rw [h.bearer, h.config]

theorem readyFor : t.readyFor = s.readyFor := by
  unfold Station.readyFor
  rw [h.fits]

theorem best : t.best = s.best := by
  unfold Station.best Station.outranksNone
  rw [h.bearer]

theorem within : t.within = s.within := by
  funext d
  unfold Station.within Station.now
  rw [h.clock]

theorem dials : t.Dials = s.Dials := by
  unfold Station.Dials Station.Pauses
  rw [h.readyFor, h.fits, h.best, h.within, h.opState]

theorem pauses : t.Pauses = s.Pauses := by
  unfold Station.Pauses
  rw [h.within]

end Station.Alike

/-! ### The held circuit released (R30) -/

theorem releaseHeld_alike (c : Circuit) (r : ClearReason) (d : Nat) (s : Station) : s.Alike (releaseHeld c r d s) := by
  refine ⟨releaseHeld_kept c r d s, ?_⟩
  unfold releaseHeld
  split
  · dsimp only
    rw [announceCause_bearers, handOver_bearers]
    exact (rounds_setEntry c .free s).bearers
  · rfl

theorem releaseCircuit_none {r : ClearReason} {d : Nat} {s : Station} (h : s.ownCircuit = none) :
    releaseCircuit r d s = s := by
  unfold releaseCircuit
  rw [h]

theorem releaseCircuit_alike (r : ClearReason) (d : Nat) (s : Station) : s.Alike (releaseCircuit r d s) := by
  cases h : s.ownCircuit with
  | none => rw [releaseCircuit_none h]; exact ⟨rfl, rfl⟩
  | some c => rw [releaseCircuit_held h]; exact releaseHeld_alike c r d s

/-- The release stops the schedule of the context, which stands. -/
theorem releaseCircuit_origin {o : Origin} {c : Circuit} {s : Station} (ho : s.call.origin = some o)
    (hc : s.ownCircuit = some c) (r : ClearReason) (d : Nat) :
    (releaseCircuit r d s).call.origin = some { o with schedule := none } := by
  obtain ⟨holder, tag, start, he⟩ := ownCircuit_held hc
  have hdesk : (releaseHeld c r d s).desk = (updOrigin (fun o => { o with schedule := none }) s).desk := by
    unfold releaseHeld
    rw [he]
    dsimp only
    rw [announceCause_desk, handOver_desk, updOrigin_desk, dropCircuitBridge_desk, setEntry_desk, updOrigin_desk]
  rw [releaseCircuit_held hc, desk_call_eq hdesk]
  exact updOrigin_some ho _

/-! ### The end of a round (R77) -/

theorem endOfRound_paused {o : Origin} {s : Station} (ho : s.call.origin = some o) (hp : o.phase ≠ .recovering) :
    endOfRound s =
      enterPhase .paused (some (s.within 5000))
        (updOrigin (fun o => { o with carrier := .absent, schedule := none }) (releaseCircuit .noAnswer 63 s)) := by
  unfold endOfRound
  rw [ho]
  dsimp only
  rw [if_neg hp, ← (releaseCircuit_alike .noAnswer 63 s).within]
  rfl

theorem endOfRound_pauses {o : Origin} {s : Station} (ho : s.call.origin = some o) : s.Pauses o (endOfRound s) := by
  intro hp
  have hreleased : ∃ q, (releaseCircuit .noAnswer 63 s).call.origin = some q ∧
      { q with carrier := .absent, schedule := none } = { o with carrier := .absent, schedule := none } := by
    cases hc : s.ownCircuit with
    | none => rw [releaseCircuit_none hc]; exact ⟨o, ho, rfl⟩
    | some c => exact ⟨_, releaseCircuit_origin ho hc _ _, rfl⟩
  obtain ⟨q, hq, heq⟩ := hreleased
  rw [endOfRound_paused ho hp, enterPhase_origin ((updOrigin_some hq _).trans (congrArg some heq))]
  unfold Origin.enter
  rw [if_neg hp]

/-! ### The local route (R68) -/

theorem bestBearer_ready {minimum : Nat} {l : Letter} {s : Station} (h : s.best (s.readyFor minimum) l) :
    s.bestBearer (readyTest minimum) = some l := by
  rw [← passes_readyTest] at h
  exact bestBearer_iff h.1 h.2

theorem bestBearer_notReady {minimum : Nat} {s : Station} (h : ∀ l, ¬ s.readyFor minimum l) :
    s.bestBearer (readyTest minimum) = none := by
  rw [← passes_readyTest] at h
  exact bestBearer_none h

theorem bestBearer_sending {minimum : Nat} {l : Letter} {s : Station} (h : s.best (s.fits minimum .sending) l) :
    s.bestBearer (sendingTest minimum) = some l := by
  rw [← passes_sendingTest] at h
  exact bestBearer_iff h.1 h.2

theorem bestBearer_notSending {minimum : Nat} {s : Station} (h : ∀ l, ¬ s.fits minimum .sending l) :
    s.bestBearer (sendingTest minimum) = none := by
  rw [← passes_sendingTest] at h
  exact bestBearer_none h

/-- The context that has tried the local route. -/
def triedLocal (s : Station) : Station := updOrigin (fun o => { o with localTried := true }) s

theorem triedLocal_alike (s : Station) : s.Alike (triedLocal s) := ⟨rfl, rfl⟩

/-- The phase in which the context dials on its own bearer. -/
def enterDialing (l : Letter) (s : Station) : Station :=
  enterPhase .dialingLocal none (updOrigin (fun o => { o with carrier := .own l }) s)

theorem enterDialing_frame (l : Letter) (s : Station) :
    (enterDialing l s).bearers = s.bearers ∧ (enterDialing l s).keep = s.keep ∧
      (enterDialing l s).circuits = s.circuits := enterPhase_frame _ _ _

theorem enterDialing_bearer (l m : Letter) (s : Station) : (enterDialing l s).bearer m = s.bearer m := by
  unfold Station.bearer
  rw [(enterDialing_frame l s).1]

theorem enterDialing_within (l : Letter) (d : Nat) (s : Station) : (enterDialing l s).within d = s.within d := by
  unfold Station.within Station.now
  rw [(enterDialing_frame l s).2.1]

section
variable {minimum : Nat} {o : Origin} {s : Station} (ho : s.call.origin = some o)
include ho

theorem localRoute_claimed {l : Letter} {v : Station}
    (h : claimVoice (.origin o.tag) minimum (triedLocal s) = (some l, v)) :
    localRoute minimum s = orderDial l (enterDialing l v) := by
  unfold localRoute
  rw [ho]
  dsimp only
  rw [show claimVoice (.origin o.tag) minimum (updOrigin (fun o => { o with localTried := true }) s) = (some l, v) from h]
  rfl

theorem localRoute_refused {v : Station} (h : claimVoice (.origin o.tag) minimum (triedLocal s) = (none, v)) :
    localRoute minimum s = if v.power.opState = .active then post (.borrow o.tag) v else endOfRound v := by
  unfold localRoute
  rw [ho]
  dsimp only
  rw [show claimVoice (.origin o.tag) minimum (updOrigin (fun o => { o with localTried := true }) s) = (none, v) from h]

/-- The context that dials on the bearer it has claimed. -/
theorem enterDialing_origin {l : Letter} {v : Station} (h : (triedLocal s).Leaves v) :
    (enterDialing l v).call.origin =
      some (Origin.enter .dialingLocal none { o with localTried := true, carrier := .own l }) := by
  have htried : v.call.origin = some { o with localTried := true } := by
    rw [h.call]
    exact updOrigin_some ho _
  exact enterPhase_origin (updOrigin_some htried _)

theorem localRoute_dials : s.Dials minimum o (localRoute minimum s) := by
  have halike := triedLocal_alike s
  refine ⟨fun l hl => ?_, fun hno => ⟨fun l hl => ?_, fun hnone => ?_⟩⟩
  · rw [← halike.best, ← halike.readyFor] at hl
    obtain ⟨hleaves, hstate, halloc, -⟩ := reserve_effect l (.origin o.tag) (triedLocal s)
    have horigin := enterDialing_origin ho (l := l) hleaves
    rw [localRoute_claimed ho (claimVoice_ready (bestBearer_ready hl))]
    obtain ⟨hdial, hdialing, hflight, hlimit, hkept⟩ :=
      orderDial_reserved (l := l) (s := enterDialing l (reserve l (.origin o.tag) (triedLocal s)))
        (by rw [enterDialing_bearer]; exact hstate)
    refine ⟨⟨(congrArg Call.origin hdial.call).trans horigin, hkept.trans ?_⟩, hdialing, hflight, hlimit.trans ?_⟩
    · rw [enterDialing_bearer]
      exact halloc
    · rw [enterDialing_within]
      exact congrArg (fun c : Stamp => some (Stamp.later c 60000)) hleaves.clock
  · rw [← halike.readyFor] at hno
    rw [← halike.best, ← halike.fits] at hl
    obtain ⟨hleaves, hstate, hhangup, halloc, -, -⟩ := preempt_effect l (.origin o.tag) (triedLocal s)
    have horigin := enterDialing_origin ho (l := l) hleaves
    rw [localRoute_claimed ho (claimVoice_sending (bestBearer_notReady hno) (bestBearer_sending hl))]
    obtain ⟨hdial, hending, hflight, hdials⟩ :=
      orderDial_preempting (l := l) (s := enterDialing l (preempt l (.origin o.tag) (triedLocal s)))
        (by rw [enterDialing_bearer]; exact hstate) (by rw [enterDialing_bearer]; exact halloc) rfl
    refine ⟨⟨(congrArg Call.origin hdial.call).trans horigin, hdials⟩, hending, hflight.trans ?_⟩
    rw [enterDialing_bearer]
    exact hhangup
  · rw [← halike.readyFor] at hno
    rw [← halike.fits] at hnone
    have htried : (triedLocal s).call.origin = some { o with localTried := true } := updOrigin_some ho _
    rw [localRoute_refused ho (claimVoice_refused (bestBearer_notReady hno) (bestBearer_notSending hnone))]
    refine ⟨fun hact => ?_, fun hact => ?_⟩
    · rw [if_pos (show (triedLocal s).power.opState = .active from hact)]
      exact ⟨htried, List.mem_append_right _ (List.mem_singleton.mpr rfl)⟩
    · rw [if_neg (show ¬ (triedLocal s).power.opState = .active from hact)]
      exact endOfRound_pauses htried

/-! What the local route leaves of the circuits and the frames. -/

end

theorem claimVoice_leaves (who : Claimant) (minimum : Nat) (s : Station) : s.Leaves (claimVoice who minimum s).2 := by
  unfold claimVoice
  split
  · exact (reserve_effect _ _ s).1
  · split
    · exact (preempt_effect _ _ s).1
    · exact Station.Leaves.refl s

theorem orderDial_leaves (l : Letter) (s : Station) : s.Leaves (orderDial l s) := by
  unfold orderDial
  dsimp only
  split
  · exact sendCommand_leaves l _ _ s
  · split
    · exact setBearer_leaves l _ s
    · exact Station.Leaves.refl s
  · exact Station.Leaves.refl s

/-- In ACTIVE the local route leaves the circuits and every frame. -/
theorem localRoute_keeps (minimum : Nat) {s : Station} (hact : s.power.opState = .active) {b : TxBody} {d : Nat}
    (hb : b.isAnnounce = false) :
    (localRoute minimum s).circuits = s.circuits ∧
      (s.holdsFrame b d = true → (localRoute minimum s).holdsFrame b d = true) := by
  cases ho : s.call.origin with
  | none =>
    have hsame : localRoute minimum s = s := by
      unfold localRoute
      rw [ho]
    rw [hsame]
    exact ⟨rfl, id⟩
  | some o =>
    have hclaim := claimVoice_leaves (.origin o.tag) minimum (triedLocal s)
    rcases hc : claimVoice (.origin o.tag) minimum (triedLocal s) with ⟨_ | l, v⟩
    · rw [hc] at hclaim
      rw [localRoute_refused ho hc, if_pos (hclaim.opState.trans hact)]
      exact ⟨hclaim.circuits, fun h => hclaim.frames b d hb h⟩
    · rw [hc] at hclaim
      have hdial := orderDial_leaves l (enterDialing l v)
      rw [localRoute_claimed ho hc]
      refine ⟨hdial.circuits.trans ((enterDialing_frame l v).2.2.trans hclaim.circuits), fun h => hdial.frames b d hb ?_⟩
      exact (holdsFrame_of_line (enterPhase_line _ _ _) b d).trans (hclaim.frames b d hb h)

end Sys2Proof.Machine

/-! PROOFS. The route of a call (O26): the borrowed route, and the choice between the routes (R26, R67, R70-R75). -/

namespace Sys2Proof.Machine

/-! ### The borrowed part of a round is over (R72) -/

/-- An own bearer is there to fall back to. -/
def Station.hasFallback (s : Station) (o : Origin) : Prop :=
  o.localTried = false ∧ ∃ l, s.readyFor 1 l ∨ s.fits 1 .sending l

/-- The held circuit is released before the fallback. -/
def Station.releasesOwn (s : Station) (o : Origin) : Prop := o.phase ≠ .recovering ∧ s.ownCircuit.isSome = true

/-- The borrowed part of a round has ended at `u`: the own bearer is dialled, or the round has ended. -/
def Station.RoundEnds (s : Station) (o : Origin) (u : Station) : Prop :=
  (s.hasFallback o → s.releasesOwn o → s.Dials 1 { o with schedule := none } u) ∧
    (s.hasFallback o → ¬ s.releasesOwn o → s.Dials 1 o u) ∧ (¬ s.hasFallback o → s.Pauses o u) ∧
    ∀ c h start, s.ownCircuit = some c → s.entry c = .heldOwn h o.tag start → s.line.total < 8 →
      o.phase ≠ .recovering → u.entry c = .free ∧ u.holdsFrame (.clear o.tag (some c) .noAnswer) 63 = true

theorem cls_available_iff (r : Bearer) : r.cls = .available ↔ r.state = .available ∨ r.state = .checking := by
  unfold Bearer.cls
  cases r.state <;> decide

theorem mem_fittedBearers (s : Station) (l : Letter) : l ∈ s.fittedBearers ↔ s.fitted l = true := by
  unfold Station.fittedBearers
  rw [List.mem_filter]
  exact ⟨And.right, fun h => ⟨by cases l <;> decide, h⟩⟩

theorem localFallback_iff (s : Station) :
    s.localFallback = true ↔ ∃ l, s.readyFor 1 l ∨ s.fits 1 .sending l := by
  unfold Station.localFallback
  rw [List.any_eq_true]
  refine exists_congr fun l => ?_
  rw [mem_fittedBearers, Bool.and_eq_true, Bool.or_eq_true, beq_iff_eq, beq_iff_eq, decide_eq_true_iff, cls_available_iff]
  unfold Station.readyFor Station.fits
  constructor
  · rintro ⟨hfit, (hready | hready) | hsends, hgrade⟩
    · exact Or.inl (Or.inl ⟨hfit, hready, hgrade⟩)
    · exact Or.inl (Or.inr ⟨hfit, hready, hgrade⟩)
    · exact Or.inr ⟨hfit, hsends, hgrade⟩
  · rintro ((⟨hfit, hready, hgrade⟩ | ⟨hfit, hready, hgrade⟩) | ⟨hfit, hsends, hgrade⟩)
    · exact ⟨hfit, Or.inl (Or.inl hready), hgrade⟩
    · exact ⟨hfit, Or.inl (Or.inr hready), hgrade⟩
    · exact ⟨hfit, Or.inr hsends, hgrade⟩

theorem hasFallback_iff (s : Station) (o : Origin) : s.hasFallback o ↔ (!o.localTried && s.localFallback) = true := by
  unfold Station.hasFallback
  rw [← localFallback_iff, Bool.and_eq_true, Bool.not_eq_true']

section
variable {o : Origin} {s : Station} (ho : s.call.origin = some o)
include ho

theorem borrowingOver_fallback (h : s.hasFallback o) :
    borrowingOver s = localRoute 1 (if o.phase = .recovering then s else releaseCircuit .noAnswer 63 s) := by
  unfold borrowingOver
  rw [ho]
  exact if_pos ((hasFallback_iff s o).mp h)

theorem borrowingOver_ends (h : ¬ s.hasFallback o) : borrowingOver s = endOfRound s := by
  unfold borrowingOver
  rw [ho]
  exact if_neg fun x => h ((hasFallback_iff s o).mpr x)

theorem borrowingOver_roundEnds (hact : s.power.opState = .active) : s.RoundEnds o (borrowingOver s) := by
  refine ⟨fun hf hr => ?_, fun hf hr => ?_, fun hf => ?_, fun c h start hc he hroom hp => ?_⟩
  · obtain ⟨c, hc⟩ := Option.isSome_iff_exists.mp hr.2
    rw [borrowingOver_fallback ho hf, if_neg hr.1, ← (releaseCircuit_alike .noAnswer 63 s).dials]
    exact localRoute_dials (releaseCircuit_origin ho hc _ _)
  · have hsame : (if o.phase = .recovering then s else releaseCircuit .noAnswer 63 s) = s := by
      split
      · rfl
      · next hp =>
        exact releaseCircuit_none (Option.isSome_eq_false_iff.mp (Bool.eq_false_iff.mpr fun x => hr ⟨hp, x⟩) |>
          Option.isNone_iff_eq_none.mp)
    rw [borrowingOver_fallback ho hf, hsame]
    exact localRoute_dials ho
  · rw [borrowingOver_ends ho hf]
    exact endOfRound_pauses ho
  · obtain ⟨hfree, hclear⟩ := releaseHeld_effect (r := .noAnswer) (d := 63) he hroom hact
    have hactive : (releaseHeld c .noAnswer 63 s).power.opState = .active :=
      (releaseHeld_alike c .noAnswer 63 s).opState.trans hact
    by_cases hf : s.hasFallback o
    · rw [borrowingOver_fallback ho hf, if_neg hp, releaseCircuit_held hc]
      obtain ⟨hcircuits, hkeeps⟩ := localRoute_keeps 1 hactive (b := .clear o.tag (some c) .noAnswer) (d := 63) rfl
      exact ⟨(entry_of_view (congrArg Circuits.view hcircuits) c).trans hfree, hkeeps hclear⟩
    · rw [borrowingOver_ends ho hf, endOfRound_paused ho hp, releaseCircuit_held hc]
      refine ⟨(entry_of_view (congrArg Circuits.view (enterPhase_frame _ _ _).2.2) c).trans hfree, ?_⟩
      exact (holdsFrame_of_line (enterPhase_line _ _ _) _ _).trans hclear

end

/-! ### The choice of lender (R72, R73, R75) -/

/-- A lender has been chosen at `u`, or the borrowed part of the round is over. -/
def Station.Chooses (s : Station) (c : Circuit) (o : Origin) (u : Station) : Prop :=
  (4 ≤ o.tried.length → s.RoundEnds o u) ∧
    (o.tried.length < 4 →
      (∀ l rest, s.ranking o.tried = l :: rest →
        u.call.origin = some (Origin.enter .asking (some (s.within s.answerMs)) { o with carrier := .asked l }) ∧
          (s.line.total < 8 → u.holdsFrame (.borrowVoice o.tag c) l = true)) ∧
      (s.ranking o.tried = [] →
        (∀ w rest, s.wakeList o.tried = w :: rest →
          u.call.origin =
              some
                (Origin.enter .waking (some (s.within (s.config.wakeAllowance * 1000)))
                  { o with carrier := .absent, woken := w }) ∧
            (s.line.total < 8 → u.holdsFrame .wake w = true)) ∧
        (s.wakeList o.tried = [] → s.RoundEnds o u)))

section
variable {o : Origin} {s : Station} (ho : s.call.origin = some o)
include ho

theorem askLender_asks {c : Circuit} {l : Nat} (hc : s.ownCircuit = some c) (hact : s.power.opState = .active) :
    (askLender l s).call.origin =
        some (Origin.enter .asking (some (s.within s.answerMs)) { o with carrier := .asked l }) ∧
      (s.line.total < 8 → (askLender l s).holdsFrame (.borrowVoice o.tag c) l = true) := by
  have hasked : (updOrigin (fun o => { o with carrier := .asked l }) s).call.origin = some { o with carrier := .asked l } :=
    updOrigin_some ho _
  have hgo : askLender l s = enterPhase .asking (some (s.within s.answerMs))
      (handOver (.borrowVoice o.tag c) l (updOrigin (fun o => { o with carrier := .asked l }) s)) := by
    unfold askLender
    rw [ho, hc]
    rfl
  rw [hgo]
  refine ⟨enterPhase_origin ?_, fun hroom => ?_⟩
  · rw [core_call_eq (handOver_core _ _ _)]
    exact hasked
  · rw [holdsFrame_of_line (enterPhase_line _ _ _)]
    exact handOver_holds (takesFrame_active (by rw [updOrigin_power]; exact hact) _ _) hroom

theorem wakeStation_wakes {w : Nat} (hact : s.power.opState = .active) :
    (wakeStation w s).call.origin =
        some
          (Origin.enter .waking (some (s.within (s.config.wakeAllowance * 1000)))
            { o with carrier := .absent, woken := w }) ∧
      (s.line.total < 8 → (wakeStation w s).holdsFrame .wake w = true) := by
  have hcore := handOver_core .wake w s
  have hwoken : (updOrigin (fun o => { o with carrier := .absent, woken := w }) (handOver .wake w s)).call.origin =
      some { o with carrier := .absent, woken := w } :=
    updOrigin_some (by rw [core_call_eq hcore]; exact ho) _
  have hnow : (updOrigin (fun o => { o with carrier := .absent, woken := w }) (handOver .wake w s)).within
      ((updOrigin (fun o => { o with carrier := .absent, woken := w }) (handOver .wake w s)).config.wakeAllowance * 1000) =
        s.within (s.config.wakeAllowance * 1000) := by
    have hclock : (handOver .wake w s).keep.clock = s.keep.clock := congrArg StationCore.clock hcore
    have hconfig : (handOver .wake w s).keep.config = s.keep.config := congrArg StationCore.config hcore
    unfold Station.within Station.now Station.config
    rw [updOrigin_keep, hclock, hconfig]
  unfold wakeStation
  dsimp only
  rw [hnow]
  refine ⟨enterPhase_origin hwoken, fun hroom => ?_⟩
  rw [holdsFrame_of_line (enterPhase_line _ _ _)]
  exact handOver_holds (takesFrame_active hact _ _) hroom

theorem chooseLender_over (h : 4 ≤ o.tried.length ∨ (s.ranking o.tried = [] ∧ s.wakeList o.tried = [])) :
    chooseLender s = borrowingOver s := by
  unfold chooseLender
  rw [ho]
  dsimp only
  rcases h with h | ⟨hr, hw⟩
  · exact if_pos h
  · rw [hr, hw]
    exact ite_self _

theorem chooseLender_wakes {w : Nat} {rest : List Nat} (ht : o.tried.length < 4) (hr : s.ranking o.tried = [])
    (hw : s.wakeList o.tried = w :: rest) : chooseLender s = wakeStation w s := by
  unfold chooseLender
  rw [ho]
  dsimp only
  rw [if_neg (Nat.not_le.mpr ht), hr, hw]

theorem chooseLender_chooses {c : Circuit} (hc : s.ownCircuit = some c) (hact : s.power.opState = .active) :
    s.Chooses c o (chooseLender s) := by
  refine ⟨fun ht => ?_, fun ht => ⟨fun l rest hr => ?_, fun hr => ⟨fun w rest hw => ?_, fun hw => ?_⟩⟩⟩
  · rw [chooseLender_over ho (Or.inl ht)]
    exact borrowingOver_roundEnds ho hact
  · rw [chooseLender_asks ho ht hr]
    exact askLender_asks ho hc hact
  · rw [chooseLender_wakes ho ht hr hw]
    exact wakeStation_wakes ho hact
  · rw [chooseLender_over ho (Or.inr ⟨hr, hw⟩)]
    exact borrowingOver_roundEnds ho hact

end

/-! ### A claim round asked for (R26) -/

theorem claimDraw_call (d : Nat) (s : Station) : (claimDraw d s).call = s.call := by
  unfold claimDraw
  split
  · split
    · exact (core_call_eq (handOver_core _ _ _)).trans rfl
    · rfl
  · rfl

theorem beginAttempt_call {r : Round} {s t : Station} (h : beginAttempt r s = some t) : t.call = s.call := by
  unfold beginAttempt at h
  split at h
  · exact nomatch h
  · next c _ =>
    dsimp only at h
    generalize hu : ({ s with
      circuits.round := some { r with attempted := r.attempted ++ [c], circuit := c, stage := .waitingDraw } } : Station) = u
      at h
    have hcall : (requestDraw .circuit u).2.call = s.call :=
      (core_call_eq (requestDraw_core .circuit u)).trans (by rw [← hu])
    generalize requestDraw .circuit u = p at h hcall
    obtain ⟨d, v⟩ := p
    cases d with
    | none =>
      obtain rfl := Option.some.inj h
      exact hcall
    | some d =>
      obtain rfl := Option.some.inj h
      exact (claimDraw_call d v).trans hcall

theorem openRound_call (tag : Tag) (s : Station) : (openRound tag s).call = s.call := by
  unfold openRound
  dsimp only
  split
  · next h => exact beginAttempt_call h
  · rfl

/-- A circuit that an attempt may pick. -/
def Station.freeCircuit (s : Station) (c : Circuit) : Prop := circuitNumber c ≤ s.directory.effective ∧ s.entry c = .free

theorem pickCircuit_test (s : Station) (c : Circuit) :
    (circuitNumber c ≤ s.directory.effective && s.entry c == .free && !([] : List Circuit).contains c) = true ↔
      s.freeCircuit c := by
  unfold Station.freeCircuit
  rw [Bool.and_eq_true, Bool.and_eq_true, decide_eq_true_iff, beq_iff_eq]
  exact and_iff_left rfl

/-- The first attempt of a round picks the lowest circuit that is free. -/
theorem pickCircuit_lowest {c : Circuit} {s : Station} (hc : s.freeCircuit c) (hlow : ∀ d, d < c → ¬ s.freeCircuit d) :
    s.pickCircuit [] = some c :=
  allCircuits_find ((pickCircuit_test s c).mpr hc) fun d hd =>
    Bool.eq_false_iff.mpr fun x => hlow d hd ((pickCircuit_test s d).mp x)

theorem pickCircuit_none {s : Station} (h : ∀ c, ¬ s.freeCircuit c) : s.pickCircuit [] = none :=
  List.find?_eq_none.mpr fun c _ x => h c ((pickCircuit_test s c).mp x)

theorem beginAttempt_none {r : Round} {s : Station} (h : s.pickCircuit r.attempted = none) : beginAttempt r s = none := by
  unfold beginAttempt
  rw [h]

/-- An attempt begins where a circuit is there to be picked. -/
theorem beginAttempt_some {r : Round} {c : Circuit} {s : Station} (h : s.pickCircuit r.attempted = some c) :
    ∃ t, beginAttempt r s = some t := by
  unfold beginAttempt
  rw [h]
  dsimp only
  split
  · exact ⟨_, rfl⟩
  · exact ⟨_, rfl⟩

theorem openRound_picks {tag : Tag} {c : Circuit} {s : Station} (hc : s.freeCircuit c)
    (hlow : ∀ d, d < c → ¬ s.freeCircuit d) :
    ∃ r, (openRound tag s).circuits.round = some r ∧ r.tag = tag ∧ r.circuit = c ∧ r.attempted = [c] ∧
      r.attempts = 0 ∧ r.abandoned = none := by
  have hpick := pickCircuit_lowest hc hlow
  obtain ⟨t, ht⟩ := beginAttempt_some (s := s)
    (r := { tag := tag, attempts := 0, attempted := [], circuit := 0, stage := .waitingDraw, abandoned := none }) hpick
  obtain ⟨d, hd, -, stage, hround⟩ := beginAttempt_spec ht
  obtain rfl := Option.some.inj (hpick.symm.trans hd)
  unfold openRound
  dsimp only
  rw [ht]
  exact ⟨_, hround, rfl, rfl, rfl, rfl, rfl⟩

theorem openRound_fails {tag : Tag} {s : Station} (h : ∀ c, ¬ s.freeCircuit c) :
    .roundFailed tag .noFreeCircuit ∈ (openRound tag s).work := by
  unfold openRound
  dsimp only
  rw [beginAttempt_none (pickCircuit_none h)]
  exact List.mem_append_right _ (List.mem_singleton.mpr rfl)

/-! ### The borrowed route (R70) -/

/-- A claim round has been asked for at `u` (R26, R70). -/
def Station.AsksCircuit (s : Station) (o : Origin) (u : Station) : Prop :=
  u.call.origin = some (Origin.enter .claiming none o) ∧
    (s.circuits.round.isSome = true → u.circuits.request = some o.tag) ∧
    (s.circuits.round = none →
      (∀ c, s.freeCircuit c → (∀ d, d < c → ¬ s.freeCircuit d) →
        ∃ r, u.circuits.round = some r ∧ r.tag = o.tag ∧ r.circuit = c ∧ r.attempted = [c] ∧
          r.attempts = 0 ∧ r.abandoned = none) ∧
      ((∀ c, ¬ s.freeCircuit c) → .roundFailed o.tag .noFreeCircuit ∈ u.work))

theorem askCircuit_asks {o : Origin} {s : Station} (ho : s.call.origin = some o) (hact : s.power.opState = .active) :
    s.AsksCircuit o (askCircuit s) := by
  have hgo : askCircuit s = requestCircuit o.tag (enterPhase .claiming none s) := by
    unfold askCircuit
    rw [ho]
  have horigin := enterPhase_origin (p := .claiming) (d := none) ho
  have hactive : (enterPhase .claiming none s).power.opState = .active := by
    rw [enterPhase_power]
    exact hact
  obtain ⟨-, -, hcircuits⟩ := enterPhase_frame .claiming none s
  have hdirectory : (enterPhase .claiming none s).directory = s.directory :=
    congrArg Kept.directory (enterPhase_kept .claiming none s)
  rw [hgo]
  generalize enterPhase .claiming none s = v at horigin hactive hcircuits hdirectory
  have hfree : v.freeCircuit = s.freeCircuit := by
    funext c
    unfold Station.freeCircuit
    rw [hdirectory, entry_of_view (congrArg Circuits.view hcircuits) c]
  unfold Station.AsksCircuit
  rw [← hfree, ← hcircuits]
  unfold requestCircuit
  rw [if_neg fun h => h hactive]
  cases hr : v.circuits.round with
  | some r =>
    rw [if_pos (show (some r).isSome = true from rfl)]
    exact ⟨horigin, fun _ => rfl, fun h => (nomatch h)⟩
  | none =>
    rw [if_neg (show ¬ (none : Option Round).isSome = true by decide)]
    refine ⟨?_, fun h => (nomatch h), fun _ => ⟨fun c hc hlow => openRound_picks hc hlow, openRound_fails⟩⟩
    rw [openRound_call]
    exact horigin

/-- No one is left to ask or to wake. -/
def Station.noOne (s : Station) (o : Origin) : Prop :=
  4 ≤ o.tried.length ∨ (s.ranking o.tried = [] ∧ s.wakeList o.tried = [])

/-- The borrowed route has been taken at `u`. -/
def Station.Borrows (s : Station) (o : Origin) (u : Station) : Prop :=
  (s.noOne o → s.RoundEnds o u) ∧ (∀ c, ¬ s.noOne o → s.ownCircuit = some c → s.Chooses c o u) ∧
    (¬ s.noOne o → s.ownCircuit = none → s.AsksCircuit o u)

theorem noOne_iff (s : Station) (o : Origin) :
    s.noOne o ↔ (4 ≤ o.tried.length || ((s.ranking o.tried).isEmpty && (s.wakeList o.tried).isEmpty)) = true := by
  unfold Station.noOne
  rw [Bool.or_eq_true, decide_eq_true_iff, Bool.and_eq_true, List.isEmpty_iff, List.isEmpty_iff]

theorem borrowRoute_borrows {o : Origin} {s : Station} (ho : s.call.origin = some o) (hact : s.power.opState = .active) :
    s.Borrows o (borrowRoute s) := by
  have hgo : borrowRoute s = if (4 ≤ o.tried.length || ((s.ranking o.tried).isEmpty && (s.wakeList o.tried).isEmpty)) = true
      then borrowingOver s else if s.ownCircuit.isSome then chooseLender s else askCircuit s := by
    unfold borrowRoute
    rw [ho]
  rw [hgo]
  refine ⟨fun h => ?_, fun c h hc => ?_, fun h hc => ?_⟩
  · rw [if_pos ((noOne_iff s o).mp h)]
    exact borrowingOver_roundEnds ho hact
  · rw [if_neg fun x => h ((noOne_iff s o).mpr x), if_pos (by rw [hc]; rfl)]
    exact chooseLender_chooses ho hc hact
  · rw [if_neg fun x => h ((noOne_iff s o).mpr x), if_neg (by rw [hc]; decide)]
    exact askCircuit_asks ho hact

end Sys2Proof.Machine

/-! PROOFS. A call request makes a context, which selects its route (O26). -/

namespace Sys2Proof.Machine

/-! ### The choice between the routes (R67) -/

/-- The grade that a bearer brings to the own grade. -/
def Station.gradeOf (s : Station) (l : Letter) : Nat :=
  if s.fitted l = true ∧ (s.bearer l).cls = .available then (s.bearer l).grade else 0

theorem foldl_max_letters (p : Letter → Bool) (f : Letter → Nat) :
    ([.a, .b].filter p).foldl (fun g l => max g (f l)) 0 =
      max (if p .a = true then f .a else 0) (if p .b = true then f .b else 0) := by
  cases ha : p .a <;> cases hb : p .b <;> simp [ha, hb]

theorem ownGrade_eq (s : Station) : s.ownGrade = max (s.gradeOf .a) (s.gradeOf .b) := by
  unfold Station.ownGrade Station.fittedBearers Station.gradeOf
  rw [List.filter_filter, foldl_max_letters]
  simp only [Bool.and_eq_true, beq_iff_eq, and_comm]

theorem sendingBearer_iff (s : Station) : s.sendingBearer = true ↔ ∃ l, s.fits 1 .sending l := by
  unfold Station.sendingBearer Station.fits
  rw [List.any_eq_true]
  refine exists_congr fun l => ?_
  rw [mem_fittedBearers, Bool.and_eq_true, beq_iff_eq, decide_eq_true_iff]

/-- The own grade reaches the local preference. -/
def Station.prefersLocal (s : Station) (o : Origin) : Prop :=
  o.localTried = false ∧ s.config.localPreference ≤ max (s.gradeOf .a) (s.gradeOf .b)

/-- A lender offers more than the own grade. -/
def Station.prefersLender (s : Station) (o : Origin) : Prop :=
  o.localTried = false ∧ s.power.opState = .active ∧ 0 < s.lenderGrade o.tried ∧
    max (s.gradeOf .a) (s.gradeOf .b) < s.lenderGrade o.tried

/-- An own bearer can take the call. -/
def Station.hasLocal (s : Station) (o : Origin) : Prop :=
  o.localTried = false ∧ (1 ≤ max (s.gradeOf .a) (s.gradeOf .b) ∨ ∃ l, s.fits 1 .sending l)

section
variable {o : Origin} {s : Station} (ho : s.call.origin = some o)
include ho

theorem selectRoute_eq :
    selectRoute s =
      if (!o.localTried && s.config.localPreference ≤ s.ownGrade) = true then localRoute s.config.localPreference s
      else if (!o.localTried &&
          0 < (if !(s.power.opState == .active) || o.localTried then 0 else s.lenderGrade o.tried) &&
          s.ownGrade < (if !(s.power.opState == .active) || o.localTried then 0 else s.lenderGrade o.tried) &&
          s.power.opState == .active) = true then borrowRoute s
      else if (!o.localTried && (1 ≤ s.ownGrade || s.sendingBearer)) = true then localRoute 1 s
      else if (s.power.opState == .active) = true then borrowRoute s
      else endOfRound s := by
  unfold selectRoute
  rw [ho]

omit ho in
theorem prefersLocal_iff : s.prefersLocal o ↔ (!o.localTried && s.config.localPreference ≤ s.ownGrade) = true := by
  unfold Station.prefersLocal
  rw [Bool.and_eq_true, Bool.not_eq_true', decide_eq_true_iff, ownGrade_eq]

omit ho in
theorem prefersLender_iff :
    s.prefersLender o ↔
      (!o.localTried &&
        0 < (if !(s.power.opState == .active) || o.localTried then 0 else s.lenderGrade o.tried) &&
        s.ownGrade < (if !(s.power.opState == .active) || o.localTried then 0 else s.lenderGrade o.tried) &&
        s.power.opState == .active) = true := by
  unfold Station.prefersLender
  rw [ownGrade_eq]
  simp only [Bool.and_eq_true, Bool.not_eq_true', decide_eq_true_iff, beq_iff_eq]
  constructor
  · rintro ⟨ht, hact, hpos, hlt⟩
    rw [if_neg (by rw [ht, hact]; decide)]
    exact ⟨⟨⟨ht, hpos⟩, hlt⟩, hact⟩
  · rintro ⟨⟨⟨ht, hpos⟩, hlt⟩, hact⟩
    rw [if_neg (by rw [ht, hact]; decide)] at hpos hlt
    exact ⟨ht, hact, hpos, hlt⟩

omit ho in
theorem hasLocal_iff : s.hasLocal o ↔ (!o.localTried && (1 ≤ s.ownGrade || s.sendingBearer)) = true := by
  unfold Station.hasLocal
  rw [Bool.and_eq_true, Bool.not_eq_true', Bool.or_eq_true, decide_eq_true_iff, sendingBearer_iff, ownGrade_eq]

/-- A context in SELECTING takes the first route of R67 that is open to it. -/
theorem selectRoute_selects :
    (s.prefersLocal o → s.Dials s.config.localPreference o (selectRoute s)) ∧
      (¬ s.prefersLocal o → s.prefersLender o → s.Borrows o (selectRoute s)) ∧
      (¬ s.prefersLocal o → ¬ s.prefersLender o → s.hasLocal o → s.Dials 1 o (selectRoute s)) ∧
      (¬ s.prefersLocal o → ¬ s.prefersLender o → ¬ s.hasLocal o → s.power.opState = .active →
        s.Borrows o (selectRoute s)) ∧
      (¬ s.prefersLocal o → ¬ s.prefersLender o → ¬ s.hasLocal o → ¬ s.power.opState = .active →
        s.Pauses o (selectRoute s)) := by
  rw [selectRoute_eq ho]
  refine ⟨fun hl => ?_, fun hl hb => ?_, fun hl hb ha => ?_, fun hl hb ha hact => ?_, fun hl hb ha hact => ?_⟩
  · rw [if_pos (prefersLocal_iff.mp hl)]
    exact localRoute_dials ho
  · rw [if_neg fun x => hl (prefersLocal_iff.mpr x), if_pos (prefersLender_iff.mp hb)]
    exact borrowRoute_borrows ho hb.2.1
  · rw [if_neg fun x => hl (prefersLocal_iff.mpr x), if_neg fun x => hb (prefersLender_iff.mpr x),
      if_pos (hasLocal_iff.mp ha)]
    exact localRoute_dials ho
  · rw [if_neg fun x => hl (prefersLocal_iff.mpr x), if_neg fun x => hb (prefersLender_iff.mpr x),
      if_neg fun x => ha (hasLocal_iff.mpr x), if_pos (beq_iff_eq.mpr hact)]
    exact borrowRoute_borrows ho hact
  · rw [if_neg fun x => hl (prefersLocal_iff.mpr x), if_neg fun x => hb (prefersLender_iff.mpr x),
      if_neg fun x => ha (hasLocal_iff.mpr x), if_neg fun x => hact (beq_iff_eq.mp x)]
    exact endOfRound_pauses ho

/-! ### The notices that move the route on -/

theorem originIn_iff {tag : Tag} {phase : Phase} : s.originIn tag phase = true ↔ o.tag = tag ∧ o.activity = phase := by
  unfold Station.originIn
  rw [ho]
  dsimp only
  rw [Bool.and_eq_true, beq_iff_eq, beq_iff_eq]

theorem originHas_own : s.originHas o.tag = true := by
  unfold Station.originHas
  rw [ho]
  exact beq_self_eq_true _

theorem takeTask_select (h : o.activity = .selecting) : takeTask (.select o.tag) s = selectRoute s := by
  change (if s.originIn o.tag .selecting = true then selectRoute s else s) = _
  exact if_pos ((originIn_iff ho).mpr ⟨rfl, h⟩)

theorem takeTask_borrow (h : o.activity ≠ .ending) : takeTask (.borrow o.tag) s = borrowRoute s := by
  change (if (s.originHas o.tag && !s.originIn o.tag .ending) = true then borrowRoute s else s) = _
  refine if_pos ?_
  rw [originHas_own ho, Bool.true_and, Bool.not_eq_true']
  exact Bool.eq_false_iff.mpr fun x => h ((originIn_iff ho).mp x).2

theorem takeTask_roundWon (h : o.activity = .claiming) :
    takeTask (.roundWon o.tag) s = chooseLender (updOrigin (fun o => { o with schedule := some (s.within 5000) }) s) := by
  change (if s.originIn o.tag .claiming = true then _ else s) = _
  exact if_pos ((originIn_iff ho).mpr ⟨rfl, h⟩)

theorem takeTask_roundFailed (h : o.activity = .claiming) (reason : RoundFailure) :
    takeTask (.roundFailed o.tag reason) s = endOfRound s := by
  change (if s.originIn o.tag .claiming = true then endOfRound s else s) = _
  exact if_pos ((originIn_iff ho).mpr ⟨rfl, h⟩)

end

/-! ### The context made (R64, R122) -/

/-- The context of a call request. -/
def newOrigin (mode : Mode) (s : Station) : Origin :=
  { tag := ⟨s.tagOrigin, nextNumber s.keep.lastCall⟩, mode := mode, phase := .selecting, carrier := .absent, tried := []
    localTried := false, recoveries := 0, step := .none, stepDeadline := none, releasing := none
    setupDeadline := some (s.within (s.config.setupLimit * 1000)), phaseDeadline := none, lastPartner := none
    connected := false, woken := 0, schedule := none }

theorem showNotice_panel (tone : Tone) (lamp : Lamp) (s : Station) :
    (showNotice tone lamp s).panel = { s.panel with failed := none, tone := tone, lamp := lamp } := by
  unfold showNotice endFailed
  dsimp only
  split
  · rfl
  · next h =>
    rw [Bool.not_eq_true, Option.isSome_eq_false_iff, Option.isNone_iff_eq_none] at h
    rw [← h]

/-- What a call request makes of the station. -/
structure Station.Makes (s u : Station) (mode : Mode) : Prop where
  call : u.call = { s.call with origin := some (newOrigin mode s) }
  selects : .select (newOrigin mode s).tag ∈ u.work
  number : u.keep.lastCall = nextNumber s.keep.lastCall
  tally : u.keep.tally =
    if s.keep.tally.frozen then s.keep.tally else { s.keep.tally with placed := s.keep.tally.placed + 1 }
  tone : u.panel.tone = .connecting
  lamp : u.panel.lamp = .slowFlash
  failed : u.panel.failed = none
  bearers : u.bearers = s.bearers

theorem tallyUp_eq (f : Tally → Tally) (s : Station) :
    tallyUp f s = { s with keep.tally := if s.keep.tally.frozen then s.keep.tally else f s.keep.tally } := by
  unfold tallyUp
  by_cases h : s.keep.tally.frozen = true
  · rw [if_pos h, if_pos h]
  · rw [if_neg h, if_neg h]

theorem endFailed_shape (s : Station) : ∃ audio panel, endFailed s = { s with audio := audio, panel := panel } := by
  unfold endFailed
  split
  · exact ⟨_, _, rfl⟩
  · exact ⟨s.audio, s.panel, rfl⟩

theorem createOrigin_makes {mode : Mode} {s : Station} (hs : s.inService = true) (ho : s.call.origin = none) :
    s.Makes (createOrigin mode s) mode := by
  unfold createOrigin
  rw [if_pos (by rw [hs, ho]; rfl)]
  dsimp only
  obtain ⟨audio, panel, hended⟩ := endFailed_shape { s with keep.lastCall := nextNumber s.keep.lastCall }
  rw [hended, tallyUp_eq]
  dsimp only
  generalize htone : tryBridge _ _ = w
  obtain ⟨bridges, hbridged⟩ := tryBridge_shape ⟨.tone, mode.callerEnd, .origin (newOrigin mode s).tag⟩
    { s with
      keep.lastCall := nextNumber s.keep.lastCall
      keep.tally := if s.keep.tally.frozen then s.keep.tally else { s.keep.tally with placed := s.keep.tally.placed + 1 }
      call.origin := some (newOrigin mode s)
      audio := audio
      panel := panel }
  have hw := htone.symm.trans hbridged
  have hpanel := showNotice_panel .connecting .slowFlash w
  obtain ⟨shown, panel', hshown⟩ := showNotice_shape .connecting .slowFlash w
  unfold showConnecting
  refine ⟨?_, List.mem_append_right _ (List.mem_singleton.mpr rfl), ?_, ?_, congrArg Panel.tone hpanel,
    congrArg Panel.lamp hpanel, congrArg Panel.failed hpanel, ?_⟩
  all_goals
    rw [hshown, hw]
    rfl

/-- Settles O26: a call request makes a context, which selects its route. -/
theorem callRequestMakesContext : Obligations.CallRequestMakesContext := by
  refine ⟨fun s hs hservice ho => ?_, fun o s ho => ?_⟩
  · intro tag context made
    have hstart : s.station.power.opState ≠ .start := by
      intro h
      unfold Station.inService at hservice
      rw [h] at hservice
      exact nomatch hservice
    refine ⟨fun hhook => ?_, fun close now hwindow hhook hnow => ?_⟩
    · have hrun : exec .offHook s =
          .next { s with station := finish (createOrigin .handset { freshOut s.station with panel.hook := .offHook }) } := by
        change execOffHook s = _
        unfold execOffHook
        rw [takeEvent_running hs.1, if_neg (show (freshOut s.station).power.opState ≠ .standby from hs.2.1),
          show (freshOut s.station).panel.hook = .onHook from hhook]
        unfold offHookAction
        dsimp only
        rw [if_neg (show (freshOut s.station).power.opState ≠ .start from hstart),
          show (freshOut s.station).call.origin = none from ho]
      obtain ⟨hcall, hselects, hnumber, htally, htone, hlamp, hfailed, hbearers⟩ :=
        createOrigin_makes (mode := .handset) (s := { freshOut s.station with panel.hook := .offHook }) hservice ho
      refine ⟨_, hrun, ⟨hcall, hselects, hnumber, htally, htone, hlamp, hfailed, hbearers⟩, ?_⟩
      exact finish_kept_of (createOrigin_kept _ _) (awake_opState hs) (awake_waitingEntry hs)
    · have hrun : exec .buttonWindowExpiry s =
          .next { s with
            station := finish (createOrigin .handsFree { atMoment now s.station with panel.classifier := .idle }) } := by
        change execButtonWindowExpiry s = _
        unfold execButtonWindowExpiry
        rw [takeExpiry_running (d := close) hs.1
          (by rw [show (freshOut s.station).panel.classifier = .window close false none from hwindow]; rfl), ← hnow,
          show (atMoment now s.station).panel.classifier = .window close false none from hwindow]
        unfold singlePress
        dsimp only
        rw [if_neg (show (atMoment now s.station).panel.hook ≠ .offHook from hhook),
          if_neg (show (atMoment now s.station).power.opState ≠ .start from hstart),
          if_pos (by rw [show (atMoment now s.station).call.origin = none from ho]; rfl)]
      obtain ⟨hcall, hselects, hnumber, htally, htone, hlamp, hfailed, hbearers⟩ :=
        createOrigin_makes (mode := .handsFree) (s := { atMoment now s.station with panel.classifier := .idle }) hservice ho
      refine ⟨_, hrun, ⟨hcall, hselects, hnumber, htally, htone, hlamp, hfailed, hbearers⟩, ?_⟩
      exact finish_kept_of (createOrigin_kept _ _) (awake_opState hs) (awake_waitingEntry hs)
  · intro active fits ready best grade own lender paused dials ended chooses borrows
    refine ⟨fun hselecting hservice => ?_, fun hphase hact => ?_, fun hclaiming => ⟨fun c hc hact => ?_, fun reason _ => ?_⟩⟩
    · rw [takeTask_select ho hselecting]
      exact selectRoute_selects ho
    · rw [takeTask_borrow ho hphase]
      exact borrowRoute_borrows ho hact
    · rw [takeTask_roundWon ho hclaiming]
      exact chooseLender_chooses (s := updOrigin (fun o => { o with schedule := some (s.within 5000) }) s)
        (updOrigin_some ho _) hc hact
    · rw [takeTask_roundFailed ho hclaiming]
      exact endOfRound_pauses ho

end Sys2Proof.Machine

/-! PROOFS. The rails, the reset line and the resets (O4, O5). -/

namespace Sys2Proof.Machine

/-! ### A pin that changes -/

theorem takePin_running {f : Station → Station} {s : State} (h : (f (freshOut s.station)).running = true) :
    takePin f s = .next { s with station := finish (f (freshOut s.station)) } := by
  unfold takePin
  dsimp only
  rw [if_pos h]

theorem takePin_stopped {f : Station → Station} {s : State} (h : (f (freshOut s.station)).running = false) :
    takePin f s = .next { s with station := f (freshOut s.station) } := by
  unfold takePin
  dsimp only
  rw [if_neg (by rw [h]; decide)]

theorem running_iff (s : Station) : s.running = true ↔ s.power.keepRail = true ∧ s.power.held = false := by
  unfold Station.running
  rw [Bool.and_eq_true, Bool.not_eq_true']

theorem running_held {s : Station} (h : s.power.held = true) : s.running = false := by
  unfold Station.running
  rw [h]
  exact Bool.and_false _

/-! ### The keep rail (R176, R177) -/

/-- The power-on values, with the pins and the next word as they are. -/
def freshStation (s : Station) : Station :=
  { Station.reset with
    power := { Station.reset.power with mainRail := s.power.mainRail, resetLine := s.power.resetLine }
    out := [.sensorRate 100]
    free := s.free }

theorem powerOnReset_held {s : Station} (h : s.power.mainRail = false ∨ s.power.resetLine = true) :
    powerOnReset s = holdReset (freshStation s) := by
  unfold powerOnReset
  refine if_pos ?_
  rcases h with h | h <;> rw [h]
  · exact Bool.or_true _
  · rfl

theorem powerOnReset_runs {s : Station} (hm : s.power.mainRail = true) (hr : s.power.resetLine = false) :
    powerOnReset s = { Station.reset with out := [.sensorRate 100], free := s.free } := by
  unfold powerOnReset
  rw [hm, hr]
  rfl

/-- A station without a call and without reports keeps its keep domain through a reset. -/
theorem keepAfterReset_idle {s : Station} {k : Keep} (h : s.KeepAfterReset k) (ho : s.call.origin = none)
    (hq : s.reports.queue = []) : k = s.keep := by
  obtain ⟨hk, hdropped⟩ := h
  have hidle : s.interruptible = false := by
    unfold Station.interruptible
    rw [ho]
  have hsame : k.dropped = s.keep.dropped := by
    refine BitVec.eq_of_toNat_eq ?_
    rw [hq] at hdropped
    exact hdropped s.keep.dropped.isLt
  rw [hidle, Bool.false_and, if_neg (by decide), hsame] at hk
  exact hk

/-- The keep domain after a reset depends on the keep domain, the calls and the reports alone. -/
theorem keepAfterReset_of {s t : Station} {k : Keep} (h : t.KeepAfterReset k) (hk : t.keep = s.keep) (hc : t.call = s.call)
    (hr : t.reports = s.reports) : s.KeepAfterReset k := by
  unfold Station.KeepAfterReset Station.interruptible at h ⊢
  rw [hk, hc, hr] at h
  exact h

section
variable {s t : Station} (hk : t.keep = s.keep) (hc : t.call = s.call) (hr : t.reports = s.reports)
include hk hc hr

/-- What a reset that is held leaves of the station whose pins have changed. -/
theorem holdReset_leaves :
    (holdReset t).power = { t.power.cleared with held := true } ∧ (holdReset t).Cleared ∧
      s.KeepAfterReset (holdReset t).keep ∧ (holdReset t).cabinet = clearedCabinet s.keep.reference none := by
  obtain ⟨hpower, hcleared, hkept, hcabinet⟩ := holdReset_shape t
  exact ⟨hpower, hcleared, keepAfterReset_of hkept hk hc hr, hcabinet.trans (by rw [hk])⟩

/-- What a warm reset leaves of the station that begins it. -/
theorem warmReset_leaves :
    (warmReset t).power =
        { t.power.cleared with
          startCause := .warm, wakeCause := none, held := false, configRead := some (s.within 500) } ∧
      (warmReset t).Cleared ∧ s.KeepAfterReset (warmReset t).keep ∧
      (warmReset t).cabinet = clearedCabinet s.keep.reference (some (s.within 1000)) := by
  obtain ⟨hpower, hcleared, hkept, hcabinet, -⟩ := warmReset_shape t
  have hwithin : t.within = s.within := by
    unfold Station.within Station.now
    rw [hk]
  rw [hwithin] at hpower hcabinet
  exact ⟨hpower, hcleared, keepAfterReset_of hkept hk hc hr, hcabinet.trans (by rw [hk])⟩

end

/-- Settles O4: the keep rail's return makes a power-on reset, and its loss clears everything. -/
theorem keepRailClearsAll : Obligations.KeepRailClearsAll := by
  refine fun s => ⟨fun hk hm hr => ?_, fun hk hpins => ?_, ?_⟩
  · have hgo : (if (freshOut s.station).power.keepRail = true then freshOut s.station else powerOnReset (freshOut s.station)) =
        { Station.reset with out := [.sensorRate 100], free := s.station.free } := by
      rw [if_neg (by rw [show (freshOut s.station).power.keepRail = false from hk]; decide)]
      exact powerOnReset_runs hm hr
    change execKeepRailApplied s = _
    unfold execKeepRailApplied
    rw [takePin_running (by rw [hgo]; rfl), hgo, finish_cleared rfl rfl rfl rfl rfl rfl rfl]
  · have hgo : (if (freshOut s.station).power.keepRail = true then freshOut s.station else powerOnReset (freshOut s.station)) =
        holdReset (freshStation (freshOut s.station)) := by
      rw [if_neg (by rw [show (freshOut s.station).power.keepRail = false from hk]; decide)]
      exact powerOnReset_held hpins
    obtain ⟨hpower, hcleared, hkeep, hcabinet⟩ := holdReset_shape (freshStation (freshOut s.station))
    have hheld : (holdReset (freshStation (freshOut s.station))).running = false := running_held (by rw [hpower])
    refine ⟨{ s with station := holdReset (freshStation (freshOut s.station)) }, ?_, hheld, ?_, ?_, ?_, hcleared, hcabinet⟩
    · change execKeepRailApplied s = _
      unfold execKeepRailApplied
      rw [takePin_stopped (by rw [hgo]; exact hheld), hgo]
    · rw [hpower]
      rfl
    · rw [hpower]
    · exact keepAfterReset_idle hkeep rfl rfl
  · refine ⟨{ s with station := keepLost (freshOut s.station) }, ?_, rfl, rfl, ?_, rfl, rfl⟩
    · change execKeepRailLost s = _
      unfold execKeepRailLost
      exact takePin_stopped rfl
    · exact ⟨rfl, rfl, rfl, rfl, rfl, rfl, rfl, rfl, rfl, rfl⟩

/-! ### The reset line, the main rail, and the orders of the service terminal (R167, R169, R177, R183) -/

/-- A running station whose pin changes so that it is held in reset. -/
theorem takePin_holds {f : Station → Station} {s : State} {t : Station} (h : f (freshOut s.station) = holdReset t) :
    takePin f s = .next { s with station := holdReset t } := by
  rw [takePin_stopped (by rw [h]; exact running_held (by rw [(holdReset_shape t).1])), h]

/-- A held station whose pins let it start again. -/
theorem takePin_starts {f : Station → Station} {s : State} {t : Station} (h : f (freshOut s.station) = warmReset t)
    (hk : t.power.keepRail = true) : takePin f s = .next { s with station := warmReset t } := by
  obtain ⟨hpower, -, -, -, hfinish⟩ := warmReset_shape t
  have hruns : (warmReset t).running = true := (running_iff _).mpr (by rw [hpower]; exact ⟨hk, rfl⟩)
  rw [takePin_running (by rw [h]; exact hruns), h, hfinish]

theorem warmReset_finished (s : Station) : finish (warmReset s) = warmReset s := by
  obtain ⟨-, -, -, -, hfinish⟩ := warmReset_shape s
  exact hfinish

theorem releaseReset_starts {s : Station} (hh : s.power.held = true) (hr : s.power.resetLine = false)
    (hm : s.power.mainRail = true) : releaseReset s = warmReset s := by
  unfold releaseReset
  rw [hh, hr, hm]
  rfl

theorem takeReload_builtIn {segment : BitVec 16} {s : Station} (hr : s.power.reload = none) (hi : s.reloadIdle = true)
    (hb : s.onBuiltIn = true) : takeReload segment s = warmReset s := by
  unfold takeReload
  rw [hr, hi, if_neg (by decide), if_pos hb]

/-- Settles O5: a reset holds the station, or it starts again. -/
theorem resetHoldsOrStartsAgain : Obligations.ResetHoldsOrStartsAgain := by
  intro s hkeep held starts p
  refine ⟨fun hrun => ⟨?_, fun hop => ?_⟩, fun hheld => ⟨fun hmain => ?_, fun hreset hwake => ?_⟩, fun f x h => ⟨fun hb => ?_,
    fun hb hreload hidle hbuilt => ?_⟩⟩
  · have hrunning : (freshOut s.station).running = true := (running_iff _).mpr ⟨hkeep, hrun⟩
    refine ⟨{ s with station := holdReset { freshOut s.station with power.resetLine := true } }, ?_,
      holdReset_leaves rfl rfl rfl⟩
    change execResetLineAsserted s = _
    unfold execResetLineAsserted
    exact takePin_holds (if_pos hrunning)
  · have hrunning : (freshOut s.station).running = true := (running_iff _).mpr ⟨hkeep, hrun⟩
    refine ⟨{ s with station := holdReset { freshOut s.station with power.mainRail := false } }, ?_,
      holdReset_leaves rfl rfl rfl⟩
    change execMainRailLost s = _
    unfold execMainRailLost
    refine takePin_holds (if_pos ?_)
    rw [hrunning, Bool.true_and]
    exact bne_iff_ne.mpr hop
  · refine ⟨{ s with station := warmReset { freshOut s.station with power.resetLine := false } }, ?_,
      warmReset_leaves rfl rfl rfl⟩
    change execResetLineReleased s = _
    unfold execResetLineReleased
    exact takePin_starts (releaseReset_starts hheld rfl hmain) hkeep
  · refine ⟨{ s with station := warmReset { freshOut s.station with power.mainRail := true } }, ?_,
      warmReset_leaves rfl rfl rfl⟩
    change execMainRailReturn s = _
    unfold execMainRailReturn
    refine takePin_starts ?_ hkeep
    rw [show (freshOut s.station).power.heldWake = none from hwake]
    exact releaseReset_starts hheld hreset rfl
  · refine ⟨{ s with station := warmReset (assembled s.station) }, ?_, warmReset_leaves rfl rfl rfl⟩
    change execRestart f s = _
    unfold execRestart
    rw [takeService_served h hb, warmReset_finished]
  · refine ⟨{ s with station := warmReset (assembled s.station) }, ?_, warmReset_leaves rfl rfl rfl⟩
    change execReload f s = _
    unfold execReload
    rw [takeService_served h hb, takeReload_builtIn (s := assembled s.station) hreload hidle hbuilt, warmReset_finished]

end Sys2Proof.Machine

/-! PROOFS. The wake (O6): what each wake cause makes of a station in STANDBY. -/

namespace Sys2Proof.Machine

/-! ### The wake itself (R6, R39, R173, R174) -/

/-- The station that a wake lets enter ACTIVE. -/
def waking (cause : WakeCause) (s : Station) : Station :=
  { clearBlocks s with
    cabinet := s.cabinet
    work := s.work
    panel := { clearedPanel with hook := s.panel.hook, disregard := s.panel.disregard }
    power :=
      { (clearBlocks s).power with startCause := .wake, wakeCause := some cause, checkIn := none, heldWake := none } }

theorem takeWake_standby {cause : WakeCause} {s : Station} (ho : s.power.opState = .standby)
    (hm : s.power.mainRail = true) : takeWake cause s = deliverWake cause (enterActive (waking cause s)) := by
  unfold takeWake
  rw [if_neg (not_not_intro ho), if_neg (by rw [hm]; decide)]
  rfl

theorem waking_bearers (cause : WakeCause) (s : Station) : (waking cause s).bearers = clearedBearers := rfl

theorem waking_keep (cause : WakeCause) (s : Station) : (waking cause s).keep = s.keep := (clearBlocks_power s).2.1

theorem waking_config (cause : WakeCause) (s : Station) : (waking cause s).config = s.config := by
  unfold Station.config
  rw [waking_keep]

theorem waking_fitted (cause : WakeCause) (s : Station) (l : Letter) : (waking cause s).fitted l = s.fitted l := by
  unfold Station.fitted
  rw [waking_config]

theorem waking_progress (cause : WakeCause) (s : Station) : (waking cause s).power.progress = s.power.progress := by
  have h := congrArg Power.progress (clearBlocks_power s).1
  exact h

theorem deliverWake_kept (cause : WakeCause) (s : Station) :
    (deliverWake cause s).kept = { s.kept with hook := if cause = .offHook then .offHook else s.panel.hook } := by
  unfold deliverWake
  split
  · exact createOrigin_kept _ _
  · exact createOrigin_kept _ _
  · next hoff _ => rw [if_neg hoff]; rfl

/-- A record that a parked bearer keeps is the whole record. -/
theorem bearer_of_kept {r q : Bearer} (h : r.kept = q.kept) (hq : q.state.parked = true) : r = q := by
  have hparked : (if r.state.parked = true then some r else none) = (if q.state.parked = true then some q else none) :=
    congrArg KeptBearer.parked h
  rw [if_pos hq] at hparked
  split at hparked
  · exact Option.some.inj hparked
  · exact nomatch hparked

/-- The station `t` has been woken by a cause from the STANDBY of `s`. -/
structure Station.WokenTo (s : Station) (cause : WakeCause) (t : Station) : Prop where
  opState : t.power.opState = .active
  startCause : t.power.startCause = .wake
  wakeCause : t.power.wakeCause = some cause
  checkIn : t.power.checkIn = none
  clock : t.keep.clock = s.keep.clock
  directory : t.directory = { entries := [], effective := s.config.circuits }
  hook : t.panel.hook = if cause = .offHook then .offHook else s.panel.hook
  disregard : t.panel.disregard = s.panel.disregard
  bearer : ∀ l, s.fitted l = true → t.bearer l = startedAt s.now

section
variable {cause : WakeCause} {s : Station} (ho : s.power.opState = .standby) (hm : s.power.mainRail = true)
  (hp : s.power.progress = .none)
include ho hm

theorem wokenTo_of_kept {t : Station} (h : t.kept = (takeWake cause s).kept) : s.WokenTo cause t := by
  rw [takeWake_standby ho hm, deliverWake_kept, enterActive_kept (waking_bearers cause s)] at h
  have hhook : (enterActive (waking cause s)).panel.hook = s.panel.hook :=
    congrArg Kept.hook (enterActive_kept (waking_bearers cause s))
  have hclock : t.keep.clock = (waking cause s).keep.clock := congrArg Kept.clock h
  rw [waking_keep] at hclock
  have hnow : (waking cause s).now = s.now := congrArg Keep.clock (waking_keep cause s)
  have hstarted : (startedAt s.now).state.parked = true := rfl
  refine ⟨congrArg Kept.opState h, congrArg Kept.startCause h, congrArg Kept.wakeCause h, congrArg Kept.checkIn h, hclock,
    (congrArg Kept.directory h).trans (by rw [waking_config]), (congrArg Kept.hook h).trans (by rw [hhook]),
    congrArg Kept.disregard h, fun l hl => ?_⟩
  rw [← waking_fitted cause] at hl
  cases l with
  | a =>
    have hkept : t.bearers.a.kept = (startedAt s.now).kept := (congrArg Kept.bearerA h).trans (by rw [hl, hnow]; rfl)
    exact bearer_of_kept hkept hstarted
  | b =>
    have hkept : t.bearers.b.kept = (startedAt s.now).kept := (congrArg Kept.bearerB h).trans (by rw [hl, hnow]; rfl)
    exact bearer_of_kept hkept hstarted

include hp

/-- The wake taken leaves the station awake. -/
theorem takeWake_awake :
    (takeWake cause s).power.opState ≠ .standby ∧ (takeWake cause s).power.progress ≠ .waitingEntry := by
  have hkept := enterActive_kept (waking_bearers cause s)
  have hentry : (enterActive (waking cause s)).kept.waitingEntry = false := by
    rw [hkept]
    change ((waking cause s).power.progress == .waitingEntry) = false
    rw [waking_progress, hp]
    rfl
  have hdelivered := deliverWake_kept cause (enterActive (waking cause s))
  rw [← takeWake_standby ho hm] at hdelivered
  refine ⟨fun h => ?_, fun h => ?_⟩
  · have hsame : (takeWake cause s).power.opState = (enterActive (waking cause s)).power.opState :=
      congrArg Kept.opState hdelivered
    have hactive : (enterActive (waking cause s)).power.opState = .active := congrArg Kept.opState hkept
    exact nomatch h.symm.trans (hsame.trans hactive)
  · have hwaits := congrArg Kept.waitingEntry hdelivered
    change ((takeWake cause s).power.progress == .waitingEntry) = (enterActive (waking cause s)).kept.waitingEntry at hwaits
    rw [hentry, h] at hwaits
    exact nomatch hwaits

end

/-- The end of a command whose first notice is a wake cause. -/
theorem finish_wakes {cause : WakeCause} {s : Station} {rest : List Task} (hw : s.work = .wake cause :: rest)
    (ho : s.power.opState = .standby) (hm : s.power.mainRail = true) (hp : s.power.progress = .none) :
    s.WokenTo cause (finish s) := by
  obtain ⟨hawake, hentry⟩ := takeWake_awake (cause := cause) (s := { s with work := rest }) ho hm hp
  have hfirst : (drain 256 s).kept = (takeWake cause { s with work := rest }).kept := by
    rw [drain_cons (n := 255) hw]
    exact drain_kept 255 hawake
  have hentry' : (drain 256 s).power.progress ≠ .waitingEntry := kept_waitingEntry hfirst hentry
  have hupkeep : (upkeep (drain 256 s)).kept = (takeWake cause { s with work := rest }).kept := by
    rw [upkeep_kept hentry', hfirst]
  have hkept : (finish s).kept = (takeWake cause { s with work := rest }).kept := by
    unfold finish
    rw [pump_kept, keepIdle_kept, drain_kept _ (by rw [kept_opState hupkeep]; exact hawake), hupkeep]
  obtain ⟨h1, h2, h3, h4, h5, h6, h7, h8, h9⟩ := wokenTo_of_kept (s := { s with work := rest }) ho hm hkept
  exact ⟨h1, h2, h3, h4, h5, h6, h7, h8, h9⟩

/-! ### The causes (R110, R128, R129, R155, R173) -/

/-- In STANDBY the tilt detector changes the cabinet and hands on wake causes, and nothing else. -/
def Station.TiltWakes (s u : Station) : Prop :=
  ∃ cabinet causes, u = { s with cabinet := cabinet, work := s.work ++ causes }

theorem tiltWakes_cabinet (s : Station) (c : Cabinet) : s.TiltWakes { s with cabinet := c } :=
  ⟨c, [], by rw [List.append_nil]⟩

theorem handCabinetEvent_outside {s : Station} (h : s.inService = false) (e : CabinetEvent) :
    ∃ cabinet, handCabinetEvent e s = { s with cabinet := cabinet } := by
  unfold handCabinetEvent
  rw [if_neg (by rw [h]; decide)]
  split
  · exact ⟨_, rfl⟩
  · exact ⟨_, rfl⟩

/-- A tilt event in STANDBY pends, and its wake cause is handed on. -/
theorem raiseTilt_standby {s : Station} (ho : s.power.opState = .standby) (k : ReportKind) (c : WakeCause) :
    ∃ cabinet, raiseTilt k c s = { s with cabinet := cabinet, work := s.work ++ [.wake c] } := by
  have hservice : s.inService = false := by
    unfold Station.inService
    rw [ho]
    rfl
  obtain ⟨cabinet, hpends⟩ := handCabinetEvent_outside (s := { s with cabinet.tilt := .raised }) hservice
    { kind := k, first := s.now, last := s.now, repeats := 1, peakSq := 0, axis := none }
  refine ⟨cabinet, ?_⟩
  unfold raiseTilt wakeIfStandby
  dsimp only
  rw [show handCabinetEvent { kind := k, first := s.now, last := s.now, repeats := 1, peakSq := 0, axis := none }
    { s with cabinet.tilt := .raised } = _ from hpends]
  exact if_pos ho

theorem testTilt_standby {s : Station} (ho : s.power.opState = .standby) (above high : Bool) :
    s.TiltWakes (testTilt above high s) := by
  have hset : ∀ t, s.TiltWakes { s with cabinet.tilt := t } := fun t => tiltWakes_cabinet s _
  have hsame : s.TiltWakes s := tiltWakes_cabinet s s.cabinet
  have hraise : ∀ k c, s.TiltWakes (raiseTilt k c s) := fun k c => by
    obtain ⟨cabinet, h⟩ := raiseTilt_standby ho k c
    exact ⟨cabinet, _, h⟩
  unfold testTilt
  dsimp only
  cases s.cabinet.tilt with
  | armed =>
    dsimp only
    split
    · exact hset _
    · exact hsame
  | sustaining start was eligible =>
    dsimp only
    generalize (if high then some (was.getD s.now) else none) = since
    split
    · exact hset _
    · cases since with
      | none =>
        dsimp only
        split
        · exact hraise _ _
        · exact hset _
      | some t =>
        dsimp only
        split <;> split
        · exact hraise _ _
        · exact hset _
        · exact hraise _ _
        · exact hset _
  | raised =>
    dsimp only
    split
    · exact hsame
    · exact hset _
  | rearming start =>
    dsimp only
    split
    · exact hset _
    · split
      · exact hset _
      · exact hsame

theorem offerTilt_standby {s : Station} (ho : s.power.opState = .standby) : s.TiltWakes (offerTilt s) := by
  unfold offerTilt
  split
  · split
    · exact testTilt_standby ho _ _
    · exact tiltWakes_cabinet s s.cabinet
  · exact tiltWakes_cabinet s s.cabinet

end Sys2Proof.Machine

/-! PROOFS. The wake (O6): samples that wake, the ANNOUNCE of the entry into ACTIVE, and each cause's command. -/

namespace Sys2Proof.Machine

/-! ### A sample taken in STANDBY (R124, R126-R129) -/

theorem sensorRate_standby {s : Station} (h : s.power.opState = .standby) : s.sensorRate = 25 := if_pos h

theorem offerImpact_opens {s : Station} {b v : QVec} (ho : s.power.opState = .standby) (hd : s.impacts (v.minus b))
    (hq : s.cabinet.impact = .quiet) :
    ∃ cabinet, offerImpact (some b) v s = { s with cabinet := cabinet, work := s.work ++ [.wake .impact] } := by
  unfold Station.impacts at hd
  unfold offerImpact
  dsimp only
  rw [if_pos hd, hq]
  exact ⟨_, if_pos ho⟩

theorem offerImpact_stays {s : Station} {b v : QVec} (h : ¬ (s.impacts (v.minus b) ∧ s.cabinet.impact = .quiet)) :
    ∃ impact, offerImpact (some b) v s = { s with cabinet.impact := impact } := by
  unfold Station.impacts at h
  unfold offerImpact
  dsimp only
  split
  · next hd =>
    cases hi : s.cabinet.impact with
    | quiet => exact absurd ⟨hd, hi⟩ h
    | opened => exact ⟨_, rfl⟩
  · exact ⟨s.cabinet.impact, rfl⟩

theorem testTilt_knocksDown {s : Station} {start h : Stamp} (ht : s.cabinet.tilt = .sustaining start (some h) true)
    (hlong : 5000 ≤ Stamp.elapsed h s.now) : testTilt true true s = raiseTilt .knockdown .knockdown s := by
  unfold testTilt
  simp only [ht, Bool.not_true, Bool.false_eq_true, ↓reduceIte, Option.getD_some, hlong]

theorem testTilt_tilts {s : Station} {start : Stamp} {was : Option Stamp} {eligible high : Bool}
    (ht : s.cabinet.tilt = .sustaining start was eligible) (hno : eligible = false ∨ high = false)
    (hlong : 5000 ≤ Stamp.elapsed start s.now) : testTilt true high s = raiseTilt .tilt .tilt s := by
  unfold testTilt
  rcases hno with rfl | rfl
  · cases high <;> simp only [ht, Bool.not_true, Bool.false_eq_true, ↓reduceIte, hlong]
  · simp only [ht, Bool.not_true, Bool.false_eq_true, ↓reduceIte, hlong]

section
variable {v : IVec} {b : QVec} {s : Station} (hv : v.inRange = true) (ho : s.power.opState = .standby)
  (hb : s.cabinet.baseline = some b)
  (hcap : ∀ start n sum low high, s.cabinet.capture = .window start n sum low high →
    Stamp.elapsed start s.now < 10000)
include hv ho hb hcap

/-- A sample that opens an IMPACT event wakes, and a tilt event of the same sample comes after. -/
theorem takeSample_opens (hd : s.impacts (v.exact.minus b)) (hq : s.cabinet.impact = .quiet) :
    ∃ cabinet rest, takeSample v s = { s with cabinet := cabinet, work := s.work ++ .wake .impact :: rest } := by
  obtain ⟨capture, hcapture⟩ := offerCapture_open (v := v) (s := sampled v s) hcap
  obtain ⟨opened, himpact⟩ := offerImpact_opens (s := { sampled v s with cabinet.capture := capture }) ho hd hq
  obtain ⟨cabinet, causes, htilt⟩ := offerTilt_standby
    (s := { s with cabinet := opened, work := s.work ++ [.wake .impact] }) ho
  refine ⟨cabinet, causes, ?_⟩
  rw [takeSample_inRange hv, hb, hcapture, himpact]
  refine htilt.trans ?_
  rw [List.append_assoc]
  rfl

/-- A sample that opens no event is offered to the tilt detector on the moved baseline. -/
theorem takeSample_offered (hno : ¬ (s.impacts (v.exact.minus b) ∧ s.cabinet.impact = .quiet)) :
    ∃ cabinet, takeSample v s = offerTilt { s with cabinet := cabinet } ∧ cabinet.tilt = s.cabinet.tilt ∧
      cabinet.baseline =
        some ⟨b.x + (v.x - b.x) / 100, b.y + (v.y - b.y) / 100, b.z + (v.z - b.z) / 100⟩ := by
  obtain ⟨capture, hcapture⟩ := offerCapture_open (v := v) (s := sampled v s) hcap
  obtain ⟨impact, himpact⟩ := offerImpact_stays (s := { sampled v s with cabinet.capture := capture }) hno
  refine ⟨{ (sampled v s).cabinet with capture := capture, impact := impact }, ?_, rfl, ?_⟩
  · rw [takeSample_inRange hv, hb, hcapture, himpact]
    rfl
  · unfold sampled
    rw [hb, sensorRate_standby ho]
    rfl

/-- A sample whose moved baseline has been above the threshold for long enough wakes. -/
theorem takeSample_raises {r : IVec} {kind : ReportKind} {cause : WakeCause} {high : Bool}
    (hno : ¬ (s.impacts (v.exact.minus b) ∧ s.cabinet.impact = .quiet)) (hr : s.keep.reference = some r)
    (hm : QVec.testable ⟨b.x + (v.x - b.x) / 100, b.y + (v.y - b.y) / 100, b.z + (v.z - b.z) / 100⟩ = true)
    (hrt : r.exact.testable = true)
    (habove : angleAbove (cosSq s.config.tiltThreshold)
      ⟨b.x + (v.x - b.x) / 100, b.y + (v.y - b.y) / 100, b.z + (v.z - b.z) / 100⟩ r.exact = true)
    (hhigh : angleAbove (1 / 4) ⟨b.x + (v.x - b.x) / 100, b.y + (v.y - b.y) / 100, b.z + (v.z - b.z) / 100⟩ r.exact = high)
    (hraise : ∀ c : Cabinet, c.tilt = s.cabinet.tilt →
      testTilt true high { s with cabinet := c } = raiseTilt kind cause { s with cabinet := c }) :
    ∃ cabinet, takeSample v s = { s with cabinet := cabinet, work := s.work ++ [.wake cause] } := by
  obtain ⟨moved, hgo, htilt, hbase⟩ := takeSample_offered hv ho hb hcap hno
  obtain ⟨cabinet, hraised⟩ := raiseTilt_standby (s := { s with cabinet := moved }) ho kind cause
  refine ⟨cabinet, hgo.trans (Eq.trans ?_ hraised)⟩
  unfold offerTilt
  rw [hbase, show ({ s with cabinet := moved } : Station).keep.reference = some r from hr]
  dsimp only
  rw [hm, hrt, if_pos (by decide)]
  change testTilt (angleAbove (cosSq s.config.tiltThreshold) _ _) _ _ = _
  rw [habove, hhigh]
  exact hraise moved htilt

end

/-! ### The ANNOUNCE of the entry into ACTIVE (R12) -/

/-- The ACTIVE ANNOUNCE with solicit stands in the queue. -/
def Station.solicits (s : Station) : Prop := s.holdsFrame (.announce false true) 63 = true

theorem solicits_of_line {s t : Station} (h : t.line = s.line) (hs : s.solicits) : t.solicits :=
  (holdsFrame_of_line h _ _).trans hs

theorem solicits_queued {s : Station} (h : s.solicits) : s.announceQueued = true := by
  obtain ⟨g, hg, hbody, -⟩ := (holdsFrame_iff _ _ _).mp h
  exact (announceQueued_iff s).mpr ⟨g, hg, by rw [hbody]; rfl⟩

/-- A further cause merges into the ANNOUNCE with solicit, which stays. -/
theorem announceCause_solicits {y : Bool} {s : Station} (h : s.solicits) : (announceCause y s).solicits := by
  have hmerge : (mergeAnnounce false y s).solicits := by
    have hmap := mapAnnounce_keeps (f := TxBody.mergedWith false y) (c := .announce false true) rfl h
    unfold mergeAnnounce
    rw [if_pos (solicits_queued h)]
    dsimp only
    split
    · exact hmap
    · exact hmap
  unfold announceCause
  split
  · split
    · exact h
    · exact h
    · exact hmerge
    · exact hmerge
  · exact h

theorem putBearer_solicits {l : Letter} {r : Bearer} {s : Station} (h : s.solicits) : (putBearer l r s).solicits := by
  unfold putBearer
  dsimp only
  generalize hu : (if (s.bearer l).state == .inCall && r.state != .inCall then removeBearerBridges l s else s) = u
  have hset : (setBearer l r u).solicits := by
    refine solicits_of_line ?_ h
    rw [← hu]
    cases l <;> (dsimp only [setBearer]; split <;> rfl)
  have hann := announceCause_solicits (y := false) hset
  split <;> split
  · exact hann
  · exact hset
  · exact hann
  · exact hset

theorem startFitted_solicits {s : Station} (h : s.solicits) : (startFitted s).solicits := by
  unfold startFitted
  refine List.foldlRecOn _ _ h fun t ht l _ => ?_
  split
  · exact putBearer_solicits (s := emit _ (emit _ t)) ht
  · exact ht

/-- A call request leaves the line interface and the reports as they were. -/
theorem createOrigin_frame (m : Mode) (s : Station) :
    (createOrigin m s).line = s.line ∧ (createOrigin m s).reports = s.reports := by
  unfold createOrigin
  split
  · dsimp only
    obtain ⟨audio, panel, hended⟩ := endFailed_shape { s with keep.lastCall := nextNumber s.keep.lastCall }
    rw [hended, tallyUp_eq]
    dsimp only
    generalize htone : tryBridge _ _ = w
    obtain ⟨shown, panel', hshown⟩ := showNotice_shape .connecting .slowFlash w
    have hframe : w.line = s.line ∧ w.reports = s.reports := by
      rw [← htone]
      obtain ⟨bridges, hbridged⟩ := tryBridge_shape ⟨.tone, m.callerEnd, .origin (newOrigin m s).tag⟩
        { s with
          keep.lastCall := nextNumber s.keep.lastCall
          keep.tally := if s.keep.tally.frozen then s.keep.tally else { s.keep.tally with placed := s.keep.tally.placed + 1 }
          call.origin := some (newOrigin m s)
          audio := audio
          panel := panel }
      exact ⟨(congrArg Station.line hbridged).trans rfl, (congrArg Station.reports hbridged).trans rfl⟩
    unfold showConnecting
    rw [hshown]
    exact hframe
  · exact ⟨rfl, rfl⟩

theorem createOrigin_line (m : Mode) (s : Station) : (createOrigin m s).line = s.line := (createOrigin_frame m s).1

theorem handRequest_line (s : Station) : (handRequest s).line = s.line := by
  unfold handRequest
  split
  · exact (createOrigin_line _ _).trans rfl
  · rfl

theorem handPending_line (s : Station) : (handPending s).line = s.line := by
  unfold handPending
  refine List.foldlRecOn (motive := fun t : Station => t.line = s.line) _ _ rfl fun t ht e _ => ?_
  obtain ⟨-, -, -, hline, -⟩ := handReport_frame e t
  exact hline.trans ht

/-- A station that enters ACTIVE with nothing to send announces it with solicit. -/
theorem enterActive_solicits {s : Station} (hline : s.line = clearedLine) (hp : s.power.progress = .none) :
    (enterActive s).solicits := by
  unfold enterActive
  dsimp only
  refine solicits_of_line ((handPending_line _).trans (handRequest_line _)) (startFitted_solicits ?_)
  generalize hu : emit (.sensorRate 100) (clearDirectory { s with power.opState := .active, power.configRead := none }) = u
  have hactive : u.power.opState = .active := by rw [← hu]; rfl
  have hprogress : u.power.progress = .none := by rw [← hu]; exact hp
  have hempty : u.line = clearedLine := by rw [← hu]; exact hline
  unfold announceCause
  rw [if_pos hactive, hprogress]
  dsimp only
  unfold mergeAnnounce
  rw [if_neg (by unfold Station.announceQueued; rw [hempty]; decide)]
  exact handOver_holds (s := { u with announcing.period := none }) (takesFrame_active (s := { u with announcing.period := none }) hactive _ _) (by
    change u.line.total < 8
    rw [hempty]
    decide)

theorem deliverWake_line (cause : WakeCause) (s : Station) : (deliverWake cause s).line = s.line := by
  unfold deliverWake
  split
  · exact (createOrigin_line _ _).trans rfl
  · exact createOrigin_line _ _
  · rfl

end Sys2Proof.Machine

/-! PROOFS. The wake (O6): the commands that wake. -/

namespace Sys2Proof.Machine

/-- The wake taken solicits the announcements of the others. -/
theorem takeWake_solicits {cause : WakeCause} {s : Station} (ho : s.power.opState = .standby)
    (hm : s.power.mainRail = true) (hp : s.power.progress = .none) : (takeWake cause s).solicits := by
  rw [takeWake_standby ho hm]
  exact solicits_of_line (deliverWake_line _ _)
    (enterActive_solicits (s := waking cause s) rfl ((waking_progress cause s).trans hp))

theorem takeWake_running {cause : WakeCause} {s : Station} (ho : s.power.opState = .standby)
    (hm : s.power.mainRail = true) (hr : s.running = true) : (takeWake cause s).running = true := by
  have hkept := deliverWake_kept cause (enterActive (waking cause s))
  have hactive := enterActive_kept (waking_bearers cause s)
  have hpower := (clearBlocks_power s).1
  have hkeep : (deliverWake cause (enterActive (waking cause s))).power.keepRail = s.power.keepRail :=
    (congrArg Kept.keepRail hkept).trans ((congrArg Kept.keepRail hactive).trans (congrArg Power.keepRail hpower :))
  have hheld : (deliverWake cause (enterActive (waking cause s))).power.held = s.power.held :=
    (congrArg Kept.held hkept).trans ((congrArg Kept.held hactive).trans (congrArg Power.held hpower :))
  rw [running_iff] at hr ⊢
  rw [takeWake_standby ho hm, hkeep, hheld]
  exact hr

theorem takePin_becomes {f : Station → Station} {s : State} {u : Station} (h : f (freshOut s.station) = u)
    (hr : u.running = true) : takePin f s = .next { s with station := finish u } := by
  subst h
  exact takePin_running hr

theorem takeWakeFrame_wakes {f : RxFrame} {s : Station} (hsource : f.source ≠ 0) (hbody : f.body = [])
    (hdest : s.isOwn f.dest.toNat = true ∨ f.dest.toNat = 63) (ho : s.power.opState = .standby) :
    takeWakeFrame f s = post (.wake .wakeFrame) s := by
  unfold takeWakeFrame
  rw [if_pos ⟨hsource, by rw [hbody]; rfl⟩]
  dsimp only
  have haddressed : (s.isOwn f.dest.toNat || f.dest.toNat == 63) = true := by
    rw [Bool.or_eq_true, beq_iff_eq]
    exact hdest
  have hawake : s.power.opState ≠ .active := by
    rw [ho]
    decide
  rw [if_neg hawake, if_pos haddressed, if_neg hawake, if_pos ho]

theorem judge_owners {kind : Nat} {f : RxFrame} {owners : Station → Station} {s : Station}
    (hc : frameCheckOk kind f = true) (ho : s.power.opState = .standby) (hg : s.segmentOk kind f = true)
    (hd : frameAddressesDefined f = true) : judgeFrame kind f owners s = owners s := by
  unfold judgeFrame
  rw [if_neg (by rw [hc]; decide), if_neg (by rw [ho, hg]; decide),
    if_neg (by rw [ho]; exact Bool.false_ne_true), if_pos hd]

/-- Settles O6: each wake cause makes a station in STANDBY ACTIVE. -/
theorem wakeEntersActive : Obligations.WakeEntersActive := by
  intro s hrunning ho hp woken held
  have hwoken : ∀ (cause : WakeCause) (disregards : Bool) (now : Stamp) (u v : Station), u.WokenTo cause v →
      u.keep.config = s.station.keep.config → (cause ≠ .offHook → u.panel.hook = s.station.panel.hook) →
      u.panel.disregard = disregards → u.keep.clock = now → woken cause disregards now { s with station := v } := by
    intro cause disregards now u v h hconfig hhook hdisregard hclock
    have hc : u.config = s.station.config := by
      unfold Station.config
      rw [hconfig]
    refine ⟨h.opState, h.startCause, h.wakeCause, h.checkIn, h.clock.trans hclock, h.directory.trans (by rw [hc]),
      h.hook.trans ?_, h.disregard.trans hdisregard, fun l hl => ?_⟩
    · by_cases hoff : cause = .offHook
      · rw [if_pos hoff, if_pos hoff]
      · rw [if_neg hoff, if_neg hoff, hhook hoff]
    · refine (h.bearer l ?_).trans ?_
      · unfold Station.fitted
        rw [hc]
        exact hl
      · rw [show u.now = now from hclock]
        rfl
  refine ⟨fun hm => ⟨fun d now hd hnow => ?_, fun f htx hasm hcheck hseg haddr hsource hbody hdest => ?_, ?_, ?_,
    fun x y z b hb hcap hx hy hz => ?_⟩, fun cause hheld => ?_, fun hm cause => takeWake_solicits ho hm hp⟩
  · refine ⟨{ s with station := finish (post (.wake .checkIn) { atMoment now s.station with power.checkIn := none }) }, ?_,
      hwoken .checkIn held now _ _ (finish_wakes (rest := []) rfl ho hm hp) rfl (fun _ => rfl) rfl rfl⟩
    change execCheckInTimerExpiry s = _
    unfold execCheckInTimerExpiry
    rw [takeExpiry_running (d := d) hrunning hd, ← hnow]
  · have hgo : receiveFrame 2 f (takeWakeFrame f) (freshOut s.station) = post (.wake .wakeFrame) (assembled s.station) := by
      have hsegment : (assembled s.station).segmentOk 2 f = true := by
        unfold Station.segmentOk
        rw [show (assembled s.station).config.segment = some f.segment from hseg]
        exact beq_self_eq_true _
      rw [receive_assembled (s := freshOut s.station) htx hasm]
      exact (judge_owners (s := assembled s.station) hcheck ho hsegment haddr).trans
        (takeWakeFrame_wakes hsource hbody hdest ho)
    refine ⟨{ s with station := finish (post (.wake .wakeFrame) (assembled s.station)) }, ?_,
      hwoken .wakeFrame held _ _ _ (finish_wakes (rest := []) rfl ho hm hp) rfl (fun _ => rfl) rfl rfl⟩
    change execWakeFrame f s = _
    unfold execWakeFrame
    rw [takeEvent_running hrunning, hgo]
  · refine ⟨{ s with station := finish (post (.wake .offHook) { freshOut s.station with panel.hook := .offHook }) }, ?_,
      hwoken .offHook held _ _ _ (finish_wakes (rest := []) rfl ho hm hp) rfl (fun h => absurd rfl h) rfl rfl⟩
    change execOffHook s = _
    unfold execOffHook
    rw [takeEvent_running hrunning, if_pos (show (freshOut s.station).power.opState = .standby from ho)]
  · refine ⟨{ s with station := finish (post (.wake .button) { freshOut s.station with panel.disregard := true }) }, ?_,
      hwoken .button true _ _ _ (finish_wakes (rest := []) rfl ho hm hp) rfl (fun _ => rfl) rfl rfl⟩
    change execButtonPressCounts s = _
    unfold execButtonPressCounts
    rw [takeEvent_running hrunning, if_pos (show (freshOut s.station).power.opState = .standby from ho)]
  · intro limit d opens wakes
    have hv : IVec.inRange ⟨x, y, z⟩ = true := (inRange_iff x y z).mpr (by omega)
    have hwakes : ∀ cause cabinet rest, takeSample ⟨x, y, z⟩ (freshOut s.station) =
        { freshOut s.station with cabinet := cabinet, work := (freshOut s.station).work ++ .wake cause :: rest } →
        cause ≠ .offHook → wakes cause := by
      intro cause cabinet rest hsample _
      refine ⟨{ s with station := finish { freshOut s.station with cabinet := cabinet, work := .wake cause :: rest } }, ?_,
        hwoken cause held _ _ _ (finish_wakes (rest := rest) rfl ho hm hp) rfl (fun _ => rfl) rfl rfl⟩
      change execSample x y z s = _
      unfold execSample
      rw [takeEvent_running hrunning, hsample]
      rfl
    refine ⟨fun hopens => ?_, fun r start high eligible hno hr htilt => ?_⟩
    · obtain ⟨cabinet, rest, hsample⟩ := takeSample_opens (s := freshOut s.station) hv ho hb hcap hopens.1 hopens.2
      exact hwakes .impact cabinet rest hsample (by decide)
    · intro m hmt hrt habove
      refine ⟨fun h helig hhigh hang hlong => ?_, fun hlow hlong => ?_⟩
      · obtain ⟨cabinet, hsample⟩ := takeSample_raises (s := freshOut s.station) (kind := .knockdown) (cause := .knockdown)
          (high := true) hv ho hb hcap hno hr hmt hrt habove hang
          (fun c hc => testTilt_knocksDown (hc.trans (htilt.trans (by rw [helig, hhigh]))) hlong)
        exact hwakes .knockdown cabinet [] hsample (by decide)
      · obtain ⟨cabinet, hsample⟩ := takeSample_raises (s := freshOut s.station) (kind := .tilt) (cause := .tilt)
          hv ho hb hcap hno hr hmt hrt habove rfl
          (fun c hc => testTilt_tilts (hc.trans htilt) hlow hlong)
        exact hwakes .tilt cabinet [] hsample (by decide)
  · have hmain : ({ freshOut s.station with power.mainRail := true } : Station).power.mainRail = true := rfl
    obtain ⟨hawake, hentry⟩ := takeWake_awake (cause := cause)
      (s := { freshOut s.station with power.mainRail := true }) ho hmain hp
    refine ⟨{ s with station := finish (takeWake cause { freshOut s.station with power.mainRail := true }) }, ?_,
      hwoken cause held _ _ _ (wokenTo_of_kept (s := { freshOut s.station with power.mainRail := true }) ho hmain
        (finish_kept hawake hentry)) rfl (fun _ => rfl) rfl rfl⟩
    change execMainRailReturn s = _
    unfold execMainRailReturn
    refine takePin_becomes ?_ (takeWake_running ho hmain hrunning)
    dsimp only
    rw [show (freshOut s.station).power.heldWake = some cause from hheld]
    exact if_pos hrunning

end Sys2Proof.Machine

/-! PROOFS. The record read in START (O7): the service decided, and what START held handed on. -/

namespace Sys2Proof.Machine

/-! ### Pending cabinet events become reports (R130, R132, R133) -/

theorem insertBy_perm {α : Type} (p : α → α → Bool) (x : α) (l : List α) : (insertBy p x l).Perm (x :: l) := by
  induction l with
  | nil => exact List.Perm.refl _
  | cons y ys ih =>
    unfold insertBy
    split
    · exact (ih.cons y).trans (List.Perm.swap x y ys)
    · exact List.Perm.refl _

theorem sortBy_perm {α : Type} (p : α → α → Bool) (l : List α) : (sortBy p l).Perm l := by
  induction l with
  | nil => exact List.Perm.refl _
  | cons x xs ih =>
    unfold sortBy
    exact (insertBy_perm p x _).trans (ih.cons x)

/-- The waiting report of a cabinet event. -/
def ReportEntry.files (g : ReportEntry) (e : CabinetEvent) : Prop :=
  g.state = .waiting ∧ g.record.kind = e.kind ∧ g.record.first = e.first ∧ g.record.last = e.last ∧
    g.record.repeats = e.repeats ∧ g.peakSq = e.peakSq

/-- Events of kinds that no report is of yet, and for which the queue has room, are each filed. -/
theorem handReports_file (es : List CabinetEvent) {t : Station} (hkinds : (es.map (·.kind)).Nodup)
    (hnew : ∀ g ∈ t.reports.queue, ∀ e ∈ es, g.record.kind ≠ e.kind) (hroom : t.reports.queue.length + es.length ≤ 8) :
    (∀ g ∈ t.reports.queue, g ∈ (es.foldl (fun t e => handReport e t) t).reports.queue) ∧
      ∀ e ∈ es, ∃ g ∈ (es.foldl (fun t e => handReport e t) t).reports.queue, g.files e := by
  induction es generalizing t with
  | nil => exact ⟨fun _ h => h, fun _ h => nomatch h⟩
  | cons e es ih =>
    obtain ⟨hfirst, hrest⟩ := List.nodup_cons.mp hkinds
    have hnone : (t.reports.queue.any fun g => g.waits && g.record.kind == e.kind) = false := by
      refine List.any_eq_false.mpr fun g hg h => ?_
      exact hnew g hg e List.mem_cons_self (beq_iff_eq.mp (Bool.and_eq_true _ _ ▸ h).2)
    have hqueue : (handReport e t).reports.queue = t.reports.queue ++ [newEntry (t.newRecord e) e.peakSq] := by
      rw [handReport_joins hnone (by rw [List.length_cons] at hroom; omega)]
      rfl
    obtain ⟨hstay, hfiled⟩ := ih (t := handReport e t) hrest
      (fun g hg d hd => by
        rw [hqueue] at hg
        rcases List.mem_append.mp hg with hg | hg
        · exact hnew g hg d (List.mem_cons_of_mem _ hd)
        · obtain rfl := List.mem_singleton.mp hg
          exact fun h => hfirst (List.mem_map.mpr ⟨d, hd, h.symm⟩))
      (by rw [hqueue, List.length_append]; rw [List.length_cons] at hroom; simp only [List.length_singleton]; omega)
    rw [hqueue] at hstay
    refine ⟨fun g hg => hstay g (List.mem_append_left _ hg), fun d hd => ?_⟩
    rcases List.mem_cons.mp hd with rfl | hd
    · exact ⟨_, hstay _ (List.mem_append_right _ (List.mem_singleton.mpr rfl)), rfl, rfl, rfl, rfl, rfl, rfl⟩
    · exact hfiled d hd

/-- There are five kinds of events. -/
theorem kinds_length {es : List CabinetEvent} (h : (es.map (·.kind)).Nodup) : es.length ≤ 5 := by
  have hsub : es.map (·.kind) ⊆ [.impact, .tilt, .knockdown, .callUnplaced, .callDropped] := by
    intro k _
    cases k <;> decide
  have hle := List.Nodup.length_le_of_subset h hsub
  rw [List.length_map] at hle
  exact hle

theorem handPending_files {s : Station} (hq : s.reports.queue = []) (h : (s.cabinet.pending.map (·.kind)).Nodup) :
    ∀ e ∈ s.cabinet.pending, ∃ g ∈ (handPending s).reports.queue, g.files e := by
  have hperm := sortBy_perm (fun a b : CabinetEvent => Stamp.before a.first b.first) s.cabinet.pending
  have hlen : s.cabinet.pending.length ≤ 5 := kinds_length h
  obtain ⟨-, hfiled⟩ := handReports_file (sortBy (fun a b => Stamp.before a.first b.first) s.cabinet.pending)
    (t := { s with cabinet.pending := [] }) ((hperm.map _).nodup_iff.mpr h)
    (fun g hg => by rw [show ({ s with cabinet.pending := [] } : Station).reports.queue = [] from hq] at hg; exact nomatch hg)
    (by
      change s.reports.queue.length + _ ≤ 8
      rw [hq, hperm.length_eq, List.length_nil]
      omega)
  exact fun e he => hfiled e (hperm.mem_iff.mpr he)

theorem handPending_frame (s : Station) :
    (handPending s).call = s.call ∧ ∀ t ∈ s.work, t ∈ (handPending s).work := by
  unfold handPending
  refine List.foldlRecOn (motive := fun t : Station => t.call = s.call ∧ ∀ x ∈ s.work, x ∈ t.work) _ _ ⟨rfl, fun _ h => h⟩
    fun t ht e _ => ?_
  obtain ⟨hcall, -, -, -, hwork⟩ := handReport_frame e t
  exact ⟨hcall.trans ht.1, fun x hx => hwork x (ht.2 x hx)⟩

/-! ### Bearers powered up (R39) -/

/-- Bearers and bridges have changed, and nothing else of the core. -/
def Station.Furnishes (s t : Station) : Prop := ∃ bearers audio, t.core = { s.core with bearers := bearers, audio := audio }

theorem Station.Furnishes.trans {s t u : Station} (h : s.Furnishes t) (h' : t.Furnishes u) : s.Furnishes u := by
  obtain ⟨b, a, hc⟩ := h
  obtain ⟨b', a', hc'⟩ := h'
  exact ⟨b', a', by rw [hc', hc]⟩

theorem furnishes_of_core {s t : Station} (h : t.core = s.core) : s.Furnishes t := ⟨s.bearers, s.audio, h⟩

theorem putBearer_furnishes (l : Letter) (r : Bearer) (s : Station) : s.Furnishes (putBearer l r s) := by
  unfold putBearer
  dsimp only
  generalize hu : (if (s.bearer l).state == .inCall && r.state != .inCall then removeBearerBridges l s else s) = u
  have hset : s.Furnishes (setBearer l r u) := by
    rw [← hu]
    cases l <;> (dsimp only [setBearer]; split <;> exact ⟨_, _, rfl⟩)
  have hann : s.Furnishes (announceCause false (setBearer l r u)) :=
    hset.trans (furnishes_of_core (announceCause_core _ _))
  split <;> split
  · exact hann.trans (furnishes_of_core rfl)
  · exact hset.trans (furnishes_of_core rfl)
  · exact hann.trans (furnishes_of_core rfl)
  · exact hset

theorem startBearer_furnishes (l : Letter) (s : Station) : s.Furnishes (startBearer l s) :=
  putBearer_furnishes l _ (emit _ (emit _ s))

theorem startFitted_furnishes (s : Station) : s.Furnishes (startFitted s) := by
  unfold startFitted
  refine List.foldlRecOn (motive := fun t : Station => s.Furnishes t) _ _ (furnishes_of_core rfl) fun t ht l _ => ?_
  split
  · exact ht.trans (startBearer_furnishes l t)
  · exact ht

/-! ### What START held is handed on (R64, R113, R130) -/

/-- At `u` a station in service has taken the call request and the pending events of `s`. -/
structure Station.HandsOn (s u : Station) : Prop where
  idle : s.panel.request = none → u.call = s.call
  request : ∀ mode, s.panel.request = some mode →
    ∃ o, u.call = { s.call with origin := some o } ∧ o.mode = mode ∧ o.phase = .selecting ∧
      o.tag = ⟨s.tagOrigin, nextNumber s.keep.lastCall⟩ ∧
      o.setupDeadline = some (s.within (s.config.setupLimit * 1000)) ∧ .select o.tag ∈ u.work
  pending : ∀ e ∈ s.cabinet.pending, ∃ g ∈ u.reports.queue, g.files e

theorem handRequest_frame (s : Station) :
    (handRequest s).reports = s.reports ∧ (handRequest s).cabinet = s.cabinet := by
  refine ⟨?_, congrArg Kept.cabinet (handRequest_kept s)⟩
  unfold handRequest
  split
  · exact (createOrigin_frame _ _).2
  · rfl

theorem handsOn_of {s : Station} (hs : s.inService = true) (ho : s.call.origin = none) (hq : s.reports.queue = [])
    (h : (s.cabinet.pending.map (·.kind)).Nodup) : s.HandsOn (handPending (handRequest (startFitted s))) := by
  obtain ⟨bearers, audio, hcore⟩ := startFitted_furnishes s
  generalize startFitted s = t at hcore
  have hcall : t.call = s.call := congrArg StationCore.call hcore
  have hpanel : t.panel = s.panel := congrArg StationCore.panel hcore
  have hcabinet : t.cabinet = s.cabinet := congrArg StationCore.cabinet hcore
  have hqueue : t.reports.queue = s.reports.queue := congrArg StationCore.queue hcore
  obtain ⟨hreports, hheld⟩ := handRequest_frame t
  obtain ⟨hafter, hwork⟩ := handPending_frame (handRequest t)
  refine ⟨fun hr => ?_, fun mode hr => ?_, ?_⟩
  · have hsame : handRequest t = t := by
      unfold handRequest
      rw [hpanel, hr]
    rw [hafter, hsame, hcall]
  · have hgo : handRequest t = createOrigin mode { t with panel.request := none } := by
      unfold handRequest
      rw [hpanel, hr]
    have hservice : t.inService = true := by
      unfold Station.inService at hs ⊢
      rw [show t.power.opState = s.power.opState from congrArg StationCore.opState hcore]
      exact hs
    have hmakes := createOrigin_makes (mode := mode) (s := { t with panel.request := none }) hservice
      (show t.call.origin = none by rw [hcall]; exact ho)
    have hconfig : t.config = s.config := by
      unfold Station.config
      rw [show t.keep.config = s.keep.config from congrArg StationCore.config hcore]
    refine ⟨newOrigin mode { t with panel.request := none }, ?_, rfl, rfl, ?_, ?_, hwork _ (hgo ▸ hmakes.selects)⟩
    · rw [hafter, hgo, hmakes.call]
      exact congrArg (fun c : Call => { c with origin := some (newOrigin mode { t with panel.request := none }) }) hcall
    · change (⟨t.tagOrigin, nextNumber t.keep.lastCall⟩ : Tag) = _
      unfold Station.tagOrigin
      rw [hconfig, show t.keep.lastCall = s.keep.lastCall from congrArg StationCore.lastCall hcore]
    · change some (t.within (t.config.setupLimit * 1000)) = _
      unfold Station.within Station.now
      rw [hconfig, show t.keep.clock = s.keep.clock from congrArg StationCore.clock hcore]
  · have hfiles := handPending_files (s := handRequest t) (by rw [hreports, hqueue]; exact hq)
      (by rw [hheld, hcabinet]; exact h)
    rw [hheld, hcabinet] at hfiles
    exact hfiles

end Sys2Proof.Machine

/-! PROOFS. The record read in START (O7): a valid record, an invalid one, and none in time. -/

namespace Sys2Proof.Machine

/-- What is handed on depends on the panel, the calls, the pending events, the configuration, the call number and the
clock. -/
theorem Station.HandsOn.of_same {s t u : Station} (h : t.HandsOn u) (hpanel : t.panel = s.panel) (hcall : t.call = s.call)
    (hcabinet : t.cabinet = s.cabinet) (hconfig : t.keep.config = s.keep.config) (hlast : t.keep.lastCall = s.keep.lastCall)
    (hclock : t.keep.clock = s.keep.clock) : s.HandsOn u := by
  obtain ⟨hidle, hrequest, hpending⟩ := h
  rw [hpanel, hcall] at hidle hrequest
  rw [hcabinet] at hpending
  unfold Station.tagOrigin Station.within Station.now Station.config at hrequest
  rw [hconfig, hlast, hclock] at hrequest
  exact ⟨hidle, hrequest, hpending⟩

section
variable {s : Station} (ho : s.call.origin = none) (hq : s.reports.queue = [])
  (h : (s.cabinet.pending.map (·.kind)).Nodup)
include ho hq h

theorem enterActive_handsOn : s.HandsOn (enterActive s) := by
  generalize hx : emit (.sensorRate 100) (clearDirectory { s with power.opState := .active, power.configRead := none }) = x
  have hcore := announceCause_core true x
  have hgo : enterActive s = handPending (handRequest (startFitted (announceCause true x))) := by
    rw [← hx]
    rfl
  have hcall : (announceCause true x).call = s.call := by rw [core_call_eq hcore, ← hx]; rfl
  have hqueue : (announceCause true x).reports.queue = s.reports.queue := by
    rw [show (announceCause true x).reports.queue = x.reports.queue from congrArg StationCore.queue hcore, ← hx]
    rfl
  have hcabinet : (announceCause true x).cabinet = s.cabinet := by
    rw [show (announceCause true x).cabinet = x.cabinet from congrArg StationCore.cabinet hcore, ← hx]
    rfl
  have hservice : (announceCause true x).inService = true := by
    unfold Station.inService
    rw [announceCause_opState, ← hx]
    rfl
  rw [hgo]
  refine (handsOn_of hservice (by rw [hcall]; exact ho) (by rw [hqueue]; exact hq) (by rw [hcabinet]; exact h)).of_same
    ?_ hcall hcabinet ?_ ?_ ?_
  · rw [show (announceCause true x).panel = x.panel from congrArg StationCore.panel hcore, ← hx]
    rfl
  · rw [show (announceCause true x).keep.config = x.keep.config from congrArg StationCore.config hcore, ← hx]
    rfl
  · rw [show (announceCause true x).keep.lastCall = x.keep.lastCall from congrArg StationCore.lastCall hcore, ← hx]
    rfl
  · rw [show (announceCause true x).keep.clock = x.keep.clock from congrArg StationCore.clock hcore, ← hx]
    rfl

theorem configInvalid_handsOn : Station.HandsOn { s with keep.config := some builtInSet } (configInvalid s) := by
  generalize hx : emit (.sensorRate 100) (clearDirectory
    { { raise .configInvalid s with keep.config := some builtInSet } with
      power.opState := .isolated, power.configRead := none }) = x
  have hgo : configInvalid s = handPending (handRequest (startFitted x)) := by
    rw [← hx]
    rfl
  rw [hgo]
  refine (handsOn_of (s := x) ?_ ?_ ?_ ?_).of_same ?_ ?_ ?_ ?_ ?_ ?_
  all_goals rw [← hx]
  · rfl
  · exact ho
  · exact hq
  · exact h
  all_goals rfl

end

/-- Settles O7: the record read in START decides the service. -/
theorem configurationReadDecidesService : Obligations.ConfigurationReadDecidesService := by
  intro d s hs hstart hread hbearers ho hq hkinds started entered handsOn decides k
  have hstarted : ∀ now (b : Bool), started now b = (if b = true then startedAt now else clearedBearer).kept := by
    intro now b
    cases b <;> rfl
  have hopen : (freshOut s.station).power.configRead.isSome = true := by
    rw [show (freshOut s.station).power.configRead = some d from hread]
    rfl
  have hwaits : k.waitingEntry = false := awake_waitingEntry hs
  have hvalid : ∀ bytes c, readConfiguration bytes = some c →
      exec (.configReadComplete bytes) s =
        .next { s with station := finish (enterActive { freshOut s.station with keep.config := some c }) } := by
    intro bytes c hc
    change execConfigReadComplete bytes s = _
    unfold execConfigReadComplete
    rw [takeEvent_running hs.1, if_pos hopen]
    unfold judgeRecord
    rw [hc]
  have hinvalid : ∀ (i : Instr) now (v : Station), exec i s = .next { s with station := finish (configInvalid v) } →
      v.kept = { k with clock := now } → v.bearers = clearedBearers → v.call = s.station.call →
      v.reports.queue = s.station.reports.queue → v.cabinet = s.station.cabinet → v.panel = s.station.panel →
      v.keep.lastCall = s.station.keep.lastCall →
      decides i (k.raised .configInvalid) now .isolated builtInSet := by
    intro i now v hrun hkept hb hcall hqueue hcabinet hpanel hlast
    have hclock : v.keep.clock = now := congrArg Kept.clock hkept
    have hentered := configInvalid_kept hb
    rw [hkept, hcabinet, show v.now = now from hclock] at hentered
    refine ⟨_, hrun, finish_kept_of (hentered.trans ?_) (fun e => nomatch e) hwaits, ?_⟩
    · change _ = entered (k.raised .configInvalid) now .isolated builtInSet
      unfold entered
      rw [hstarted, hstarted]
      rfl
    · obtain ⟨hidle, hrequest, hpending⟩ := (configInvalid_handsOn (by rw [hcall]; exact ho) (by rw [hqueue]; exact hq)
        (by rw [hcabinet]; exact hkinds)).of_same (s := { s.station with keep.clock := now, keep.config := some builtInSet })
          hpanel hcall hcabinet rfl hlast hclock
      exact ⟨hidle, hrequest, hpending⟩
  refine ⟨fun bytes c hc => ⟨⟨_, hvalid bytes c hc, ?_, ?_⟩, fun hline hp => ⟨_, hvalid bytes c hc, ?_⟩⟩, fun bytes hc => ?_,
    fun now hnow => ?_⟩
  · have hentered := enterActive_kept (s := { freshOut s.station with keep.config := some c }) hbearers
    refine finish_kept_of (hentered.trans ?_) (fun e => nomatch e) hwaits
    change _ = entered k s.station.now .active c
    unfold entered
    rw [hstarted, hstarted]
    rfl
  · obtain ⟨hidle, hrequest, hpending⟩ :=
      enterActive_handsOn (s := { freshOut s.station with keep.config := some c }) ho hq hkinds
    exact ⟨hidle, hrequest, hpending⟩
  · exact enterActive_solicits (s := { freshOut s.station with keep.config := some c }) hline hp
  · refine hinvalid _ s.station.now (freshOut s.station) ?_ rfl hbearers rfl rfl rfl rfl rfl
    change execConfigReadComplete bytes s = _
    unfold execConfigReadComplete
    rw [takeEvent_running hs.1, if_pos hopen]
    unfold judgeRecord
    rw [hc]
  · refine hinvalid _ now (atMoment now s.station) ?_ rfl hbearers rfl rfl rfl rfl rfl
    change execConfigReadLimitExpiry s = _
    unfold execConfigReadLimitExpiry
    rw [takeEvent_running hs.1, show (freshOut s.station).power.configRead = some d from hread]
    dsimp only
    rw [catchUp_freshOut, ← hnow]

end Sys2Proof.Machine

/-! PROOFS. A reload (O8): the directory, the circuit view and the own round when the configuration copy is replaced (R6, R7,
R35). -/

namespace Sys2Proof.Machine

/-! ### An ANNOUNCE in the queue, and its solicit flag -/

/-- An ANNOUNCE stands in the queue, with solicit where the flag asks for it. -/
def Station.announces (s : Station) (solicit : Bool) : Prop :=
  ∃ g ∈ s.line.frames, ∃ standby old, g.body = .announce standby old ∧ (solicit = true → old = true)

theorem announces_of_line {s t : Station} {b : Bool} (h : t.line = s.line) (hs : s.announces b) : t.announces b := by
  unfold Station.announces
  rw [h]
  exact hs

theorem announces_of_frames {s t : Station} {b : Bool} (h : ∀ g ∈ s.line.frames, g ∈ t.line.frames) (hs : s.announces b) :
    t.announces b := by
  obtain ⟨g, hg, hbody⟩ := hs
  exact ⟨g, h g hg, hbody⟩

theorem announces_queued {s : Station} {b : Bool} (h : s.announces b) : s.announceQueued = true := by
  obtain ⟨g, hg, standby, old, hbody, -⟩ := h
  exact (announceQueued_iff s).mpr ⟨g, hg, by rw [hbody]; rfl⟩

theorem queued_announces {s : Station} (h : s.announceQueued = true) : s.announces false := by
  obtain ⟨g, hg, hann⟩ := (announceQueued_iff s).mp h
  refine ⟨g, hg, ?_⟩
  cases hb : g.body with
  | announce standby old => exact ⟨standby, old, rfl, fun x => nomatch x⟩
  | _ => rw [hb] at hann; exact nomatch hann

theorem mapAnnounce_frames {f : TxBody → TxBody} {s : Station} {g : TxFrame} (h : g ∈ s.line.frames) :
    { g with body := f g.body } ∈ (mapAnnounce f s).line.frames := by
  unfold Line.frames mapAnnounce at *
  rcases List.mem_append.mp h with h | h
  · refine List.mem_append_left _ ?_
    simp only [Option.mem_toList, Option.map_map, Option.map_eq_some_iff] at h ⊢
    obtain ⟨v, hv, rfl⟩ := h
    exact ⟨v, hv, rfl⟩
  · exact List.mem_append_right _ (List.mem_map_of_mem h)

/-- The merge keeps an ANNOUNCE, with solicit where it had it or the cause asks for it. -/
theorem mapAnnounce_announces {x y b c : Bool} {s : Station} (h : s.announces b)
    (hc : c = true → b = true ∨ y = true) : (mapAnnounce (TxBody.mergedWith x y) s).announces c := by
  obtain ⟨g, hg, standby, old, hbody, hold⟩ := h
  refine ⟨_, mapAnnounce_frames hg, x, old || y, ?_, fun hct => ?_⟩
  · rw [hbody]
    rfl
  · rcases hc hct with hb | hy
    · rw [hold hb]
      rfl
    · rw [hy]
      exact Bool.or_true _

theorem mergeAnnounce_keeps_announces {x y b : Bool} {s : Station} (h : s.announces b) :
    (mergeAnnounce x y s).announces b := by
  have hmap : (mapAnnounce (TxBody.mergedWith x y) s).announces b := mapAnnounce_announces h Or.inl
  unfold mergeAnnounce
  rw [if_pos (announces_queued h)]
  dsimp only
  split
  · exact hmap
  · exact hmap

theorem announceCause_keeps_announces {y b : Bool} {s : Station} (h : s.announces b) : (announceCause y s).announces b := by
  unfold announceCause
  split
  · split
    · exact h
    · exact h
    · exact mergeAnnounce_keeps_announces h
    · exact mergeAnnounce_keeps_announces h
  · exact h

/-- A cause of ANNOUNCE queues one, or merges into the one that stands. -/
theorem announceCause_announcing {y : Bool} {s : Station} (hact : s.power.opState = .active)
    (hp : s.power.progress = .none) (hload : s.load ≤ 8) : (announceCause y s).announces y := by
  unfold announceCause
  rw [if_pos hact, hp]
  dsimp only
  unfold mergeAnnounce
  split
  · next hq =>
    have hmap : (mapAnnounce (TxBody.mergedWith false y) s).announces y :=
      mapAnnounce_announces (queued_announces hq) Or.inr
    dsimp only
    split
    · exact hmap
    · exact hmap
  · next hq =>
    have hload' := load_unqueued (Bool.eq_false_iff.mpr hq)
    have htakes : ({ s with announcing.period := none } : Station).takesFrame (.announce false y) 63 = true :=
      takesFrame_active (s := { s with announcing.period := none }) hact _ _
    rw [handOver_room htakes (by change s.line.total < 8; omega)]
    exact ⟨_, (addFrame_frames _ _ _).mpr (Or.inl rfl), false, y, rfl, id⟩

/-! ### The attempt withdrawn (R29, R35) -/

theorem removeUnbegun_keeps {p : TxBody → Bool} {s : Station} {g : TxFrame} (hp : p g.body = false)
    (h : g ∈ s.line.frames) : ∃ f ∈ (removeUnbegun p s).line.frames, f.body = g.body ∧ f.dest = g.dest :=
  (holdsFrame_iff _ _ _).mp (removeUnbegun_holds hp ((holdsFrame_iff s _ _).mpr ⟨g, h, rfl, rfl⟩))

theorem withdrawAttempt_announces {b : Bool} {s : Station} (h : s.announces b) : (withdrawAttempt s).announces b := by
  obtain ⟨g, hg, standby, old, hbody, hold⟩ := h
  obtain ⟨f, hf, hsame, -⟩ := removeUnbegun_keeps (p := TxBody.isClaim) (s := withdrawDraw .circuit s) (g := g)
    (by rw [hbody]; rfl) hg
  exact ⟨f, hf, standby, old, hsame.trans hbody, hold⟩

theorem withdrawAttempt_load (s : Station) : (withdrawAttempt s).load ≤ s.load := by
  have htotal : (withdrawAttempt s).line.total ≤ s.line.total := removeUnbegun_total TxBody.isClaim (withdrawDraw .circuit s)
  by_cases hq : s.announceQueued = true
  · have hstay := announces_queued (withdrawAttempt_announces (queued_announces hq))
    rw [load_queued hstay, load_queued hq]
    exact htotal
  · have hle := load_le_total (withdrawAttempt s)
    rw [load_unqueued (Bool.eq_false_iff.mpr hq)]
    omega

theorem leaveService_frame (s : Station) :
    (leaveService s).power = s.power ∧ (leaveService s).work = s.work := ⟨rfl, rfl⟩

theorem removeUnbegun_frame (p : TxBody → Bool) (s : Station) :
    (removeUnbegun p s).power = s.power ∧ (removeUnbegun p s).work = s.work := by
  unfold removeUnbegun
  dsimp only
  split
  · split
    · exact leaveService_frame _
    · exact ⟨rfl, rfl⟩
  · exact ⟨rfl, rfl⟩

theorem rounds_withdrawAttempt (s : Station) : s.Rounds 0 (withdrawAttempt s) := by
  obtain ⟨hpower, hwork⟩ := removeUnbegun_frame TxBody.isClaim (withdrawDraw .circuit s)
  have hcore : (withdrawAttempt s).core = s.core := (removeUnbegun_core _ _).trans rfl
  refine ⟨core_call_eq hcore, congrArg StationCore.bearers hcore, hpower, congrArg StationCore.clock hcore,
    fun x hx => ?_, withdrawAttempt_load s⟩
  rw [show (withdrawAttempt s).work = s.work from hwork]
  exact hx

theorem withdrawAttempt_circuits (s : Station) : (withdrawAttempt s).circuits = s.circuits :=
  congrArg StationCore.circuits ((removeUnbegun_core TxBody.isClaim (withdrawDraw .circuit s)).trans rfl :
    (withdrawAttempt s).core = s.core)

theorem rounds_countChanged {s : Station} (h : s.line.total < 8) : s.Rounds 1 (countChanged s) := by
  have hroom : (withdrawAttempt s).line.total < 8 :=
    Nat.lt_of_le_of_lt (removeUnbegun_total TxBody.isClaim (withdrawDraw .circuit s)) h
  unfold countChanged
  split
  · split
    · refine ((rounds_withdrawAttempt s).trans (m := 1) ?_).mono (Nat.le_refl 1)
      unfold continueRound
      split
      · next hb => exact rounds_beginAttempt hroom hb
      · exact rounds_endRound hroom
    · exact (Station.Rounds.refl s).mono (Nat.zero_le 1)
  · exact (Station.Rounds.refl s).mono (Nat.zero_le 1)

theorem countChanged_view (s : Station) : (countChanged s).circuits.view = s.circuits.view := by
  unfold countChanged
  split
  · split
    · exact (continueRound_view _ _).trans (congrArg Circuits.view (withdrawAttempt_circuits s))
    · rfl
  · rfl

/-! ### The effective count recomputed (R7) -/

/-- The counter of CIRCUIT_MISMATCH is one of those that last. -/
theorem mismatch_counter {s t : Station} (h : t.kept.counters = s.kept.counters) :
    t.keep.faults.counter .circuitMismatch = s.keep.faults.counter .circuitMismatch := by
  have hget := congrArg (fun l : List Nat => l[4]?) h
  exact Option.some.inj hget

/-- The recomputation, with the station in mismatch before it or not. -/
theorem recomputeCount_effect (was : Bool) (s : Station) :
    (recomputeCount was s).directory = { s.directory with effective := s.countOf } ∧
      (recomputeCount was s).keep.config = s.keep.config ∧ (recomputeCount was s).circuits = s.circuits ∧
      (recomputeCount was s).line = s.line ∧ (recomputeCount was s).keep.faults.counter .circuitMismatch =
        (if (if was = true then s.countOf < s.directory.effective else s.countOf < s.config.circuits) then
          min 255 (s.keep.faults.counter .circuitMismatch + 1)
        else s.keep.faults.counter .circuitMismatch) ∧ s.Rounds 0 (recomputeCount was s) := by
  have hsame : s.Rounds 0 { s with directory.effective := s.countOf } := ⟨rfl, rfl, rfl, rfl, fun _ h => h, Nat.le_refl _⟩
  have hraised : ∀ t : Station, s.Rounds 0 t → s.Rounds 0 (raise .circuitMismatch t) :=
    fun t h => (h.trans (m := 0) (u := raise .circuitMismatch t) ⟨rfl, rfl, rfl, rfl, fun _ h => h, Nat.le_refl _⟩).mono (Nat.le_refl 0)
  have hcond : ((if was then { s with directory.effective := s.countOf }.directory.effective < s.directory.effective
      else ({ s with directory.effective := s.countOf } : Station).mismatched = true) : Prop) ↔
      (if was = true then s.countOf < s.directory.effective else s.countOf < s.config.circuits) := by
    cases was with
    | true => exact Iff.rfl
    | false => exact decide_eq_true_iff
  unfold recomputeCount
  dsimp only
  by_cases h : (if was = true then s.countOf < s.directory.effective else s.countOf < s.config.circuits)
  · rw [if_pos (hcond.mpr h), if_pos h]
    exact ⟨rfl, rfl, rfl, rfl, raised_counter_same _ _ _, hraised _ hsame⟩
  · rw [if_neg fun x => h (hcond.mp x), if_neg h]
    exact ⟨rfl, rfl, rfl, rfl, rfl, hsame⟩

end Sys2Proof.Machine

/-! PROOFS. A reload (O8): the picture that the new configuration leaves, and the bearers that it fits (R35, R39, R63). -/

namespace Sys2Proof.Machine

/-! ### The recount, and the circuits of the new own address (R7, R35) -/

/-- The counter of CIRCUIT_MISMATCH after a recomputation to a count. -/
def Station.mismatchCount (s : Station) (was : Bool) (n : Nat) : Nat :=
  if (if was = true then n < s.directory.effective else n < s.config.circuits) then
    min 255 (s.keep.faults.counter .circuitMismatch + 1)
  else s.keep.faults.counter .circuitMismatch

theorem recount_effect (was : Bool) {s : Station} (h : s.line.total < 8) :
    (recount was s).directory = { s.directory with effective := s.countOf } ∧
      (recount was s).keep.config = s.keep.config ∧ (recount was s).circuits.view = s.circuits.view ∧
      (recount was s).keep.faults.counter .circuitMismatch = s.mismatchCount was s.countOf ∧ s.Rounds 1 (recount was s) := by
  obtain ⟨hdirectory, hconfig, hcircuits, hline, hcounter, hrounds⟩ := recomputeCount_effect was s
  have hkept := countChanged_kept (recomputeCount was s)
  refine ⟨(congrArg Kept.directory hkept).trans hdirectory, (congrArg Kept.config hkept).trans hconfig,
    (countChanged_view _).trans (congrArg Circuits.view hcircuits),
    (mismatch_counter (congrArg Kept.counters hkept)).trans hcounter, ?_⟩
  exact (hrounds.trans (rounds_countChanged (by rw [hline]; exact h))).mono (Nat.le_refl 1)

/-- An entry once the circuits held by an address are freed. -/
def freedEntry (address : Option Nat) (e : CircuitEntry) : CircuitEntry :=
  match e.holding with
  | some h => if some h.1 = address then .free else e
  | none => e

/-- One circuit looked at when those held by an address are freed. -/
def freeOne (address : Option Nat) (t : Station) (c : Circuit) : Station :=
  match (t.entry c).holding with
  | some h => if some h.1 = address then setView c .free t else t
  | none => t

theorem freeHeldBy_fold (address : Option Nat) (s : Station) :
    freeHeldBy address s = allCircuits.foldl (freeOne address) s := rfl

theorem freeOne_entry (address : Option Nat) (t : Station) (c : Circuit) :
    (freeOne address t c).entry c = freedEntry address (t.entry c) ∧
      ∀ e, e ≠ c → (freeOne address t c).entry e = t.entry e := by
  unfold freeOne freedEntry
  cases (t.entry c).holding with
  | none => exact ⟨rfl, fun _ _ => rfl⟩
  | some h =>
    dsimp only
    split
    · exact ⟨setView_entry_same _ _ _, fun e he => setView_entry_other he _ _⟩
    · exact ⟨rfl, fun _ _ => rfl⟩

theorem freeOne_frame (address : Option Nat) (t : Station) (c : Circuit) :
    ∃ view, freeOne address t c = { t with circuits.view := view } := by
  unfold freeOne
  split
  · split
    · exact ⟨_, rfl⟩
    · exact ⟨t.circuits.view, rfl⟩
  · exact ⟨t.circuits.view, rfl⟩

theorem freeHeldBy_frame (address : Option Nat) (s : Station) :
    ∃ view, freeHeldBy address s = { s with circuits.view := view } := by
  rw [freeHeldBy_fold]
  refine List.foldlRecOn (motive := fun t : Station => ∃ view, t = { s with circuits.view := view }) _ _
    ⟨s.circuits.view, rfl⟩ fun t ht c _ => ?_
  obtain ⟨view, rfl⟩ := ht
  obtain ⟨view', h⟩ := freeOne_frame address { s with circuits.view := view } c
  exact ⟨view', h⟩

theorem freeOnes_entry (address : Option Nat) {l : List Circuit} (hl : l.Nodup) (s : Station) :
    (∀ c ∈ l, (l.foldl (freeOne address) s).entry c = freedEntry address (s.entry c)) ∧
      ∀ c, c ∉ l → (l.foldl (freeOne address) s).entry c = s.entry c := by
  induction l generalizing s with
  | nil => exact ⟨fun _ h => (nomatch h), fun _ _ => rfl⟩
  | cons d l ih =>
    obtain ⟨hd, hrest⟩ := List.nodup_cons.mp hl
    obtain ⟨hin, hout⟩ := ih hrest (freeOne address s d)
    obtain ⟨hsame, hother⟩ := freeOne_entry address s d
    refine ⟨fun c hc => ?_, fun c hc => ?_⟩
    · rcases List.mem_cons.mp hc with rfl | hc
      · exact (hout c hd).trans hsame
      · have hne : c ≠ d := fun e => hd (e ▸ hc)
        exact (hin c hc).trans (by rw [hother c hne])
    · obtain ⟨hne, hnot⟩ := not_or.mp fun h => hc (List.mem_cons.mpr h)
      exact (hout c hnot).trans (hother c hne)

theorem freeHeldBy_entry (address : Option Nat) (s : Station) (c : Circuit) :
    (freeHeldBy address s).entry c = freedEntry address (s.entry c) := by
  have hmem : ∀ d : Circuit, d ∈ allCircuits := by decide
  exact (freeOnes_entry address (by decide : allCircuits.Nodup) s).1 c (hmem c)

/-! ### The picture after the reload (R6, R7, R35) -/

/-- What the reload has made at `v` of the directory and the circuits of `s`. -/
structure Station.Pictures (old new : Configuration) (was : Bool) (s v : Station) : Prop where
  rounds : s.Rounds 1 v
  config : v.keep.config = some new
  counter : v.keep.faults.counter .circuitMismatch = s.mismatchCount was v.directory.effective
  other : old.segment ≠ new.segment →
    v.directory = { entries := [], effective := new.circuits } ∧ v.circuits = clearedCircuits
  entries : old.segment = new.segment →
    v.directory.entries =
      if old.address = new.address then s.directory.entries
      else s.directory.entries.filter fun e => some e.address != new.address
  effective : old.segment = new.segment →
    v.directory.effective = v.directory.entries.foldl (fun n e => min n e.circuits) new.circuits
  view : old.segment = new.segment →
    ∀ c, v.entry c = if old.address = new.address then s.entry c else freedEntry new.address (s.entry c)

theorem dropRound_effect (s : Station) :
    s.Rounds 0 (dropRound s) ∧ (dropRound s).keep.config = s.keep.config ∧
      (dropRound s).keep.faults.counter .circuitMismatch = s.keep.faults.counter .circuitMismatch ∧
      (dropRound s).directory = s.directory ∧ (dropRound s).circuits.view = s.circuits.view := by
  have hkept := withdrawAttempt_kept s
  have hrounds := rounds_withdrawAttempt s
  have hcounter := mismatch_counter (congrArg Kept.counters hkept)
  have hview := congrArg Circuits.view (withdrawAttempt_circuits s)
  unfold dropRound
  exact ⟨⟨hrounds.call, hrounds.bearers, hrounds.power, hrounds.clock, hrounds.work, hrounds.load⟩,
    congrArg Kept.config hkept, hcounter, congrArg Kept.directory hkept, hview⟩

theorem config_of_copy {s : Station} {c : Configuration} (h : s.keep.config = some c) : s.config = c := by
  unfold Station.config
  rw [h]
  rfl

section
variable {old new : Configuration} {was : Bool} {s : Station} (hconfig : s.keep.config = some new)
include hconfig

/-- Another segment code: the directory and the circuit view are emptied. -/
theorem reloadPicture_segment (hseg : old.segment ≠ new.segment) :
    s.Pictures old new was (reloadPicture old new was s) := by
  obtain ⟨hrounds, hcopy, hcount, hdir, -⟩ := dropRound_effect s
  obtain ⟨hdirectory, hkeep, -, hline, hcounter, hrecomputed⟩ :=
    recomputeCount_effect was { dropRound s with directory.entries := [] }
  have hnew : ({ dropRound s with directory.entries := [] } : Station).config = new := config_of_copy (hcopy.trans hconfig)
  have hempty : ({ dropRound s with directory.entries := [] } : Station).countOf = new.circuits := by
    unfold Station.countOf
    rw [hnew]
    rfl
  have hgo : reloadPicture old new was s =
      { recomputeCount was { dropRound s with directory.entries := [] } with circuits := clearedCircuits } := if_pos hseg
  rw [hempty] at hdirectory hcounter
  rw [hnew] at hcounter
  rw [hgo]
  refine ⟨?_, hkeep.trans (hcopy.trans hconfig), ?_, fun _ => ⟨hdirectory, rfl⟩, fun h => absurd h hseg,
    fun h => absurd h hseg, fun h => absurd h hseg⟩
  · have hdropped : s.Rounds 0 { dropRound s with directory.entries := [] } :=
      ⟨hrounds.call, hrounds.bearers, hrounds.power, hrounds.clock, hrounds.work, hrounds.load⟩
    have hcleared := (hdropped.trans hrecomputed).trans (rounds_circuits clearedCircuits _)
    exact hcleared.mono (Nat.zero_le 1)
  · refine hcounter.trans ?_
    unfold Station.mismatchCount
    rw [show ({ recomputeCount was { dropRound s with directory.entries := [] } with
      circuits := clearedCircuits } : Station).directory.effective = new.circuits from congrArg Directory.effective hdirectory,
      config_of_copy hconfig, ← hdir, ← hcount]

/-- The recount of a station whose entries and view the reload has settled. -/
theorem recount_pictures {w : Station} (hseg : old.segment = new.segment) (hroom : w.line.total < 8) (hw : s.Rounds 0 w)
    (hcopy : w.keep.config = s.keep.config)
    (hcount : w.keep.faults.counter .circuitMismatch = s.keep.faults.counter .circuitMismatch)
    (heff : w.directory.effective = s.directory.effective)
    (hentries : w.directory.entries =
      if old.address = new.address then s.directory.entries
      else s.directory.entries.filter fun e => some e.address != new.address)
    (hview : ∀ c, w.entry c = if old.address = new.address then s.entry c else freedEntry new.address (s.entry c)) :
    s.Pictures old new was (recount was w) := by
  obtain ⟨hdirectory, hkeep, hsame, hcounter, hrounds⟩ := recount_effect was hroom
  have hnew : w.config = new := config_of_copy (hcopy.trans hconfig)
  refine ⟨(hw.trans hrounds).mono (Nat.le_refl 1), hkeep.trans (hcopy.trans hconfig), ?_, fun h => absurd hseg h,
    fun _ => ?_, fun _ => ?_, fun _ c => ?_⟩
  · refine hcounter.trans ?_
    unfold Station.mismatchCount
    rw [hdirectory, hnew, heff, hcount, config_of_copy hconfig]
  · rw [hdirectory]
    exact hentries
  · rw [hdirectory]
    unfold Station.countOf
    rw [hnew]
  · rw [entry_of_view hsame c]
    exact hview c

theorem reloadPicture_pictures (hroom : s.line.total < 8) :
    s.Pictures old new was (reloadPicture old new was s) := by
  by_cases hseg : old.segment = new.segment
  · by_cases haddr : old.address = new.address
    · have hgo : reloadPicture old new was s = recount was s := by
        unfold reloadPicture
        rw [if_neg fun h => h hseg, if_neg fun h => h haddr]
      rw [hgo]
      exact recount_pictures hconfig hseg hroom (Station.Rounds.refl s) rfl rfl rfl (if_pos haddr).symm
        fun c => (if_pos haddr).symm
    · generalize hentries : (s.directory.entries.filter fun e => some e.address != new.address) = entries
      obtain ⟨hrounds, hcopy, hcount, hdir, hview⟩ := dropRound_effect { s with directory.entries := entries }
      have hgo : reloadPicture old new was s =
          recount was (freeHeldBy new.address (dropRound { s with directory.entries := entries })) := by
        rw [← hentries]
        unfold reloadPicture
        rw [if_neg fun h => h hseg, if_pos haddr]
      have hdropped : s.Rounds 0 (dropRound { s with directory.entries := entries }) :=
        ⟨hrounds.call, hrounds.bearers, hrounds.power, hrounds.clock, hrounds.work, hrounds.load⟩
      have hentry := freeHeldBy_entry new.address (dropRound { s with directory.entries := entries })
      obtain ⟨view, hfreed⟩ := freeHeldBy_frame new.address (dropRound { s with directory.entries := entries })
      have hstays : (dropRound { s with directory.entries := entries }).line.total < 8 :=
        Nat.lt_of_le_of_lt (removeUnbegun_total TxBody.isClaim (withdrawDraw .circuit { s with directory.entries := entries }))
          hroom
      rw [hgo]
      rw [hfreed] at hentry ⊢
      refine recount_pictures hconfig hseg hstays ?_ hcopy hcount ?_ ?_ fun c => ?_
      · exact ⟨hdropped.call, hdropped.bearers, hdropped.power, hdropped.clock, hdropped.work, hdropped.load⟩
      · have heff := congrArg Directory.effective hdir
        exact heff
      · rw [if_neg haddr]
        have hset := congrArg Directory.entries hdir
        exact hset.trans hentries.symm
      · rw [if_neg haddr]
        exact (hentry c).trans (congrArg (freedEntry new.address) (entry_of_view hview c))
  · exact reloadPicture_segment hconfig hseg

end

end Sys2Proof.Machine

/-! PROOFS. A reload (O8): the bearers that the new configuration fits, and the causes of ANNOUNCE (R12, R39, R63). -/

namespace Sys2Proof.Machine

/-! ### What the bearers' changes leave -/

/-- From `s` to `t` bearers have changed and causes of ANNOUNCE have been taken: the counters, the configuration, the
directory, the circuits, the power unit and the clock stay, the transmit queue has room as before, and an ANNOUNCE stays. -/
structure Station.Refits (s t : Station) : Prop where
  counters : t.kept.counters = s.kept.counters
  config : t.keep.config = s.keep.config
  directory : t.directory = s.directory
  circuits : t.circuits = s.circuits
  power : t.power = s.power
  clock : t.keep.clock = s.keep.clock
  load : s.load ≤ 8 → t.load ≤ s.load
  announces : ∀ b, s.announces b → t.announces b

theorem Station.Refits.refl (s : Station) : s.Refits s := ⟨rfl, rfl, rfl, rfl, rfl, rfl, fun _ => Nat.le_refl _, fun _ h => h⟩

theorem Station.Refits.trans {s t u : Station} (h : s.Refits t) (h' : t.Refits u) : s.Refits u :=
  ⟨h'.counters.trans h.counters, h'.config.trans h.config, h'.directory.trans h.directory, h'.circuits.trans h.circuits,
    h'.power.trans h.power, h'.clock.trans h.clock, fun hl => Nat.le_trans (h'.load (Nat.le_trans (h.load hl) hl)) (h.load hl),
    fun b hb => h'.announces b (h.announces b hb)⟩

theorem refits_announceCause (y : Bool) (s : Station) : s.Refits (announceCause y s) :=
  ⟨congrArg Kept.counters (announceCause_kept y s), congrArg StationCore.config (announceCause_core y s),
    congrArg StationCore.directory (announceCause_core y s), announceCause_circuits y s, announceCause_power y s,
    congrArg StationCore.clock (announceCause_core y s), fun h => announceCause_load h,
    fun _ h => announceCause_keeps_announces h⟩

theorem refits_setBearer (l : Letter) (r : Bearer) (s : Station) : s.Refits (setBearer l r s) := by
  cases l <;> exact ⟨rfl, rfl, rfl, rfl, rfl, rfl, fun _ => Nat.le_refl _, fun _ h => h⟩

theorem refits_emit (o : Output) (s : Station) : s.Refits (emit o s) :=
  ⟨rfl, rfl, rfl, rfl, rfl, rfl, fun _ => Nat.le_refl _, fun _ h => h⟩

theorem refits_putBearer (l : Letter) (r : Bearer) (s : Station) : s.Refits (putBearer l r s) := by
  unfold putBearer
  dsimp only
  generalize hu : (if (s.bearer l).state == .inCall && r.state != .inCall then removeBearerBridges l s else s) = u
  have hbridges : s.Refits u := by
    rw [← hu]
    split
    · exact ⟨rfl, rfl, rfl, rfl, rfl, rfl, fun _ => Nat.le_refl _, fun _ h => h⟩
    · exact .refl s
  have hset := hbridges.trans (refits_setBearer l r u)
  have hann := hset.trans (refits_announceCause false (setBearer l r u))
  have hposted : ∀ t x, s.Refits t → s.Refits (post x t) :=
    fun t x h => h.trans ⟨rfl, rfl, rfl, rfl, rfl, rfl, fun _ => Nat.le_refl _, fun _ h => h⟩
  have hfirst : ∀ t x, s.Refits t → s.Refits (postFirst x t) :=
    fun t x h => h.trans ⟨rfl, rfl, rfl, rfl, rfl, rfl, fun _ => Nat.le_refl _, fun _ h => h⟩
  split <;> split
  · exact hfirst _ _ (hposted _ _ hann)
  · exact hfirst _ _ hset
  · exact hposted _ _ hann
  · exact hset

theorem refits_sendCommand (l : Letter) (c : Command) (r : Bearer) (s : Station) : s.Refits (sendCommand l c r s) := by
  unfold sendCommand
  exact (refits_emit _ s).trans (refits_putBearer l _ _)

theorem refits_startBearer (l : Letter) (s : Station) : s.Refits (startBearer l s) := by
  unfold startBearer
  exact (refits_emit _ s).trans (refits_sendCommand l _ _ _)

theorem refits_startFitted (s : Station) : s.Refits (startFitted s) := by
  unfold startFitted
  refine List.foldlRecOn (motive := fun t : Station => s.Refits t) _ _ (.refl s) fun t ht l _ => ?_
  split
  · exact ht.trans (refits_startBearer l t)
  · exact ht

theorem powerDownIfPowered_frame (l : Letter) (s : Station) :
    (powerDownIfPowered l s).bearers = s.bearers ∧ s.Refits (powerDownIfPowered l s) := by
  unfold powerDownIfPowered
  split
  · exact ⟨rfl, (refits_emit _ s).trans (refits_emit _ _)⟩
  · exact ⟨rfl, .refl s⟩

theorem refits_unfit (l : Letter) (s : Station) : s.Refits (unfit l s) := by
  unfold unfit
  split
  · exact .refl s
  · exact (powerDownIfPowered_frame l s).2.trans (refits_setBearer l _ _)

theorem Station.Refits.fitted {s t : Station} (h : s.Refits t) (l : Letter) : t.fitted l = s.fitted l := by
  unfold Station.fitted Station.config
  rw [h.config]

/-! ### The bearers (R39, R63) -/

theorem unfit_bearer (l : Letter) (s : Station) :
    (s.fitted l = false → (unfit l s).bearer l = clearedBearer) ∧ (s.fitted l = true → unfit l s = s) ∧
      ∀ m, m ≠ l → (unfit l s).bearer m = s.bearer m := by
  have hdown : ∀ m, (powerDownIfPowered l s).bearer m = s.bearer m := fun m => by
    unfold Station.bearer
    rw [(powerDownIfPowered_frame l s).1]
  unfold unfit
  refine ⟨fun h => ?_, fun h => if_pos h, fun m hm => ?_⟩
  · rw [if_neg (by rw [h]; decide)]
    exact setBearer_bearer_same l _ _
  · split
    · rfl
    · exact (setBearer_bearer_other hm _ _).trans (hdown m)

/-- The bearers that are not fitted are given up, one after the other. -/
theorem unfits_bearer (l : Letter) (s : Station) :
    (s.fitted l = false → (unfit .b (unfit .a s)).bearer l = clearedBearer) ∧
      (s.fitted l = true → (unfit .b (unfit .a s)).bearer l = s.bearer l) := by
  have hfitted := (refits_unfit .a s).fitted .b
  obtain ⟨hcleared, hsame, hother⟩ := unfit_bearer .a s
  obtain ⟨hcleared', hsame', hother'⟩ := unfit_bearer .b (unfit .a s)
  rw [hfitted] at hcleared' hsame'
  cases l with
  | a =>
    refine ⟨fun h => (hother' .a (by decide)).trans (hcleared h), fun h => (hother' .a (by decide)).trans ?_⟩
    rw [hsame h]
  | b =>
    refine ⟨hcleared', fun h => ?_⟩
    rw [hsame' h]
    exact hother .b (by decide)

/-- One fitted bearer that is off is started. -/
def startOne (t : Station) (l : Letter) : Station := if (t.bearer l).state = .off then startBearer l t else t

theorem startFitted_fold (s : Station) : startFitted s = s.fittedBearers.foldl startOne s := rfl

theorem refits_startOne (t : Station) (l : Letter) : t.Refits (startOne t l) := by
  unfold startOne
  split
  · exact refits_startBearer l t
  · exact .refl t

theorem startOne_bearer (t : Station) (l : Letter) :
    ((t.bearer l).state ≠ .off → startOne t l = t) ∧
      (t.bearer l = clearedBearer → (startOne t l).bearer l = startedAt t.now) ∧
      ∀ m, m ≠ l → (startOne t l).bearer m = t.bearer m := by
  unfold startOne
  refine ⟨fun h => if_neg h, fun h => ?_, fun m hm => ?_⟩
  · rw [if_pos (by rw [h]; rfl)]
    unfold startBearer
    rw [sendCommand_bearer, h]
    rfl
  · split
    · exact startBearer_other hm t
    · rfl

theorem startOnes_bearer {ls : List Letter} (hls : ls.Nodup) (s : Station) (l : Letter) :
    (l ∉ ls → (ls.foldl startOne s).bearer l = s.bearer l) ∧
      ((s.bearer l).state ≠ .off → (ls.foldl startOne s).bearer l = s.bearer l) ∧
      (l ∈ ls → s.bearer l = clearedBearer → (ls.foldl startOne s).bearer l = startedAt s.now) := by
  induction ls generalizing s with
  | nil => exact ⟨fun _ => rfl, fun _ => rfl, fun h => nomatch h⟩
  | cons m ls ih =>
    obtain ⟨hm, hrest⟩ := List.nodup_cons.mp hls
    obtain ⟨hout, hon, hstart⟩ := ih hrest (startOne s m)
    obtain ⟨hsame, hstarted, hother⟩ := startOne_bearer s m
    have hnow : (startOne s m).now = s.now := (refits_startOne s m).clock
    refine ⟨fun h => ?_, fun h => ?_, fun h hc => ?_⟩
    · obtain ⟨hne, hnot⟩ := not_or.mp fun x => h (List.mem_cons.mpr x)
      exact (hout hnot).trans (hother l hne)
    · by_cases he : l = m
      · subst he
        rw [hsame h] at hon
        exact (congrArg (fun t : Station => (ls.foldl startOne t).bearer l) (hsame h)).trans (hon h)
      · exact (hon (by rw [hother l he]; exact h)).trans (hother l he)
    · rcases List.mem_cons.mp h with rfl | h
      · exact (hout hm).trans (hstarted hc)
      · have hne : l ≠ m := fun e => hm (e ▸ h)
        rw [hnow] at hstart
        exact hstart h (by rw [hother l hne]; exact hc)

theorem startFitted_bearer (s : Station) (l : Letter) :
    (s.fitted l = false → (startFitted s).bearer l = s.bearer l) ∧
      ((s.bearer l).state ≠ .off → (startFitted s).bearer l = s.bearer l) ∧
      (s.fitted l = true → s.bearer l = clearedBearer → (startFitted s).bearer l = startedAt s.now) := by
  have hnodup : s.fittedBearers.Nodup := List.Nodup.sublist List.filter_sublist (by decide)
  obtain ⟨hout, hon, hstart⟩ := startOnes_bearer hnodup s l
  rw [mem_fittedBearers, ← startFitted_fold] at hout hstart
  exact ⟨fun h => hout (by rw [h]; decide), hon, hstart⟩

/-! ### The reload applied (R12, R169) -/

theorem refits_reloadAnnounce (old new : Configuration) (s : Station) :
    s.Refits (reloadAnnounce old new s) ∧ (reloadAnnounce old new s).bearers = s.bearers := by
  have hsegment : s.Refits (if old.segment ≠ new.segment then announceCause true s else s) ∧
      (if old.segment ≠ new.segment then announceCause true s else s).bearers = s.bearers := by
    split
    · exact ⟨refits_announceCause true s, announceCause_bearers true s⟩
    · exact ⟨.refl s, rfl⟩
  unfold reloadAnnounce
  dsimp only
  generalize (if old.segment ≠ new.segment then announceCause true s else s) = t at hsegment
  split
  · exact ⟨hsegment.1.trans (refits_announceCause false t), (announceCause_bearers false t).trans hsegment.2⟩
  · exact hsegment

theorem reloadAnnounce_announces {old new : Configuration} {s : Station} (hact : s.power.opState = .active)
    (hp : s.power.progress = .none) (hload : s.load ≤ 8) :
    (old.segment ≠ new.segment → (reloadAnnounce old new s).announces true) ∧
      (old.circuits ≠ new.circuits ∨ old.announcePeriod ≠ new.announcePeriod →
        (reloadAnnounce old new s).announces false) := by
  unfold reloadAnnounce
  dsimp only
  refine ⟨fun hseg => ?_, fun hchange => ?_⟩
  · have hfirst := announceCause_announcing (y := true) hact hp hload
    rw [if_pos hseg]
    split
    · exact announceCause_keeps_announces hfirst
    · exact hfirst
  · rw [if_pos hchange.symm]
    split
    · have hrefits := refits_announceCause true s
      exact announceCause_announcing (by rw [hrefits.power]; exact hact) (by rw [hrefits.power]; exact hp)
        (Nat.le_trans (hrefits.load hload) hload)
    · exact announceCause_announcing hact hp hload

/-- The station when the reload has been applied, but for the lend readiness. -/
def reapplied (old new : Configuration) (v : Station) : Station :=
  startFitted (unfit .b (unfit .a (reloadAnnounce old new v)))

theorem refits_reapplied (old new : Configuration) (v : Station) : v.Refits (reapplied old new v) :=
  ((((refits_reloadAnnounce old new v).1.trans (refits_unfit .a _)).trans (refits_unfit .b _)).trans (refits_startFitted _))

theorem reapplied_bearer (old new : Configuration) (v : Station) (l : Letter) :
    (v.fitted l = false → (reapplied old new v).bearer l = clearedBearer) ∧
      (v.fitted l = true → (v.bearer l).state ≠ .off → (reapplied old new v).bearer l = v.bearer l) ∧
      (v.fitted l = true → v.bearer l = clearedBearer → (reapplied old new v).bearer l = startedAt v.now) := by
  obtain ⟨hannounced, hbearers⟩ := refits_reloadAnnounce old new v
  have hbearer : (reloadAnnounce old new v).bearer l = v.bearer l := by
    unfold Station.bearer
    rw [hbearers]
  have hunfit := (refits_unfit .a (reloadAnnounce old new v)).trans (refits_unfit .b _)
  have hfits := hannounced.trans hunfit
  obtain ⟨hgone, hstays⟩ := unfits_bearer l (reloadAnnounce old new v)
  rw [hannounced.fitted, hbearer] at hstays
  rw [hannounced.fitted] at hgone
  unfold reapplied
  generalize unfit .b (unfit .a (reloadAnnounce old new v)) = w at hfits hgone hstays
  obtain ⟨hout, hon, hstart⟩ := startFitted_bearer w l
  rw [hfits.fitted, show w.now = v.now from hfits.clock] at hstart
  rw [hfits.fitted] at hout
  refine ⟨fun h => (hout h).trans (hgone h), fun h hs => ?_, fun h hc => hstart h ((hstays h).trans hc)⟩
  exact (hon (by rw [hstays h]; exact hs)).trans (hstays h)

theorem applyReload_refits (c : Configuration) (s : Station) :
    (reapplied s.config c (reloadPicture s.config c s.mismatched { s with keep.config := some c })).Refits
        (applyReload c s) ∧
      (applyReload c s).bearers =
        (reapplied s.config c (reloadPicture s.config c s.mismatched { s with keep.config := some c })).bearers := by
  unfold applyReload notingLendReady
  dsimp only
  split
  · exact ⟨.refl _, rfl⟩
  · exact ⟨refits_announceCause false _, announceCause_bearers false _⟩

end Sys2Proof.Machine

/-! PROOFS. A reload (O8): the order, the read's end, and the answers (R169, R183). -/

namespace Sys2Proof.Machine

/-! ### The answers to RELOAD -/

/-- The bytes of an answer to RELOAD. -/
def reloadAnswer (result : Byte) (now : Stamp) : List Byte := [131, 0, result] ++ stampBytes now

/-- A RELOAD answered, with nothing else done. -/
theorem reload_answered {segment : BitVec 16} {result : StatusResult} {s : Station} (hw : s.work = [])
    (hp : s.power.progress ≠ .waitingEntry) (hserve : s.power.opState = .active ∨ s.power.opState = .isolated)
    (hroom : s.line.total < 8) :
    (finish (answerOrder segment 3 result [] s)).core = s.core ∧
      (finish (answerOrder segment 3 result [] s)).holdsFrame (.status (reloadAnswer (resultCode result) s.now) segment) 0 =
        true ∧
      (finish (answerOrder segment 3 result [] s)).kept = s.kept := by
  have hbody : ([byte (3 + 128), 0, resultCode result] ++ stampBytes s.now ++ []) = reloadAnswer (resultCode result) s.now :=
    List.append_nil _
  obtain ⟨hcore, -, hholds⟩ := finish_answerService (g := segment) (code := byte (3 + 128)) (index := 0) (r := result)
    (x := []) (light_of_nil hw) hp hserve hroom
  rw [hbody] at hholds
  refine ⟨hcore, hholds, ?_⟩
  have hkept : (answerOrder segment 3 result [] s).kept = s.kept := handOver_kept _ _ _
  rw [← hkept]
  refine finish_kept (fun h => ?_) fun h => ?_
  · have hstate : s.power.opState = .standby := (congrArg Kept.opState hkept).symm.trans h
    rcases hserve with hs | hs <;> exact nomatch hs.symm.trans hstate
  · exact hp ((congrArg Power.progress (handOver_power _ _ s)).symm.trans h)

theorem inService_iff (s : Station) : s.inService = true ↔ s.power.opState = .active ∨ s.power.opState = .isolated := by
  unfold Station.inService
  rw [Bool.or_eq_true, beq_iff_eq, beq_iff_eq]

/-! ### The end of the read -/

section
variable {r : ReloadRead} {s : Station} (h : s.power.reload = some r)
include h

theorem endReload_rejected :
    endReload none s = answerOrder r.segment 3 .rejected [] (raise .configRejected { s with power.reload := none }) := by
  unfold endReload
  rw [h]

theorem endReload_busy {c : Configuration} (hbusy : r.idleFailed = true ∨ s.reloadIdle = false) :
    endReload (some c) s = answerOrder r.segment 3 .busy [] { s with power.reload := none } := by
  unfold endReload
  rw [h]
  refine if_pos ?_
  rw [Bool.or_eq_true, Bool.not_eq_true']
  exact hbusy

theorem endReload_done {c : Configuration} (hok : r.idleFailed = false) (hidle : s.reloadIdle = true) :
    endReload (some c) s = answerOrder r.segment 3 .done [] (applyReload c { s with power.reload := none }) := by
  unfold endReload
  rw [h]
  refine if_neg ?_
  rw [Bool.or_eq_true, Bool.not_eq_true', not_or]
  exact ⟨Bool.eq_false_iff.mp hok, fun x => Bool.eq_false_iff.mp x hidle⟩

end

theorem takeReload_begins {segment : BitVec 16} {s : Station} (hr : s.power.reload = none) (hi : s.reloadIdle = true)
    (hb : s.onBuiltIn = false) :
    takeReload segment s =
      { s with power.reload := some { limit := s.within 500, segment := segment, idleFailed := false } } := by
  unfold takeReload
  rw [hr, hi, if_neg (by decide), if_neg (by rw [hb]; decide)]

theorem takeReload_busy {segment : BitVec 16} {s : Station} (h : s.power.reload.isSome = true ∨ s.reloadIdle = false) :
    takeReload segment s = answerOrder segment 3 .busy [] s := by
  unfold takeReload
  refine if_pos ?_
  rw [Bool.or_eq_true, Bool.not_eq_true']
  exact h

theorem reloadIdle_progress {s : Station} (h : s.reloadIdle = true) : s.power.progress = .none := by
  unfold Station.reloadIdle at h
  exact beq_iff_eq.mp (Bool.and_eq_true _ _ ▸ h).2

/-! ### The reload applied and answered -/

/-- What the reload has made of the station when it is answered. -/
structure Station.Reloads (s u : Station) (c : Configuration) (segment : BitVec 16) : Prop where
  kept : u.keep.config = some c ∧ u.power = s.power
  counter : u.keep.faults.counter .circuitMismatch =
    if (if s.directory.effective < s.config.circuits then u.directory.effective < s.directory.effective
      else u.directory.effective < c.circuits) then min 255 (s.keep.faults.counter .circuitMismatch + 1)
    else s.keep.faults.counter .circuitMismatch
  other : s.config.segment ≠ c.segment →
    u.directory = { entries := [], effective := c.circuits } ∧ u.circuits = clearedCircuits
  entries : s.config.segment = c.segment →
    u.directory.entries =
      if s.config.address = c.address then s.directory.entries
      else s.directory.entries.filter fun e => some e.address != c.address
  effective : s.config.segment = c.segment →
    u.directory.effective = u.directory.entries.foldl (fun n e => min n e.circuits) c.circuits
  view : s.config.segment = c.segment →
    ∀ e, u.entry e = if s.config.address = c.address then s.entry e else freedEntry c.address (s.entry e)
  bearer : ∀ l,
    (Station.fitted { s with keep.config := some c } l = false → u.bearer l = clearedBearer) ∧
      (Station.fitted { s with keep.config := some c } l = true →
        ((s.bearer l).state ≠ .off → u.bearer l = s.bearer l) ∧
          (s.bearer l = clearedBearer → u.bearer l = startedAt s.now))
  answered : s.line.total < 6 → s.inService = true →
    u.holdsFrame (.status (reloadAnswer 2 s.now) segment) 0 = true
  announces : s.line.total < 6 → s.power.opState = .active → s.power.progress = .none →
    (s.config.segment ≠ c.segment → u.announces true) ∧
      (s.config.circuits ≠ c.circuits ∨ s.config.announcePeriod ≠ c.announcePeriod → u.announces false)

theorem handOver_announces {body : TxBody} {d : Nat} {b : Bool} {s : Station} (hroom : s.line.total < 8)
    (h : s.announces b) : (handOver body d s).announces b := by
  obtain ⟨g, hg, standby, old, hbody, hold⟩ := h
  have hholds := handOver_keeps (b := body) (d := d) hroom ((holdsFrame_iff s g.body g.dest).mpr ⟨g, hg, rfl, rfl⟩)
  obtain ⟨f, hf, hsame, -⟩ := (holdsFrame_iff _ _ _).mp hholds
  exact ⟨f, hf, standby, old, hsame.trans hbody, hold⟩

theorem reload_done {c : Configuration} {segment : BitVec 16} {s : Station} (hroom : s.line.total < 8) :
    s.Reloads (answerOrder segment 3 .done [] (applyReload c s)) c segment := by
  have hpictures := reloadPicture_pictures (old := s.config) (was := s.mismatched)
    (s := { s with keep.config := some c }) rfl hroom
  obtain ⟨happlied, hbearers⟩ := applyReload_refits c s
  have hchain := (refits_reapplied s.config c
    (reloadPicture s.config c s.mismatched { s with keep.config := some c })).trans happlied
  have hnewBearer := reapplied_bearer s.config c
    (reloadPicture s.config c s.mismatched { s with keep.config := some c })
  have hannounces := reloadAnnounce_announces (old := s.config) (new := c)
    (s := reloadPicture s.config c s.mismatched { s with keep.config := some c })
  have hlast := (((refits_unfit .a (reloadAnnounce s.config c
    (reloadPicture s.config c s.mismatched { s with keep.config := some c }))).trans (refits_unfit .b _)).trans
      (refits_startFitted _)).trans happlied
  generalize reloadPicture s.config c s.mismatched { s with keep.config := some c } = v at *
  generalize applyReload c s = w at *
  have hrounds := hpictures.rounds
  have hpower : v.power = s.power := hrounds.power
  have hvclock : v.now = s.now := hrounds.clock
  have hvload : v.load ≤ s.line.total + 2 := Nat.le_trans hrounds.load (Nat.succ_le_succ (load_le_total s))
  have hwclock : w.now = s.now := hchain.clock.trans hvclock
  have hkept : (answerOrder segment 3 .done [] w).kept = w.kept := handOver_kept _ _ w
  have hcore : (answerOrder segment 3 .done [] w).core = w.core := handOver_core _ _ w
  have hdirectory : (answerOrder segment 3 .done [] w).directory = v.directory :=
    (congrArg Kept.directory hkept).trans hchain.directory
  have hcircuits : (answerOrder segment 3 .done [] w).circuits = v.circuits :=
    (core_circuits_eq hcore).trans hchain.circuits
  have hcounters : (answerOrder segment 3 .done [] w).kept.counters = v.kept.counters :=
    (congrArg Kept.counters hkept).trans hchain.counters
  have hfitted : ∀ l, v.fitted l = Station.fitted { s with keep.config := some c } l := fun l => by
    unfold Station.fitted Station.config
    rw [hpictures.config]
  have hbearer : ∀ l, (answerOrder segment 3 .done [] w).bearer l = (reapplied s.config c v).bearer l := fun l => by
    unfold Station.bearer
    rw [show (answerOrder segment 3 .done [] w).bearers = w.bearers from congrArg StationCore.bearers hcore, hbearers]
  have hvbearer : ∀ l, v.bearer l = s.bearer l := fun l => by
    unfold Station.bearer
    rw [hrounds.bearers]
  have hspace : s.line.total < 6 → w.line.total < 8 := fun hr => by
    have hle := hchain.load (Nat.le_trans hvload (by omega))
    have hwtotal := total_le_load w
    omega
  refine ⟨⟨?_, ?_⟩, ?_, fun h => ?_, fun h => ?_, fun h => ?_, fun h e => ?_, fun l => ⟨fun h => ?_, fun h => ⟨fun hs => ?_,
    fun hs => ?_⟩⟩, fun hr hservice => ?_, fun hr hact hp => ⟨fun hseg => ?_, fun hchange => ?_⟩⟩
  · exact (congrArg Kept.config hkept).trans (hchain.config.trans hpictures.config)
  · exact (handOver_power _ _ w).trans (hchain.power.trans hpower)
  · rw [mismatch_counter hcounters, hdirectory, hpictures.counter]
    unfold Station.mismatchCount Station.mismatched
    simp only [decide_eq_true_eq]
    rfl
  · obtain ⟨hd, hc⟩ := hpictures.other h
    exact ⟨hdirectory.trans hd, hcircuits.trans hc⟩
  · rw [hdirectory]
    exact hpictures.entries h
  · rw [hdirectory]
    exact hpictures.effective h
  · rw [entry_of_view (congrArg Circuits.view hcircuits) e]
    exact hpictures.view h e
  · exact (hbearer l).trans ((hnewBearer l).1 ((hfitted l).trans h))
  · rw [hbearer l, (hnewBearer l).2.1 ((hfitted l).trans h) (by rw [hvbearer]; exact hs), hvbearer]
  · rw [hbearer l, (hnewBearer l).2.2 ((hfitted l).trans h) (by rw [hvbearer]; exact hs), hvclock]
  · have hserve : w.power.opState = .active ∨ w.power.opState = .isolated := by
      rw [hchain.power, hpower]
      exact (inService_iff s).mp hservice
    have hbody : ([byte (3 + 128), 0, resultCode .done] ++ stampBytes w.now ++ []) = reloadAnswer 2 s.now :=
      (List.append_nil _).trans (by rw [hwclock]; rfl)
    rw [← hbody]
    exact handOver_holds (takesFrame_status hserve _ _) (hspace hr)
  · have hload : v.load ≤ 8 := Nat.le_trans hvload (by omega)
    obtain ⟨hsolicit, -⟩ := hannounces (by rw [hpower]; exact hact) (by rw [hpower]; exact hp) hload
    exact handOver_announces (hspace hr) (hlast.announces true (hsolicit hseg))
  · have hload : v.load ≤ 8 := Nat.le_trans hvload (by omega)
    obtain ⟨-, hcause⟩ := hannounces (by rw [hpower]; exact hact) (by rw [hpower]; exact hp) hload
    exact handOver_announces (hspace hr) (hlast.announces false (hcause hchange))

end Sys2Proof.Machine

/-! PROOFS. A reload (O8): the commands. -/

namespace Sys2Proof.Machine

theorem endReload_runs {bytes : List Byte} {s : State} (hr : s.station.running = true) :
    exec (.reloadReadComplete bytes) s =
      .next { s with station := finish (endReload (readConfiguration bytes) (freshOut s.station)) } := by
  change execReloadReadComplete bytes s = _
  unfold execReloadReadComplete
  exact takeEvent_running hr

theorem configReadLimit_reload {s : State} {r : ReloadRead} {now : Stamp} (hr : s.station.running = true)
    (hread : s.station.power.configRead = none) (h : s.station.power.reload = some r)
    (hnow : now = Stamp.moment s.station.now r.limit) :
    exec .configReadLimitExpiry s = .next { s with station := finish (endReload none (atMoment now s.station)) } := by
  change execConfigReadLimitExpiry s = _
  unfold execConfigReadLimitExpiry
  rw [takeEvent_running hr, show (freshOut s.station).power.configRead = none from hread,
    show (freshOut s.station).power.reload = some r from h]
  dsimp only
  rw [catchUp_freshOut, ← hnow]

theorem freedEntry_holding {a : Option Nat} {e : CircuitEntry} {h : Nat × Tag} (he : e.holding = some h) :
    freedEntry a e = if some h.1 = a then .free else e := by
  unfold freedEntry
  rw [he]

theorem freedEntry_none {a : Option Nat} {e : CircuitEntry} (he : e.holding = none) : freedEntry a e = e := by
  unfold freedEntry
  rw [he]

/-- Settles O8: a reload reads its record, and ends with DONE, REJECTED or BUSY. -/
theorem reloadReadsRecord : Obligations.ReloadReadsRecord := by
  intro s hs hroom answers
  have hprogress : s.station.power.progress ≠ .waitingEntry := hs.2.2
  have hroom8 : s.station.line.total < 8 := Nat.lt_succ_of_lt hroom
  refine ⟨fun f x h hb => ⟨fun hr hi hbuilt => ?_, fun hbusy => ?_⟩, fun r hr hservice => ⟨fun bytes hc => ?_,
    fun now hnow hread => ?_, fun bytes c hc hbusy => ?_, fun bytes c hc hok hidle => ?_⟩⟩
  · have hrun : exec (.reload f) s = .next { s with station := finish { assembled s.station with
        power.reload := some { limit := s.station.within 500, segment := f.segment, idleFailed := false } } } := by
      change execReload f s = _
      unfold execReload
      rw [takeService_served h hb, takeReload_begins (s := assembled s.station) hr hi hbuilt]
      rfl
    exact ⟨_, hrun, finish_core (light_of_nil rfl) hprogress,
      finish_kept_of rfl (awake_opState hs) (awake_waitingEntry hs)⟩
  · have hrun : exec (.reload f) s =
        .next { s with station := finish (answerOrder f.segment 3 .busy [] (assembled s.station)) } := by
      change execReload f s = _
      unfold execReload
      rw [takeService_served h hb, takeReload_busy (s := assembled s.station) hbusy]
    have hserves : s.station.power.opState = .active ∨ s.station.power.opState = .isolated := opState_of_serves h
    obtain ⟨hcore, hholds, -⟩ := reload_answered (segment := f.segment) (result := .busy) (s := assembled s.station) rfl
      hprogress hserves hroom8
    exact ⟨_, hrun, hcore, hholds⟩
  · have hrun := endReload_runs (bytes := bytes) hs.1
    rw [hc, endReload_rejected (s := freshOut s.station) hr] at hrun
    obtain ⟨hcore, hholds, hkept⟩ := reload_answered (segment := r.segment) (result := .rejected)
      (s := raise .configRejected { freshOut s.station with power.reload := none }) rfl hprogress
      ((inService_iff s.station).mp hservice) hroom8
    exact ⟨_, hrun, ⟨hcore, hholds⟩, hkept.trans (raise_kept_raised _ _)⟩
  · have hrun := configReadLimit_reload hs.1 hread hr hnow
    rw [endReload_rejected (s := atMoment now s.station) hr] at hrun
    obtain ⟨hcore, hholds, hkept⟩ := reload_answered (segment := r.segment) (result := .rejected)
      (s := raise .configRejected { atMoment now s.station with power.reload := none }) rfl hprogress
      ((inService_iff s.station).mp hservice) hroom8
    exact ⟨_, hrun, ⟨hcore, hholds⟩, hkept.trans (raise_kept_raised _ _)⟩
  · have hrun := endReload_runs (bytes := bytes) hs.1
    rw [hc, endReload_busy (s := freshOut s.station) hr hbusy] at hrun
    obtain ⟨hcore, hholds, hkept⟩ := reload_answered (segment := r.segment) (result := .busy)
      (s := { freshOut s.station with power.reload := none }) rfl hprogress ((inService_iff s.station).mp hservice) hroom8
    exact ⟨_, hrun, ⟨hcore, hholds⟩, hkept⟩
  · intro old sameSegment fits
    have hrun := endReload_runs (bytes := bytes) hs.1
    rw [hc, endReload_done (s := freshOut s.station) hr hok hidle] at hrun
    have hdone := reload_done (c := c) (segment := r.segment)
      (s := { freshOut s.station with power.reload := none }) hroom8
    generalize answerOrder r.segment 3 .done [] (applyReload c { freshOut s.station with power.reload := none }) = u
      at hrun hdone
    obtain ⟨hcopy, hpower⟩ := hdone.kept
    have hup : u.power.progress ≠ .waitingEntry := by
      rw [hpower]
      exact hprogress
    have hkept : (finish u).kept = u.kept := finish_kept (by rw [hpower]; exact hs.2.1) hup
    have hreload : (finish u).power.reload = none := by
      have hnone : u.power.reload = none := by rw [hpower]
      have hsame := congrArg Kept.reload hkept
      change (finish u).power.reload.map _ = u.power.reload.map _ at hsame
      rw [hnone] at hsame
      exact Option.map_eq_none_iff.mp hsame
    have hop : u.power.opState = s.station.power.opState := by
      have hsame := congrArg Power.opState hpower
      exact hsame
    have hfits : ∀ l, Station.fitted { { freshOut s.station with power.reload := none } with keep.config := some c } l =
        fits l := fun l => by
      cases l <;> rfl
    refine ⟨u, hrun, (congrArg Kept.config hkept).trans hcopy, hreload,
      (congrArg Kept.opState hkept).trans hop, fun hlow => hdone.answered hlow hservice,
      hdone.other, hdone.counter, fun hseg => ⟨hdone.entries hseg, hdone.effective hseg, fun e => ?_⟩, fun l => ?_,
      fun hact hlow => ?_⟩
    · rw [hdone.view hseg e]
      change (if s.station.config.address = c.address then s.station.entry e
        else freedEntry c.address (s.station.entry e)) = _
      cases hh : (s.station.entry e).holding with
      | none =>
        dsimp only
        rw [freedEntry_none hh]
        exact ite_self _
      | some h =>
        dsimp only
        by_cases haddr : s.station.config.address = c.address
        · rw [if_pos haddr, if_neg fun x => x.1 haddr]
        · rw [if_neg haddr, freedEntry_holding hh]
          by_cases hfree : some h.1 = c.address
          · rw [if_pos hfree, if_pos ⟨haddr, hfree⟩]
          · rw [if_neg hfree, if_neg fun x => hfree x.2]
    · obtain ⟨hgone, hstays⟩ := hdone.bearer l
      rw [hfits] at hgone hstays
      refine ⟨hgone, fun hf hoff => (hstays hf).1 ?_, fun hf hcleared => (hstays hf).2 ?_⟩
      · exact hoff
      · exact hcleared
    · obtain ⟨hsolicits, hcause⟩ := hdone.announces hlow hact (reloadIdle_progress hidle)
      refine ⟨fun hseg => ?_, fun hchange => announces_queued (hcause hchange)⟩
      obtain ⟨g, hg, standby, solicit, hbody, hsolicit⟩ := hsolicits hseg
      refine (queued_iff u _).mpr ⟨g, hg, ?_⟩
      rw [hbody]
      exact hsolicit rfl

end Sys2Proof.Machine

/-! PROOFS. STANDBY entered (O9): what the line interface has to send. -/

namespace Sys2Proof.Machine

/-! ### Bodies and destinations of the frames (R146) -/

/-- What the line interface has to send: the body and the destination of each frame, in service or not. -/
def Line.sends (l : Line) : List (TxBody × Nat) := l.frames.map fun g => (g.body, g.dest)

theorem holdsFrame_iff_sends (s : Station) (b : TxBody) (d : Nat) : s.holdsFrame b d = true ↔ (b, d) ∈ s.line.sends := by
  rw [holdsFrame_iff]
  unfold Line.sends
  simp only [List.mem_map, Prod.mk.injEq]

theorem queued_iff_sends (s : Station) (p : TxBody → Bool) :
    s.queued (fun g => p g.body) = true ↔ ∃ x ∈ s.line.sends, p x.1 = true := by
  rw [queued_iff]
  unfold Line.sends
  constructor
  · rintro ⟨g, hg, hp⟩
    exact ⟨_, List.mem_map_of_mem hg, hp⟩
  · rintro ⟨x, hx, hp⟩
    obtain ⟨g, hg, rfl⟩ := List.mem_map.mp hx
    exact ⟨g, hg, hp⟩

theorem announceQueued_iff_sends (s : Station) :
    s.announceQueued = true ↔ ∃ x ∈ s.line.sends, x.1.isAnnounce = true := by
  rw [announceQueued_iff]
  unfold Line.sends
  constructor
  · rintro ⟨g, hg, hp⟩
    exact ⟨_, List.mem_map_of_mem hg, hp⟩
  · rintro ⟨x, hx, hp⟩
    obtain ⟨g, hg, rfl⟩ := List.mem_map.mp hx
    exact ⟨g, hg, hp⟩

theorem announceQueued_of_sends {s t : Station} (h : t.line.sends = s.line.sends) : t.announceQueued = s.announceQueued := by
  rw [Bool.eq_iff_iff, announceQueued_iff_sends, announceQueued_iff_sends, h]

theorem queued_of_sends {s t : Station} (h : t.line.sends = s.line.sends) (p : TxBody → Bool) :
    t.queued (fun g => p g.body) = s.queued (fun g => p g.body) := by
  rw [Bool.eq_iff_iff, queued_iff_sends, queued_iff_sends, h]

theorem mem_addFrame_sends (f : TxFrame) (s : Station) (x : TxBody × Nat) :
    x ∈ (addFrame f s).line.sends ↔ x = (f.body, f.dest) ∨ x ∈ s.line.sends := by
  unfold Line.sends
  simp only [List.mem_map, addFrame_frames]
  constructor
  · rintro ⟨g, rfl | hg, rfl⟩
    · exact Or.inl rfl
    · exact Or.inr ⟨g, hg, rfl⟩
  · rintro (rfl | ⟨g, hg, rfl⟩)
    · exact ⟨f, Or.inl rfl, rfl⟩
    · exact ⟨g, Or.inr hg, rfl⟩

theorem mapAnnounce_sends (f : TxBody → TxBody) (s : Station) :
    (mapAnnounce f s).line.sends = s.line.sends.map fun x => (f x.1, x.2) := by
  unfold Line.sends Line.frames mapAnnounce
  cases s.line.service <;> simp

/-! ### The transmit side sends what it has (R148-R150) -/

theorem lineDraw_sends (d : Nat) (s : Station) : (lineDraw d s).line.sends = s.line.sends := by
  unfold lineDraw
  split
  · next hservice =>
    unfold Line.sends Line.frames
    rw [hservice]
    rfl
  · rfl

theorem enterService_sends (f : TxFrame) (s : Station) :
    (enterService f s).line.sends = (f.body, f.dest) :: s.line.queue.map fun g => (g.body, g.dest) := by
  have hline := requestDraw_line .line { s with line.service := some ⟨f, .waitingDraw⟩ }
  unfold enterService requestLineDraw
  split
  · next hdraw =>
    rw [hdraw] at hline
    rw [lineDraw_sends, hline]
    rfl
  · next hdraw =>
    rw [hdraw] at hline
    rw [hline]
    rfl

theorem tryAttempt_sends (s : Station) : (tryAttempt s).line.sends = s.line.sends := by
  unfold tryAttempt
  split
  · next hservice =>
    split
    · unfold Line.sends Line.frames
      rw [hservice]
      rfl
    · rfl
  · rfl

theorem pump_sends (s : Station) : (pump s).line.sends = s.line.sends := by
  unfold pump
  split
  · next hservice hqueue =>
    rw [tryAttempt_sends, enterService_sends]
    unfold Line.sends Line.frames
    rw [hservice, hqueue]
    rfl
  · exact tryAttempt_sends s

theorem enterService_power (f : TxFrame) (s : Station) : (enterService f s).power = s.power := by
  have hdraw : ∀ t : Station, (requestDraw .line t).2.power = t.power := by
    intro t
    unfold requestDraw
    repeat' split
    all_goals rfl
  have hpower := hdraw { s with line.service := some ⟨f, .waitingDraw⟩ }
  unfold enterService requestLineDraw
  split
  · next heq =>
    rw [heq] at hpower
    unfold lineDraw
    split <;> exact hpower
  · next heq =>
    rw [heq] at hpower
    exact hpower

theorem pump_power (s : Station) : (pump s).power = s.power := by
  have htry : ∀ t : Station, (tryAttempt t).power = t.power := by
    intro t
    unfold tryAttempt
    repeat' split
    all_goals rfl
  unfold pump
  split
  · exact (htry _).trans (enterService_power _ _)
  · exact htry s

theorem pump_empty {s : Station} (hservice : s.line.service = none) (hqueue : s.line.queue = []) : pump s = s := by
  unfold pump
  rw [hservice, hqueue]
  dsimp only
  unfold tryAttempt
  rw [hservice]

/-! ### A cause where there is room (R12, R13) -/

/-- An ANNOUNCE joins the queue, or a cause merges into the one that stands, and nothing is dropped. -/
theorem mergeAnnounce_shape (x y : Bool) {s : Station} (hact : s.power.opState = .active) (hload : s.load ≤ 8) :
    ∃ line announcing, mergeAnnounce x y s = { s with line := line, announcing := announcing } := by
  unfold mergeAnnounce
  split
  · dsimp only
    split
    · exact ⟨_, _, rfl⟩
    · exact ⟨_, _, rfl⟩
  · next hq =>
    have hfew := load_unqueued (Bool.eq_false_iff.mpr hq)
    rw [handOver_room (s := { s with announcing.period := none })
      (takesFrame_active (s := { s with announcing.period := none }) hact _ _) (by change s.line.total < 8; omega)]
    exact ⟨_, _, rfl⟩

theorem announceCause_shape (y : Bool) {s : Station} (hact : s.power.opState = .active) (hload : s.load ≤ 8) :
    ∃ line announcing, announceCause y s = { s with line := line, announcing := announcing } := by
  unfold announceCause
  rw [if_pos hact]
  split
  · exact ⟨_, _, rfl⟩
  · exact ⟨_, _, rfl⟩
  · exact mergeAnnounce_shape false y hact hload
  · exact mergeAnnounce_shape false y hact hload

/-- A cause handed over while no ANNOUNCE is queued, where there is room. -/
theorem mergeAnnounce_hands (x y : Bool) {s : Station} (hact : s.power.opState = .active) (hq : s.announceQueued = false)
    (hroom : s.line.total < 8) : (mergeAnnounce x y s).holdsFrame (.announce x y) 63 = true := by
  unfold mergeAnnounce
  rw [if_neg (by rw [hq]; decide)]
  exact handOver_holds (s := { s with announcing.period := none })
    (takesFrame_active (s := { s with announcing.period := none }) hact _ _) hroom

/-- A STANDBY cause leaves an ANNOUNCE that says STANDBY. -/
theorem mergeAnnounce_saysStandby {y : Bool} {s : Station} (hact : s.power.opState = .active) (hload : s.load ≤ 8) :
    (mergeAnnounce true y s).queued (fun g => g.body.isAnnounce && g.body.saysStandby) = true := by
  rw [queued_iff_sends _ fun b => b.isAnnounce && b.saysStandby]
  by_cases hq : s.announceQueued = true
  · obtain ⟨⟨b, d⟩, hmem, hann⟩ := (announceQueued_iff_sends s).mp hq
    have hmapped : (TxBody.mergedWith true y b, d) ∈ (mapAnnounce (TxBody.mergedWith true y) s).line.sends := by
      rw [mapAnnounce_sends]
      exact List.mem_map_of_mem (f := fun x : TxBody × Nat => (TxBody.mergedWith true y x.1, x.2)) hmem
    have hsays : (TxBody.mergedWith true y b).isAnnounce && (TxBody.mergedWith true y b).saysStandby := by
      cases b with
      | announce => rfl
      | _ => exact nomatch hann
    refine ⟨(TxBody.mergedWith true y b, d), ?_, hsays⟩
    unfold mergeAnnounce
    rw [if_pos hq]
    dsimp only
    split
    · exact hmapped
    · exact hmapped
  · have hnone := Bool.eq_false_iff.mpr hq
    have hfew := load_unqueued hnone
    exact ⟨_, (holdsFrame_iff_sends _ _ _).mp (mergeAnnounce_hands true y hact hnone (by omega)), rfl⟩

end Sys2Proof.Machine

/-! PROOFS. STANDBY entered (O9): a standby entry abandoned, and the end of a command of a station with no entry in
progress. -/

namespace Sys2Proof.Machine

/-! ### A standby entry abandoned (R13, R172) -/

/-- What an abandoned entry leaves to be sent: the STANDBY ANNOUNCE made an ACTIVE one, the causes held back. -/
structure Station.Withdraws (s t : Station) : Prop where
  progress : t.power.progress = .none
  silent : s.power.progress = .announcing → t.queued (fun g => g.body.saysStandby) = false
  turned : s.power.progress = .announcing → ∀ old d, s.holdsFrame (.announce true old) d = true →
    t.holdsFrame (.announce false (old || s.announcing.heldBack.getD false)) d = true
  handed : s.power.progress = .waitingEntry → s.power.opState = .active → s.announceQueued = false → s.line.total < 8 →
    t.holdsFrame (.announce false (s.announcing.heldBack.getD false)) 63 = true

/-- What is to be sent, and no entry begun anew, is all that the abandonment leaves. -/
theorem Station.Withdraws.onward {s t u : Station} (h : s.Withdraws t) (hp : u.power.progress = .none)
    (hsends : u.line.sends = t.line.sends) : s.Withdraws u where
  progress := hp
  silent := fun hann => (queued_of_sends hsends _).trans (h.silent hann)
  turned := fun hann old d hold => by
    rw [holdsFrame_iff_sends, hsends, ← holdsFrame_iff_sends]
    exact h.turned hann old d hold
  handed := fun hwait hact hq hroom => by
    rw [holdsFrame_iff_sends, hsends, ← holdsFrame_iff_sends]
    exact h.handed hwait hact hq hroom

/-- The station that abandons may differ in all but the entry, the causes held back and the frames. -/
theorem Station.Withdraws.before {s r t : Station} (h : r.Withdraws t) (hp : r.power.progress = s.power.progress)
    (ho : r.power.opState = s.power.opState) (ha : r.announcing = s.announcing) (hqueue : r.line.queue = s.line.queue)
    (hservice : r.line.service = s.line.service) : s.Withdraws t := by
  have hframes : r.line.frames = s.line.frames := by
    unfold Line.frames
    rw [hqueue, hservice]
  have hholds : ∀ b d, r.holdsFrame b d = s.holdsFrame b d := fun b d => by
    rw [Bool.eq_iff_iff, holdsFrame_iff, holdsFrame_iff, hframes]
  have hannounce : r.announceQueued = s.announceQueued := by
    rw [Bool.eq_iff_iff, announceQueued_iff, announceQueued_iff, hframes]
  have htotal : r.line.total = s.line.total := by
    unfold Line.total
    rw [hqueue, hservice]
  obtain ⟨hprogress, hsilent, hturned, hhanded⟩ := h
  rw [hp] at hsilent hturned hhanded
  rw [ha] at hturned hhanded
  simp only [hholds] at hturned
  rw [ho, hannounce, htotal] at hhanded
  exact ⟨hprogress, hsilent, hturned, hhanded⟩

theorem mergedWith_silent (y : Bool) (b : TxBody) : (TxBody.mergedWith false y b).saysStandby = false := by
  cases b <;> rfl

/-- The entry's STANDBY ANNOUNCE turned into an ACTIVE one. -/
def turnedBack (s : Station) : Station :=
  mapAnnounce (TxBody.mergedWith false (s.announcing.heldBack.getD false))
    { s with power.progress := .none, announcing.heldBack := none }

theorem turnedBack_sends (s : Station) :
    (turnedBack s).line.sends =
      s.line.sends.map fun x => (TxBody.mergedWith false (s.announcing.heldBack.getD false) x.1, x.2) :=
  mapAnnounce_sends _ _

theorem turnedBack_announcingNow (s : Station) : (turnedBack s).announcingNow = s.announcingNow := by
  unfold Station.announcingNow turnedBack mapAnnounce
  cases s.line.service with
  | none => rfl
  | some v => exact congrArg (· && v.backoff.attempt) (isAnnounce_mergedWith false _ v.frame.body)

theorem abandonStandby_announcing {s : Station} (h : s.power.progress = .announcing) :
    abandonStandby s =
      if s.announcingNow then
        { turnedBack s with announcing.mark := true, announcing.markSolicit := s.announcing.heldBack.getD false }
      else turnedBack s := by
  rw [← turnedBack_announcingNow s]
  unfold abandonStandby
  rw [h]
  rfl

theorem abandonStandby_waitingEntry {s : Station} (h : s.power.progress = .waitingEntry) :
    abandonStandby s =
      mergeAnnounce false (s.announcing.heldBack.getD false)
        { s with power.progress := .none, announcing.heldBack := none } := by
  unfold abandonStandby
  rw [h]

theorem abandonStandby_withdraws (s : Station) : s.Withdraws (abandonStandby s) := by
  have hsends : s.power.progress = .announcing → (abandonStandby s).line.sends =
      s.line.sends.map fun x => (TxBody.mergedWith false (s.announcing.heldBack.getD false) x.1, x.2) := by
    intro h
    rw [abandonStandby_announcing h]
    split
    · exact turnedBack_sends s
    · exact turnedBack_sends s
  refine ⟨abandonStandby_progress s, fun h => ?_, fun h old d hold => ?_, fun h hact hq hroom => ?_⟩
  · rw [Bool.eq_false_iff]
    intro hsays
    obtain ⟨x, hx, hsays⟩ := (queued_iff_sends _ TxBody.saysStandby).mp hsays
    rw [hsends h] at hx
    obtain ⟨y, -, rfl⟩ := List.mem_map.mp hx
    rw [mergedWith_silent] at hsays
    exact nomatch hsays
  · rw [holdsFrame_iff_sends] at hold ⊢
    rw [hsends h]
    exact List.mem_map.mpr ⟨_, hold, rfl⟩
  · rw [abandonStandby_waitingEntry h]
    exact mergeAnnounce_hands (s := { s with power.progress := .none, announcing.heldBack := none }) _ _ hact hq hroom

/-- An ANNOUNCE in the air is marked to be sent again (R13). -/
theorem abandonStandby_marks {s : Station} (h : s.power.progress = .announcing) (hnow : s.announcingNow = true) :
    (abandonStandby s).announcing.mark = true ∧
      (abandonStandby s).announcing.markSolicit = s.announcing.heldBack.getD false := by
  rw [abandonStandby_announcing h, if_pos hnow]
  exact ⟨rfl, rfl⟩

theorem abandonStandby_power (s : Station) : (abandonStandby s).power = { s.power with progress := .none } := by
  have hnone : s.power.progress = .none → s.power = { s.power with progress := .none } := by
    intro h
    rw [← h]
  unfold abandonStandby
  dsimp only
  split
  · next h => exact hnone h
  · rfl
  · split
    · rfl
    · rfl
  · exact mergeAnnounce_power _ _ _

/-! ### The quiet condition (R171) -/

theorem quiet_iff (s : Station) :
    s.quiet = true ↔
      s.power.opState = .active ∧ s.config.standbyEnable = true ∧ s.call.origin = none ∧ s.call.carriers = [] ∧
        s.reports.queue = [] ∧ s.reports.relay = [] ∧ s.panel.hook = .onHook ∧ s.power.reload = none := by
  unfold Station.quiet
  simp only [Bool.and_eq_true, beq_iff_eq, Option.isNone_iff_eq_none, List.isEmpty_iff, and_assoc]

theorem keepStall_eq (s : Station) : ∃ x, keepStall s = { s with reports.stall := x } := by
  unfold keepStall
  split
  · split
    · exact ⟨s.reports.stall, rfl⟩
    · exact ⟨_, rfl⟩
  · exact ⟨_, rfl⟩

theorem markReload_none {s : Station} (h : s.power.reload = none) : markReload s = s := by
  unfold markReload
  rw [h]

theorem markReload_eq (s : Station) :
    ∃ x, markReload s = { s with power.reload := x } ∧ x.isNone = s.power.reload.isNone := by
  unfold markReload
  split
  · next r h =>
    split
    · exact ⟨s.power.reload, rfl, rfl⟩
    · exact ⟨_, rfl, by rw [h]; rfl⟩
  · exact ⟨s.power.reload, rfl, rfl⟩

/-- The stall check and the reload's condition leave what the standby check goes by. -/
theorem upkeep_checks (s : Station) :
    ∃ stall reload, upkeep s = standbyCheck { s with reports.stall := stall, power.reload := reload } ∧
      reload.isNone = s.power.reload.isNone := by
  obtain ⟨stall, hstall⟩ := keepStall_eq s
  obtain ⟨reload, hreload, hsame⟩ := markReload_eq { s with reports.stall := stall }
  exact ⟨stall, reload, congrArg standbyCheck ((congrArg markReload hstall).trans hreload), hsame⟩

/-- A quiet station has neither a report nor a reload to look after. -/
theorem upkeep_quiet {s : Station} (h : s.quiet = true) : upkeep s = standbyCheck { s with reports.stall := none } := by
  obtain ⟨-, -, -, -, hqueue, -, -, hreload⟩ := (quiet_iff s).mp h
  have hstall : keepStall s = { s with reports.stall := none } := by
    unfold keepStall
    rw [hqueue]
    exact if_neg (by simp)
  unfold upkeep
  rw [hstall, markReload_none (s := { s with reports.stall := none }) hreload]

theorem standbyCheck_none {s : Station} (h : s.power.progress = .none) : standbyCheck s = keepIdle s := by
  unfold standbyCheck
  rw [h]

theorem standbyCheck_disturbed {s : Station} (h : s.power.progress ≠ .none) (hq : s.quiet = false) :
    standbyCheck s = abandonStandby s := by
  unfold standbyCheck
  rw [hq]
  cases hp : s.power.progress with
  | none => exact absurd hp h
  | waitingCommand => rfl
  | announcing => rfl
  | waitingEntry => rfl

/-- The standby check of a station that is not quiet abandons the entry in progress. -/
theorem upkeep_withdraws {u : Station} (hq : u.quiet = false) :
    u.Withdraws (upkeep u) ∧
      (u.power.progress = .announcing → u.announcingNow = true →
        (upkeep u).announcing.mark = true ∧ (upkeep u).announcing.markSolicit = u.announcing.heldBack.getD false) := by
  obtain ⟨stall, reload, hcheck, hreload⟩ := upkeep_checks u
  generalize hw : ({ u with reports.stall := stall, power.reload := reload } : Station) = w at hcheck
  have hbefore : ∀ t, w.Withdraws t → u.Withdraws t := by
    subst hw
    exact fun t h => h.before rfl rfl rfl rfl rfl
  have hnoisy : w.quiet = false := by
    subst hw
    refine Eq.trans ?_ hq
    unfold Station.quiet
    rw [← hreload]
    rfl
  have hsame : w.power.progress = u.power.progress ∧ w.announcingNow = u.announcingNow ∧ w.announcing = u.announcing := by
    subst hw
    exact ⟨rfl, rfl, rfl⟩
  obtain ⟨hprogress, hnow, hannouncing⟩ := hsame
  rw [hcheck]
  by_cases hp : w.power.progress = .none
  · rw [standbyCheck_none hp]
    obtain ⟨x, hx⟩ := keepIdle_eq w
    rw [hx]
    refine ⟨⟨hp, fun h => ?_, fun h => ?_, fun h => ?_⟩, fun h => ?_⟩
    all_goals exact nomatch (hprogress.symm.trans hp).symm.trans h
  · rw [standbyCheck_disturbed hp hnoisy]
    refine ⟨hbefore _ (abandonStandby_withdraws w), fun h hair => ?_⟩
    rw [← hannouncing]
    exact abandonStandby_marks (hprogress.trans h) (hnow.trans hair)

end Sys2Proof.Machine

/-! PROOFS. STANDBY entered (O9): how a command ends for a station with no entry in progress, at the decision, and at the
entry. -/

namespace Sys2Proof.Machine

/-! ### The quiet condition kept -/

theorem quiet_of_core {s t : Station} (h : t.core = s.core) (hr : t.power.reload = s.power.reload) : t.quiet = s.quiet := by
  have ho : t.power.opState = s.power.opState := congrArg StationCore.opState h
  have hc : t.config = s.config := by
    unfold Station.config
    rw [core_config_eq h]
  have hqueue : t.reports.queue = s.reports.queue := congrArg StationCore.queue h
  have hrelay : t.reports.relay = s.reports.relay := congrArg StationCore.relay h
  rw [Bool.eq_iff_iff, quiet_iff, quiet_iff, ho, hc, hqueue, hrelay, hr, core_call_eq h, core_panel_eq h]

theorem within_of_core {s t : Station} (h : t.core = s.core) (n : Nat) : t.within n = s.within n :=
  congrArg (Stamp.later · n) (core_clock_eq h)

/-! ### No entry in progress -/

theorem announceWasDropped_rests (b : Bool) {s : Station} (h : s.power.progress = .none) :
    (announceWasDropped b s).line = s.line ∧ (announceWasDropped b s).power = s.power := by
  have hpower : ∀ t : Station, (startPeriod t).power = t.power := by
    intro t
    unfold startPeriod
    split <;> rfl
  unfold announceWasDropped
  dsimp only
  rw [if_neg]
  · exact ⟨startPeriod_line _, hpower _⟩
  · rw [hpower]
    simp [h]

/-- The notices of dropped ANNOUNCE frames start the period timer at most. -/
theorem drain_rests (n : Nat) {s : Station} (hl : s.light) (hp : s.power.progress = .none) :
    (drain n s).line = s.line ∧ (drain n s).power = s.power := by
  induction n generalizing s with
  | zero => exact ⟨rfl, rfl⟩
  | succ n ih =>
    cases hw : s.work with
    | nil =>
      rw [drain_nil _ hw]
      exact ⟨rfl, rfl⟩
    | cons t rest =>
      obtain ⟨b, rfl⟩ := hl t (by rw [hw]; exact List.mem_cons_self)
      have hrest : Station.light { s with work := rest } := fun u hu => hl u (by rw [hw]; exact List.mem_cons_of_mem _ hu)
      obtain ⟨hline, hpower⟩ := announceWasDropped_rests b (s := { s with work := rest }) hp
      rw [drain_cons hw]
      obtain ⟨hline', hpower'⟩ := ih (announceWasDropped_light b hrest) (by rw [hpower]; exact hp)
      exact ⟨hline'.trans hline, hpower'.trans hpower⟩

/-! ### An entry in progress at the standby check (R172) -/

theorem upkeep_waitingCommand {w : Station} (hq : w.quiet = true) (hp : w.power.progress = .waitingCommand) :
    upkeep w =
      if w.noCommand then decideStandby { w with reports.stall := none } else { w with reports.stall := none } := by
  rw [upkeep_quiet hq]
  unfold standbyCheck
  dsimp only
  rw [hp]
  dsimp only
  rw [show Station.quiet { w with reports.stall := none } = true from hq]
  rfl

theorem upkeep_waitingEntry {w : Station} (hq : w.quiet = true) (hp : w.power.progress = .waitingEntry) :
    upkeep w =
      if w.noCommand then enterStandby { w with reports.stall := none } else { w with reports.stall := none } := by
  rw [upkeep_quiet hq]
  unfold standbyCheck
  dsimp only
  rw [hp]
  dsimp only
  rw [show Station.quiet { w with reports.stall := none } = true from hq]
  rfl

section
variable {s w : Station} (hd : drain 256 s = w)
include hd

/-- The end of a command keeps a station with no entry in progress as it is, but for the timers. -/
theorem finish_rests (hl : w.light) (hp : w.power.progress = .none) :
    (finish s).power.progress = .none ∧ (finish s).power.opState = w.power.opState ∧
      (finish s).line.sends = w.line.sends := by
  obtain ⟨stall, reload, hcheck, -⟩ := upkeep_checks w
  rw [standbyCheck_none (s := { w with reports.stall := stall, power.reload := reload }) hp] at hcheck
  obtain ⟨x, hx⟩ := keepIdle_eq { w with reports.stall := stall, power.reload := reload }
  have hupkeep := hcheck.trans hx
  have hlight : (upkeep w).light := upkeep_light (by rw [hp]; decide) hl
  obtain ⟨hline, hpower⟩ := drain_rests 128 hlight (by rw [hupkeep]; exact hp)
  obtain ⟨y, hy⟩ := keepIdle_eq (drain 128 (upkeep w))
  have hfinish : finish s = pump { drain 128 (upkeep w) with power.idleTimer := y } := by
    rw [← hy, ← hd]
    rfl
  rw [hupkeep] at hline hpower
  rw [hfinish, pump_power, pump_sends]
  dsimp only
  rw [hupkeep, hline, hpower]
  exact ⟨hp, rfl, rfl⟩

/-- The idle timer of a quiet station starts at the end of the command (R171). -/
theorem finish_idles (hl : w.light) (hp : w.power.progress = .none) (hq : w.quiet = true)
    (ht : w.power.idleTimer = none) : (finish s).power.idleTimer = some (w.within (w.config.idleTime * 1000)) := by
  obtain ⟨-, -, -, -, -, -, -, hreload⟩ := (quiet_iff w).mp hq
  have hupkeep : upkeep w =
      { w with reports.stall := none, power.idleTimer := some (w.within (w.config.idleTime * 1000)) } := by
    rw [upkeep_quiet hq, standbyCheck_none (s := { w with reports.stall := none }) hp]
    unfold keepIdle
    dsimp only
    rw [if_pos hp, if_pos (show Station.quiet { w with reports.stall := none } = true from hq), ht]
    rfl
  have hlight : (upkeep w).light := upkeep_light (by rw [hp]; decide) hl
  obtain ⟨hcore, -, -⟩ := drain_light 128 hlight
  obtain ⟨-, hpower⟩ := drain_rests 128 hlight (by rw [hupkeep]; exact hp)
  generalize hv : drain 128 (upkeep w) = v at hcore hpower
  rw [hupkeep] at hcore hpower
  have hquiet : v.quiet = true :=
    (quiet_of_core (s := w) (hcore.trans rfl) ((congrArg Power.reload hpower).trans rfl)).trans hq
  have htimer : v.power.idleTimer = some (w.within (w.config.idleTime * 1000)) := congrArg Power.idleTimer hpower
  have hkeep : keepIdle v = v := by
    unfold keepIdle
    rw [if_pos ((congrArg Power.progress hpower).trans hp), if_pos hquiet, if_pos (by rw [htimer]; rfl)]
  have hfinish : finish s = pump v := by
    rw [← hkeep, ← hv, ← hd]
    rfl
  rw [hfinish, pump_power, htimer]

/-! ### The entry begun, decided on, and made (R172, R173) -/

/-- What is left of the end of a command that goes on with an entry. -/
theorem finish_entering {v : Station} (hv : upkeep w = v) (hw : v.work = []) (hp : v.power.progress ≠ .none) :
    finish s = pump v := by
  have hkeep : keepIdle v = v := if_neg hp
  calc finish s = pump (keepIdle (drain 128 (upkeep (drain 256 s)))) := rfl
    _ = pump v := by rw [hd, hv, drain_nil 128 hw, hkeep]

theorem finish_waits (hw : w.work = []) (hq : w.quiet = true) (hp : w.power.progress = .waitingCommand)
    (hcommand : w.noCommand = false) : (finish s).power.progress = .waitingCommand := by
  have hupkeep : upkeep w = { w with reports.stall := none } := by
    rw [upkeep_waitingCommand hq hp, hcommand]
    rfl
  rw [finish_entering hd hupkeep hw (by change w.power.progress ≠ _; rw [hp]; decide), pump_power]
  exact hp

theorem finish_decides (hw : w.work = []) (hq : w.quiet = true) (hp : w.power.progress = .waitingCommand)
    (hcommand : w.noCommand = true) (hload : w.load ≤ 8) :
    (finish s).power.progress = .announcing ∧ (finish s).power.opState = .active ∧
      (finish s).queued (fun g => g.body.isAnnounce && g.body.saysStandby) = true := by
  obtain ⟨hact, -⟩ := (quiet_iff w).mp hq
  have hupkeep : upkeep w =
      mergeAnnounce true false { w with reports.stall := none, power.progress := .announcing } := by
    rw [upkeep_waitingCommand hq hp, hcommand]
    rfl
  obtain ⟨line, announcing, hshape⟩ := mergeAnnounce_shape true false
    (s := { w with reports.stall := none, power.progress := .announcing }) hact hload
  have hsays := mergeAnnounce_saysStandby (y := false)
    (s := { w with reports.stall := none, power.progress := .announcing }) hact hload
  rw [hshape] at hupkeep hsays
  rw [finish_entering hd hupkeep hw (fun h => nomatch h), pump_power]
  exact ⟨rfl, hact, (queued_of_sends (pump_sends _) fun b => b.isAnnounce && b.saysStandby).trans hsays⟩

end

/-! ### What an entry into STANDBY leaves (R6, R15, R35, R63, R123, R124, R155, R164, R173) -/

/-- A station entered into STANDBY. -/
structure Station.Sleeps (s t : Station) : Prop where
  opState : t.power.opState = .standby
  progress : t.power.progress = .none
  checkIn : t.power.checkIn =
    if s.config.checkIn = 0 then none else some (s.within (s.config.checkIn * 3600000))
  keep : t.keep = s.keep
  cabinet : t.cabinet = s.cabinet
  directory : t.directory = { entries := [], effective := s.config.circuits }
  announcing : t.announcing = clearedAnnouncing
  circuits : t.circuits = clearedCircuits
  queue : t.line.queue = []
  service : t.line.service = none
  draw : t.draw = { startedDraw with mode := .off }
  bearers : t.bearers = clearedBearers
  audio : t.audio = []
  panel : t.panel = { clearedPanel with hook := s.panel.hook, disregard := s.panel.pressHeld }
  call : t.call = { origin := none, carriers := [] }
  reports : t.reports = clearedReports

theorem clearBearers_frame (s : Station) : (clearBearers s).cabinet = s.cabinet ∧ (clearBearers s).config = s.config := by
  have hone : ∀ (l : Letter) (t : Station),
      (powerDownIfPowered l t).cabinet = t.cabinet ∧ (powerDownIfPowered l t).config = t.config := by
    intro l t
    unfold powerDownIfPowered
    split <;> exact ⟨rfl, rfl⟩
  obtain ⟨hcabinet, hconfig⟩ := hone .a s
  obtain ⟨hcabinet', hconfig'⟩ := hone .b (powerDownIfPowered .a s)
  exact ⟨hcabinet'.trans hcabinet, hconfig'.trans hconfig⟩

theorem enterStandby_sleeps (s : Station) : s.Sleeps (enterStandby s) := by
  obtain ⟨hpower, hkeep, -, -⟩ := clearBlocks_power s
  obtain ⟨hcabinet, hconfig⟩ := clearBearers_frame s
  have hconfig' : (clearBlocks s).config = s.config := hconfig
  have hwithin : ∀ n, (clearBlocks s).within n = s.within n := fun n =>
    congrArg (fun k : Keep => Stamp.later k.clock n) hkeep
  refine ⟨rfl, rfl, ?_, hkeep, hcabinet, ?_, rfl, rfl, rfl, rfl, rfl, rfl, rfl, rfl, rfl, rfl⟩
  · change (if (clearBlocks s).config.checkIn = 0 then none else some ((clearBlocks s).within _)) = _
    rw [hconfig', hwithin]
  · change Directory.mk [] (clearBearers s).config.circuits = _
    rw [hconfig]

/-- The end of a command at which the last condition of an entry holds. -/
theorem finish_sleeps {s w : Station} (hd : drain 256 s = w) (hq : w.quiet = true) (hp : w.power.progress = .waitingEntry)
    (hcommand : w.noCommand = true) : w.Sleeps (finish s) := by
  have hupkeep : upkeep w = enterStandby { w with reports.stall := none } := by
    rw [upkeep_waitingEntry hq hp, hcommand]
    rfl
  have hsleeps := enterStandby_sleeps { w with reports.stall := none }
  obtain ⟨x, hx⟩ := keepIdle_eq (enterStandby { w with reports.stall := none })
  have hfinish : finish s = { enterStandby { w with reports.stall := none } with power.idleTimer := x } := by
    calc finish s = pump (keepIdle (drain 128 (upkeep (drain 256 s)))) := rfl
      _ = pump { enterStandby { w with reports.stall := none } with power.idleTimer := x } := by
        rw [hd, hupkeep, drain_nil 128 rfl, hx]
      _ = _ := pump_empty hsleeps.service hsleeps.queue
  rw [hfinish]
  exact ⟨hsleeps.opState, hsleeps.progress, hsleeps.checkIn, hsleeps.keep, hsleeps.cabinet, hsleeps.directory,
    hsleeps.announcing, hsleeps.circuits, hsleeps.queue, hsleeps.service, hsleeps.draw, hsleeps.bearers, hsleeps.audio,
    hsleeps.panel, hsleeps.call, hsleeps.reports⟩

end Sys2Proof.Machine

/-! PROOFS. STANDBY entered (O9): the commands that break the quiet condition or drop the STANDBY ANNOUNCE. -/

namespace Sys2Proof.Machine

/-! ### OFF_HOOK of a quiet station (R111, R171) -/

theorem createOrigin_power (m : Mode) (s : Station) : (createOrigin m s).power = s.power := by
  unfold createOrigin
  split
  · dsimp only
    obtain ⟨audio, panel, hended⟩ := endFailed_shape { s with keep.lastCall := nextNumber s.keep.lastCall }
    rw [hended, tallyUp_eq]
    dsimp only
    generalize htone : tryBridge _ _ = w
    obtain ⟨shown, panel', hshown⟩ := showNotice_shape .connecting .slowFlash w
    have hpower : w.power = s.power := by
      rw [← htone]
      obtain ⟨bridges, hbridged⟩ := tryBridge_shape ⟨.tone, m.callerEnd, .origin (newOrigin m s).tag⟩
        { s with
          keep.lastCall := nextNumber s.keep.lastCall
          keep.tally := if s.keep.tally.frozen then s.keep.tally else { s.keep.tally with placed := s.keep.tally.placed + 1 }
          call.origin := some (newOrigin m s)
          audio := audio
          panel := panel }
      exact (congrArg Station.power hbridged).trans rfl
    unfold showConnecting
    rw [hshown]
    exact hpower
  · rfl

theorem offHook_quiet {s : Station} (hq : s.quiet = true) :
    (offHookAction { s with panel.hook := .offHook }).quiet = false ∧
      (offHookAction { s with panel.hook := .offHook }).power = s.power := by
  obtain ⟨hact, -, horigin, -⟩ := (quiet_iff s).mp hq
  have hgo : offHookAction { s with panel.hook := .offHook } = createOrigin .handset { s with panel.hook := .offHook } := by
    unfold offHookAction
    rw [if_neg (by change s.power.opState ≠ .start; rw [hact]; decide),
      show Call.origin (Station.call { s with panel.hook := .offHook }) = none from horigin]
  have hmakes := createOrigin_makes (mode := .handset) (s := { s with panel.hook := .offHook })
    ((inService_iff _).mpr (Or.inl hact)) horigin
  rw [hgo]
  refine ⟨?_, createOrigin_power _ _⟩
  rw [Bool.eq_false_iff]
  intro hquiet
  obtain ⟨-, -, hnone, -⟩ := (quiet_iff _).mp hquiet
  rw [hmakes.call] at hnone
  exact nomatch hnone

/-! ### A WAKE heard in ACTIVE (R171, R172) -/

theorem refreshPeer_eq (a : Nat) (s : Station) : ∃ d, refreshPeer a s = { s with directory := d } := by
  unfold refreshPeer
  split
  · exact ⟨_, rfl⟩
  · exact ⟨s.directory, rfl⟩

theorem takeWakeFrame_active {f : RxFrame} {s : Station} (hsource : f.source ≠ 0) (hbody : f.body = [])
    (hdest : s.isOwn f.dest.toNat = true ∨ f.dest.toNat = 63) (ho : s.power.opState = .active) :
    ∃ d, takeWakeFrame f s = abandonStandby { s with directory := d, power.idleTimer := none } := by
  obtain ⟨d, hd⟩ := refreshPeer_eq f.source.toNat s
  refine ⟨d, ?_⟩
  unfold takeWakeFrame
  rw [if_pos ⟨hsource, by rw [hbody]; rfl⟩]
  dsimp only
  rw [if_pos ho, hd, if_pos (show (Station.isOwn { s with directory := d } f.dest.toNat || f.dest.toNat == 63) = true from
    (Bool.or_eq_true _ _).mpr (hdest.imp_right beq_iff_eq.mpr)), if_pos (show s.power.opState = .active from ho)]
  rfl

theorem announcingNow_silent {s : Station} (h : s.transmitting = false) : s.announcingNow = false := by
  unfold Station.transmitting at h
  unfold Station.announcingNow
  split
  · next v hv =>
    rw [hv] at h
    rw [show v.backoff.attempt = false from h, Bool.and_false]
  · rfl

/-- The end of the command at which a WAKE was taken: the entry is abandoned, the idle timer restarts. -/
theorem finish_wakeInActive {s : Station} {d : Directory} (hq : s.quiet = true) (hw : s.work = []) :
    s.Withdraws (finish (abandonStandby { s with directory := d, power.idleTimer := none })) ∧
      (finish (abandonStandby { s with directory := d, power.idleTimer := none })).power.opState = .active ∧
      (finish (abandonStandby { s with directory := d, power.idleTimer := none })).power.idleTimer =
        some (s.within (s.config.idleTime * 1000)) := by
  obtain ⟨hact, -⟩ := (quiet_iff s).mp hq
  generalize hr : ({ s with directory := d, power.idleTimer := none } : Station) = r
  have hwithdraws : s.Withdraws (abandonStandby r) := by
    subst hr
    exact (abandonStandby_withdraws _).before rfl rfl rfl rfl rfl
  have hpower := abandonStandby_power r
  have hlight : (abandonStandby r).light := abandonStandby_light (light_of_nil (by subst hr; exact hw))
  have hprogress := abandonStandby_progress r
  obtain ⟨hcore, hlight', -⟩ := drain_light 256 hlight
  obtain ⟨hline', hpower'⟩ := drain_rests 256 hlight hprogress
  have hprogress' : (drain 256 (abandonStandby r)).power.progress = .none := by rw [hpower', hprogress]
  have hsame := hcore.trans (abandonStandby_core r)
  have hquiet : (drain 256 (abandonStandby r)).quiet = true := by
    rw [quiet_of_core hsame (by rw [hpower', hpower]), ← hq]
    subst hr
    rfl
  obtain ⟨hp, ho, hsends⟩ := finish_rests rfl hlight' hprogress'
  have hidles := finish_idles rfl hlight' hprogress' hquiet (by rw [hpower', hpower]; subst hr; rfl)
  refine ⟨hwithdraws.onward hp (hsends.trans (by rw [hline'])), ?_, ?_⟩
  · rw [ho, hpower', hpower]
    subst hr
    exact hact
  · have hconfig : (drain 256 (abandonStandby r)).config = r.config := by
      unfold Station.config
      rw [core_config_eq hsame]
    rw [hidles, within_of_core hsame, hconfig]
    subst hr
    rfl

/-! ### The STANDBY ANNOUNCE dropped (R13, R154, R172) -/

/-- The station after its STANDBY ANNOUNCE was dropped, before a cause held back is handed over. -/
def backInActive (s : Station) : Station :=
  { startPeriod { s with announcing.mark := false, announcing.markSolicit := false } with
    power.progress := .none, announcing.heldBack := none }

theorem startPeriod_active {s : Station} (h : s.power.opState = .active) :
    startPeriod s = { s with announcing.period := some (s.within (s.config.announcePeriod * 1000)) } := if_pos h

theorem backInActive_eq {s : Station} (h : s.power.opState = .active) :
    ∃ announcing, backInActive s = { s with announcing := announcing, power.progress := .none } := by
  unfold backInActive
  rw [startPeriod_active (s := { s with announcing.mark := false, announcing.markSolicit := false }) h]
  exact ⟨_, rfl⟩

section
variable {s : Station} (hact : s.power.opState = .active) (hp : s.power.progress = .announcing)
include hact hp

theorem announceWasDropped_none (h : s.announcing.heldBack = none) : announceWasDropped true s = backInActive s := by
  unfold announceWasDropped backInActive
  rw [startPeriod_active (s := { s with announcing.mark := false, announcing.markSolicit := false }) hact]
  dsimp only
  rw [if_pos (by rw [hp]; rfl), h]

theorem announceWasDropped_some {held : Bool} (h : s.announcing.heldBack = some held) :
    announceWasDropped true s = mergeAnnounce false held (backInActive s) := by
  unfold announceWasDropped backInActive
  rw [startPeriod_active (s := { s with announcing.mark := false, announcing.markSolicit := false }) hact]
  dsimp only
  rw [if_pos (by rw [hp]; rfl), h]

/-- The drop of the STANDBY ANNOUNCE, taken at the end of the command: no entry is left, and a cause held back is
announced. -/
theorem finish_standbyDropped {u : Station} (hwork : u.work = .announceDropped true :: []) (hu : { u with work := [] } = s)
    (hservice : s.line.service = none) (hnone : ∀ g ∈ s.line.queue, g.body.isAnnounce = false)
    (hroom : s.line.queue.length < 8) :
    (finish u).power.progress = .none ∧ (finish u).power.opState = .active ∧
      (s.announcing.heldBack = none → (finish u).announceQueued = false) ∧
      ∀ held, s.announcing.heldBack = some held → (finish u).holdsFrame (.announce false held) 63 = true := by
  obtain ⟨announcing, hback⟩ := backInActive_eq hact
  have hunqueued : (backInActive s).announceQueued = false := by
    rw [Bool.eq_false_iff]
    intro hq
    obtain ⟨g, hg, hann⟩ := (announceQueued_iff _).mp hq
    rw [hback] at hg
    unfold Line.frames at hg
    rw [show s.line.service = none from hservice] at hg
    exact absurd ((hnone g hg).symm.trans hann) (by decide)
  have htotal : (backInActive s).line.total < 8 := by
    rw [hback]
    unfold Line.total
    rw [show s.line.service = none from hservice]
    exact hroom
  have hactive : (backInActive s).power.opState = .active := by
    rw [hback]
    exact hact
  have hempty : (backInActive s).work = [] := by
    rw [hback, ← hu]
  have hdrain : drain 256 u = drain 255 (announceWasDropped true s) := by
    rw [drain_cons hwork, hu]
    rfl
  have hrests : ∀ w : Station, announceWasDropped true s = w → w.work = [] → w.power = (backInActive s).power →
      (finish u).power.progress = .none ∧ (finish u).power.opState = .active ∧ (finish u).line.sends = w.line.sends := by
    intro w hw hnil hpower
    have hd : drain 256 u = w := by
      rw [hdrain, hw, drain_nil 255 hnil]
    obtain ⟨hprogress, hop, hsends⟩ := finish_rests hd (light_of_nil hnil) (by rw [hpower, hback])
    exact ⟨hprogress, hop.trans (by rw [hpower]; exact hactive), hsends⟩
  cases hheld : s.announcing.heldBack with
  | none =>
    obtain ⟨hprogress, hop, hsends⟩ := hrests _ (announceWasDropped_none hact hp hheld) hempty rfl
    exact ⟨hprogress, hop, fun _ => (announceQueued_of_sends hsends).trans hunqueued, fun _ h => (nomatch h)⟩
  | some held =>
    obtain ⟨line, announcing', hshape⟩ := mergeAnnounce_shape false held hactive
      (by rw [load_unqueued hunqueued]; omega)
    obtain ⟨hprogress, hop, hsends⟩ := hrests _ (announceWasDropped_some hact hp hheld) (by rw [hshape]; exact hempty)
      (mergeAnnounce_power _ _ _)
    refine ⟨hprogress, hop, fun h => (nomatch h), fun y hy => ?_⟩
    obtain rfl := Option.some.inj hy
    rw [holdsFrame_iff_sends, hsends, ← holdsFrame_iff_sends]
    exact mergeAnnounce_hands false held hactive hunqueued htotal

end

end Sys2Proof.Machine

/-! PROOFS. STANDBY entered (O9): a bearer's last command answered, and the STANDBY ANNOUNCE sent. -/

namespace Sys2Proof.Machine

/-! ### Notices that a quiet station has nothing to do for (log entry 4) -/

/-- A notice of a bearer's change. -/
def Task.ofBearer (t : Task) : Prop := t = .bearerChanged ∨ ∃ l, t = .bearerAvailable l

section
variable {s : Station} (hqueue : s.reports.queue = []) (hrelay : s.reports.relay = []) (hwaiting : s.bearers.waiting = [])
include hqueue hrelay hwaiting

/-- With no report and no claim that waits, a bearer's change has no effect. -/
theorem takeTask_ofBearer {t : Task} (ht : t.ofBearer) : takeTask t s = s := by
  have hfly : s.flying = none := by
    unfold Station.flying
    rw [hqueue]
    rfl
  have hreports : decideReports s = s := by
    have hretest : retestClaim s = s := by
      unfold retestClaim
      rw [hfly]
    unfold decideReports offerNext
    rw [hretest, hqueue]
    exact ite_self s
  rcases ht with rfl | ⟨l, rfl⟩
  · change decideRelay (decideReports s) = s
    rw [hreports]
    unfold decideRelay
    rw [hrelay]
    exact ite_self s
  · change decideWaiting l s = s
    unfold decideWaiting
    rw [hwaiting]
    exact ite_self s

end

theorem drain_ofBearer (n : Nat) {s : Station} (hqueue : s.reports.queue = []) (hrelay : s.reports.relay = [])
    (hwaiting : s.bearers.waiting = []) (hn : s.work.length ≤ n) (hw : ∀ t ∈ s.work, t.ofBearer) :
    drain n s = { s with work := [] } := by
  induction n generalizing s with
  | zero =>
    have hnil : s.work = [] := List.length_eq_zero_iff.mp (Nat.le_zero.mp hn)
    rw [drain_nil 0 hnil, ← hnil]
  | succ n ih =>
    cases hwork : s.work with
    | nil => rw [drain_nil _ hwork, ← hwork]
    | cons t rest =>
      rw [hwork] at hn hw
      rw [drain_cons hwork, takeTask_ofBearer (s := { s with work := rest }) hqueue hrelay hwaiting (hw t List.mem_cons_self)]
      exact ih (s := { s with work := rest }) hqueue hrelay hwaiting (Nat.le_of_succ_le_succ hn)
        fun u hu => hw u (List.mem_cons_of_mem _ hu)

/-! ### A bearer's record rewritten (R38, R41) -/

/-- A bearer's record replaced, with the ANNOUNCE that its change asks for, at most `n` notices of the change, and nothing
else. -/
structure Station.Rewrites (n : Nat) (l : Letter) (r : Bearer) (s t : Station) : Prop where
  bearer : t.bearer l = r
  others : ∀ m, m ≠ l → t.bearer m = s.bearer m
  waiting : t.bearers.waiting = s.bearers.waiting
  keep : t.keep = s.keep
  power : t.power = s.power
  cabinet : t.cabinet = s.cabinet
  call : t.call = s.call
  reports : t.reports = s.reports
  panel : t.panel = s.panel
  load : t.load ≤ s.load
  fewNotices : t.work.length ≤ s.work.length + n
  notices : ∀ x ∈ t.work, x ∈ s.work ∨ x.ofBearer

theorem setBearer_rewrites (l : Letter) (r : Bearer) (s : Station) : s.Rewrites 0 l r (setBearer l r s) := by
  refine ⟨setBearer_bearer_same l r s, fun m hm => setBearer_bearer_other hm r s, ?_, ?_, ?_, ?_, ?_, ?_, ?_,
    Nat.le_of_eq (load_of_line (setBearer_line l r s)), ?_, fun x hx => Or.inl ?_⟩
  all_goals simp_all

section
variable {n m : Nat} {l : Letter} {q r : Bearer} {s t u : Station}

theorem Station.Rewrites.mono (h : s.Rewrites n l r t) (hn : n ≤ m) : s.Rewrites m l r t :=
  { h with fewNotices := Nat.le_trans h.fewNotices (Nat.add_le_add_left hn _) }

theorem Station.Rewrites.trans (h : s.Rewrites n l q t) (h' : t.Rewrites m l r u) : s.Rewrites (n + m) l r u where
  bearer := h'.bearer
  others k hk := (h'.others k hk).trans (h.others k hk)
  waiting := h'.waiting.trans h.waiting
  keep := h'.keep.trans h.keep
  power := h'.power.trans h.power
  cabinet := h'.cabinet.trans h.cabinet
  call := h'.call.trans h.call
  reports := h'.reports.trans h.reports
  panel := h'.panel.trans h.panel
  load := Nat.le_trans h'.load h.load
  fewNotices := by
    have hfew := h.fewNotices
    have hfew' := h'.fewNotices
    omega
  notices x hx := (h'.notices x hx).elim (h.notices x) Or.inr

/-- A notice of the change, before the others or after them. -/
theorem Station.Rewrites.noticed (h : s.Rewrites n l r t) {work : List Task} (hlen : work.length ≤ t.work.length + 1)
    (hwork : ∀ x ∈ work, x ∈ t.work ∨ x.ofBearer) : s.Rewrites (n + 1) l r { t with work := work } :=
  { h with
    fewNotices := by
      have hfew := h.fewNotices
      change work.length ≤ _
      omega
    notices := fun x hx => (hwork x hx).elim (h.notices x) Or.inr }

theorem Station.Rewrites.announced (h : s.Rewrites n l r t) (hact : t.power.opState = .active) (hload : t.load ≤ 8) :
    s.Rewrites n l r (announceCause false t) := by
  have hless := Nat.le_trans (announceCause_load (y := false) hload) h.load
  obtain ⟨line, announcing, hshape⟩ := announceCause_shape false hact hload
  rw [hshape] at hless ⊢
  exact { h with load := hless }

end

theorem putBearer_rewrites {l : Letter} {r : Bearer} {s : Station} (hact : s.power.opState = .active) (hload : s.load ≤ 8)
    (hidle : (s.bearer l).state ≠ .inCall) : s.Rewrites 2 l r (putBearer l r s) := by
  have hset := setBearer_rewrites l r s
  have hchanged : s.Rewrites 1 l r (post .bearerChanged (announceCause false (setBearer l r s))) := by
    refine (hset.announced (by rw [hset.power]; exact hact) (Nat.le_trans hset.load hload)).noticed ?_ fun x hx => ?_
    · exact Nat.le_of_eq List.length_append
    · exact (List.mem_append.mp hx).imp_right fun h => Or.inl (List.mem_singleton.mp h)
  have hhandled : ∀ t, s.Rewrites 1 l r t →
      s.Rewrites 2 l r
        (if r.state == .available && (s.bearer l).state != .available then postFirst (.bearerAvailable l) t else t) := by
    intro t h
    split
    · exact h.noticed (Nat.le_refl _) fun x hx => (List.mem_cons.mp hx).symm.imp_right fun h => Or.inr ⟨l, h⟩
    · exact h.mono (Nat.le_succ 1)
  have hkept : ((s.bearer l).state == .inCall && r.state != .inCall) = false := by
    rw [beq_eq_false_iff_ne.mpr hidle, Bool.false_and]
  unfold putBearer
  dsimp only
  simp only [hkept, Bool.false_eq_true, ↓reduceIte]
  refine hhandled _ ?_
  split
  · exact hchanged
  · exact hset.mono (Nat.zero_le 1)

/-! ### The last command in flight answered (R41, R171, R172) -/

section
variable {s t : Station} {n : Nat} {l : Letter} {r : Bearer}

/-- The station after a bearer's last answer, when the notices of the change are taken. -/
theorem drain_answered (hq : s.quiet = true) (h : s.Rewrites n l r t) (hwork : s.work = []) (hn : n ≤ 256)
    (hwaiting : s.bearers.waiting = []) : drain 256 t = { t with work := [] } := by
  obtain ⟨-, -, -, -, hqueue, hrelay, -, -⟩ := (quiet_iff s).mp hq
  have hfew := h.fewNotices
  have hnotices := h.notices
  rw [hwork] at hfew hnotices
  refine drain_ofBearer 256 (by rw [h.reports]; exact hqueue) (by rw [h.reports]; exact hrelay)
    (h.waiting.trans hwaiting) ?_ fun x hx => (hnotices x hx).resolve_left List.not_mem_nil
  exact Nat.le_trans hfew (by rw [List.length_nil]; omega)

theorem quiet_of_rewrites (h : s.Rewrites n l r t) : t.quiet = s.quiet := by
  unfold Station.quiet Station.config
  rw [h.power, h.keep, h.call, h.reports, h.panel]

theorem fitted_of_rewrites (h : s.Rewrites n l r t) (m : Letter) : t.fitted m = s.fitted m := by
  cases m <;> (unfold Station.fitted Station.config; rw [h.keep])

theorem noCommand_iff (s : Station) : s.noCommand = true ↔ ∀ m, s.fitted m = true → (s.bearer m).inFlight = none := by
  unfold Station.noCommand
  simp only [List.all_eq_true, mem_fittedBearers, Option.isNone_iff_eq_none]

theorem noCommand_of_rewrites (h : s.Rewrites n l r t) (hr : r.inFlight = none)
    (hothers : ∀ m, m ≠ l → s.fitted m = true → (s.bearer m).inFlight = none) : t.noCommand = true := by
  rw [noCommand_iff]
  intro m hm
  rw [fitted_of_rewrites h] at hm
  by_cases hml : m = l
  · rw [hml, h.bearer]
    exact hr
  · rw [h.others m hml]
    exact hothers m hml hm

end

/-! ### The STANDBY ANNOUNCE sent (R12-R14, R172) -/

/-- A STANDBY ANNOUNCE sent while the entry waits for it: the entry goes on. -/
theorem completed_standby {f : TxFrame} {s : Station} (hf : f.body.isAnnounce = true) (hact : s.power.opState = .active)
    (hp : s.power.progress = .announcing) (hmark : s.announcing.mark = false) :
    ∃ announcing draw, completed f true s =
      { s with announcing := announcing, draw := draw, power.progress := .waitingEntry } := by
  unfold completed
  cases hb : f.body with
  | announce x y =>
    dsimp only
    have hannounced : ∃ announcing draw, announceCompleted x s = { s with announcing := announcing, draw := draw } := by
      unfold announceCompleted
      dsimp only
      rw [startPeriod_active (s := withdrawDraw .reply { s with announcing.reply := .none }) hact]
      dsimp only
      rw [if_neg (by
        change ¬ s.announcing.mark = true
        rw [hmark]
        decide)]
      exact ⟨_, _, rfl⟩
    obtain ⟨announcing, draw, hshape⟩ := hannounced
    rw [hshape]
    dsimp only
    rw [if_pos ⟨rfl, hp⟩]
    exact ⟨_, _, rfl⟩
  | _ => rw [hb] at hf; exact nomatch hf

end Sys2Proof.Machine

/-! PROOFS. STANDBY entered (O9): the commands. -/

namespace Sys2Proof.Machine

/-- The last attempt of the STANDBY ANNOUNCE collides: the frame is dropped (R152, R154). -/
theorem attemptCollided_dropsStandby {f : TxFrame} {bytes : List Byte} {x solicit : Bool} {s : Station}
    (hservice : s.line.service = some ⟨f, .attempting bytes x⟩) (hbody : f.body = .announce true solicit)
    (hmany : 8 ≤ f.attempts) :
    attemptCollided s =
      post (.announceDropped true) (raise .lineCongestion
        { attemptEnded s with
          announcing := { s.announcing with mark := false, markSolicit := false }
          line := { (attemptEnded s).line with service := none } }) := by
  rw [attemptCollided_drops hservice hmany]
  unfold unmarked
  rw [if_pos (by rw [hbody]; rfl), hbody]
  rfl

section
variable {s : State} (hrun : s.station.running = true) (hq : s.station.quiet = true)
include hrun hq

theorem offHook_disturbs :
    ∃ u, exec .offHook s = .next { s with station := finish u } ∧ u.quiet = false ∧
      u.power.progress = s.station.power.progress := by
  obtain ⟨hact, -, -, -, -, -, hhook, -⟩ := (quiet_iff _).mp hq
  obtain ⟨hnoisy, hpower⟩ := offHook_quiet (s := freshOut s.station) hq
  refine ⟨_, ?_, hnoisy, congrArg Power.progress hpower⟩
  change execOffHook s = _
  unfold execOffHook
  rw [takeEvent_running hrun, if_neg (by change s.station.power.opState ≠ .standby; rw [hact]; decide),
    show (freshOut s.station).panel.hook = .onHook from hhook]

theorem wakeFrame_abandons {f : RxFrame} (htx : s.station.transmitting = false)
    (hasm : s.station.line.assembly ≠ .skipping) (hcheck : frameCheckOk 2 f = true)
    (hseg : s.station.config.segment = some f.segment) (hown : s.station.isOwn f.source.toNat = false)
    (haddr : frameAddressesDefined f = true) (hsource : f.source ≠ 0) (hbody : f.body = [])
    (hdest : s.station.isOwn f.dest.toNat = true ∨ f.dest.toNat = 63) :
    ∃ t, exec (.wakeFrame f) s = .next t ∧ s.station.Withdraws t.station ∧ t.station.power.opState = .active ∧
      t.station.power.idleTimer = some (s.station.within (s.station.config.idleTime * 1000)) := by
  obtain ⟨hact, -⟩ := (quiet_iff _).mp hq
  obtain ⟨d, hd⟩ := takeWakeFrame_active (s := assembled s.station) hsource hbody hdest hact
  have hgo : receiveFrame 2 f (takeWakeFrame f) (freshOut s.station) =
      abandonStandby { assembled s.station with directory := d, power.idleTimer := none } := by
    have hsegment : (assembled s.station).segmentOk 2 f = true := by
      unfold Station.segmentOk
      rw [show (assembled s.station).config.segment = some f.segment from hseg]
      exact beq_self_eq_true _
    rw [receive_assembled (s := freshOut s.station) htx hasm, ← hd]
    change judgeFrame 2 f (takeWakeFrame f) (assembled s.station) = _
    unfold judgeFrame
    rw [if_neg (by rw [hcheck]; decide),
      if_neg (by rw [hsegment, show (assembled s.station).power.opState = .active from hact]; decide),
      if_neg (by rw [show (assembled s.station).isOwn f.source.toNat = false from hown, Bool.and_false]; decide),
      if_pos haddr]
  obtain ⟨hwithdraws, hop, hidle⟩ := finish_wakeInActive (d := d) (s := assembled s.station) hq rfl
  refine ⟨{ s with station := finish (abandonStandby { assembled s.station with directory := d, power.idleTimer := none }) },
    ?_, hwithdraws.before rfl rfl rfl rfl rfl, hop, hidle⟩
  change execWakeFrame f s = _
  unfold execWakeFrame
  rw [takeEvent_running hrun, hgo]

theorem collision_abandons {f : TxFrame} {bytes : List Byte} {x solicit : Bool}
    (hp : s.station.power.progress = .announcing) (hservice : s.station.line.service = some ⟨f, .attempting bytes x⟩)
    (hbody : f.body = .announce true solicit) (hmany : 8 ≤ f.attempts)
    (hnone : ∀ g ∈ s.station.line.queue, g.body.isAnnounce = false) (hroom : s.station.line.queue.length < 8) :
    ∃ t, exec .collision s = .next t ∧ t.station.power.progress = .none ∧ t.station.power.opState = .active ∧
      (s.station.announcing.heldBack = none → t.station.announceQueued = false) ∧
      ∀ held, s.station.announcing.heldBack = some held → t.station.holdsFrame (.announce false held) 63 = true := by
  obtain ⟨hact, -⟩ := (quiet_iff _).mp hq
  have hdrops := attemptCollided_dropsStandby (s := freshOut s.station) hservice hbody hmany
  refine ⟨{ s with station := finish (attemptCollided (freshOut s.station)) }, ?_, ?_⟩
  · change execCollision s = _
    unfold execCollision
    rw [takeEvent_running hrun]
  · rw [hdrops]
    exact finish_standbyDropped (s := raise .lineCongestion
      { attemptEnded (freshOut s.station) with
        announcing := { s.station.announcing with mark := false, markSolicit := false }
        line := { (attemptEnded (freshOut s.station)).line with service := none } }) hact hp rfl rfl rfl hnone hroom

/-! ### The idle timer's expiry (R171) -/

omit hq in
theorem idleTimer_expires {d now : Stamp} (hd : s.station.power.idleTimer = some d)
    (hnow : now = Stamp.moment s.station.now d) :
    exec .idleTimerExpiry s =
      .next { s with
        station := finish { atMoment now s.station with power.idleTimer := none, power.progress := .waitingCommand } } := by
  change execIdleTimerExpiry s = _
  unfold execIdleTimerExpiry
  rw [takeExpiry_running (d := d) hrun hd, ← hnow]

theorem idleTimer_begins {d now : Stamp} (hd : s.station.power.idleTimer = some d)
    (hnow : now = Stamp.moment s.station.now d) (hroom : s.station.line.total < 8) :
    (s.station.noCommand = true →
      ∃ t, exec .idleTimerExpiry s = .next t ∧ t.station.core = { s.station.core with clock := now } ∧
        t.station.power.progress = .announcing ∧
        t.station.queued (fun g => g.body.isAnnounce && g.body.saysStandby) = true) ∧
    (s.station.noCommand = false →
      ∃ t, exec .idleTimerExpiry s = .next t ∧ t.station.core = { s.station.core with clock := now } ∧
        t.station.power.progress = .waitingCommand) := by
  have hgo := idleTimer_expires hrun hd hnow
  generalize hw : ({ atMoment now s.station with power.idleTimer := none, power.progress := .waitingCommand } : Station) = w
    at hgo
  have hnil : w.work = [] := by
    subst hw
    rfl
  have hquiet : w.quiet = true := by
    subst hw
    exact hq
  have hprogress : w.power.progress = .waitingCommand := by
    subst hw
    rfl
  have hcommand : w.noCommand = s.station.noCommand := by
    subst hw
    rfl
  have hload : w.load ≤ 8 := by
    have hline : w.load = s.station.load := load_of_line (by subst hw; rfl)
    have hle := load_le_total s.station
    omega
  have hcore : (finish w).core = { s.station.core with clock := now } := by
    rw [finish_core (light_of_nil hnil) (by rw [hprogress]; decide)]
    subst hw
    rfl
  refine ⟨fun hc => ?_, fun hc => ?_⟩
  · obtain ⟨hp, -, hsays⟩ := finish_decides (drain_nil 256 hnil) hnil hquiet hprogress (hcommand.trans hc) hload
    exact ⟨_, hgo, hcore, hp, hsays⟩
  · exact ⟨_, hgo, hcore, finish_waits (drain_nil 256 hnil) hnil hquiet hprogress (hcommand.trans hc)⟩

/-! ### The last command in flight answered (R41, R172) -/

theorem level_goesOn {l : Letter} {level : Byte} {x : Timer} (hfit : s.station.fitted l = true)
    (hstate : (s.station.bearer l).state = .checking) (hfly : (s.station.bearer l).inFlight = some ⟨.status, x⟩)
    (hothers : ∀ m, m ≠ l → s.station.fitted m = true → (s.station.bearer m).inFlight = none)
    (hwaiting : s.station.bearers.waiting = []) (hlevel : level.toNat ≤ 63) (hroom : s.station.line.total < 8) :
    (s.station.power.progress = .waitingCommand →
      ∃ t, exec (.level l level) s = .next t ∧ t.station.power.opState = .active ∧
        t.station.power.progress = .announcing ∧
        t.station.queued (fun g => g.body.isAnnounce && g.body.saysStandby) = true) ∧
    (s.station.power.progress = .waitingEntry →
      ∃ t, exec (.level l level) s = .next t ∧ t.station.power.opState = .standby ∧
        t.station.power.progress = .none ∧ t.station.keep = s.station.keep ∧
        t.station.cabinet = s.station.cabinet ∧ t.station.bearers = clearedBearers) := by
  obtain ⟨hact, -⟩ := (quiet_iff _).mp hq
  have hload : (freshOut s.station).load ≤ 8 := by
    have hle : (freshOut s.station).load ≤ s.station.line.total + 1 := load_le_total _
    omega
  have hchecked := putBearer_rewrites (l := l) (s := freshOut s.station)
    (r := { (freshOut s.station).bearer l with
      timeouts := 0, camped := ((freshOut s.station).bearer l).camped.map fun n => (n.1, level.toNat) }) hact hload
    (by rw [freshOut_bearer, hstate]; decide)
  generalize hu : putBearer l _ (freshOut s.station) = u at hchecked
  have havailable := hchecked.trans (putBearer_rewrites (l := l) (s := u)
    (r := { (u.bearer l).unallocated with state := .available, inFlight := none }) (by rw [hchecked.power]; exact hact)
    (Nat.le_trans hchecked.load hload) (by rw [hchecked.bearer, freshOut_bearer, hstate]; decide))
  have hgo : exec (.level l level) s = .next { s with station := finish (goAvailable l u) } := by
    change execLevel l level s = _
    unfold execLevel
    have htest : ((s.station.bearer l).state == .checking && (s.station.bearer l).flies .status &&
        decide (level.toNat ≤ 63)) = true := by
      rw [hstate, flies_of_inFlight hfly, decide_eq_true hlevel]
      rfl
    rw [takeIndication_taken hrun hfit htest, ← hu]
  change (freshOut s.station).Rewrites 4 l _ (goAvailable l u) at havailable
  generalize goAvailable l u = v at hgo havailable
  have hdrain := drain_answered (s := freshOut s.station) hq havailable rfl (by decide) hwaiting
  have hquiet : Station.quiet { v with work := [] } = true := (quiet_of_rewrites havailable).trans hq
  have hcommand : Station.noCommand { v with work := [] } = true :=
    show v.noCommand = true from noCommand_of_rewrites havailable rfl hothers
  have hprogress : v.power.progress = s.station.power.progress := congrArg Power.progress havailable.power
  refine ⟨fun hp => ?_, fun hp => ?_⟩
  · obtain ⟨hannouncing, hop, hsays⟩ := finish_decides hdrain rfl hquiet (hprogress.trans hp) hcommand
      (Nat.le_trans havailable.load hload)
    exact ⟨_, hgo, hop, hannouncing, hsays⟩
  · have hsleeps := finish_sleeps hdrain hquiet (hprogress.trans hp) hcommand
    exact ⟨_, hgo, hsleeps.opState, hsleeps.progress, hsleeps.keep.trans havailable.keep,
      hsleeps.cabinet.trans havailable.cabinet, hsleeps.bearers⟩

/-! ### The STANDBY ANNOUNCE sent (R172, R173) -/

theorem standbySent_sleeps {f : TxFrame} {bytes : List Byte}
    (hservice : s.station.line.service = some ⟨f, .attempting bytes true⟩) (hf : f.body.isAnnounce = true)
    (hp : s.station.power.progress = .announcing) (hmark : s.station.announcing.mark = false)
    (hcommand : s.station.noCommand = true) :
    ∃ t, exec .transmissionComplete s = .next t ∧ s.station.Sleeps t.station := by
  obtain ⟨hact, -⟩ := (quiet_iff _).mp hq
  have hclaim : ownClaimTaken f.body (attemptEnded (freshOut s.station)) = attemptEnded (freshOut s.station) :=
    ownClaimTaken_other (claimFrame_ne fun r draw h => by
      obtain ⟨-, -, hbody⟩ := h
      rw [hbody] at hf
      exact nomatch hf)
  obtain ⟨announcing, draw, hcompleted⟩ :=
    completed_standby (s := frameLeaves (attemptEnded (freshOut s.station))) hf hact hp hmark
  have hgo : exec .transmissionComplete s =
      .next { s with station := finish (completed f true (frameLeaves (attemptEnded (freshOut s.station)))) } := by
    change execTransmissionComplete s = _
    unfold execTransmissionComplete
    rw [takeEvent_running hrun, show (freshOut s.station).line.service = _ from hservice]
    dsimp only
    rw [hclaim]
  rw [hcompleted] at hgo
  have hsleeps := finish_sleeps
    (s := { frameLeaves (attemptEnded (freshOut s.station)) with
      announcing := announcing, draw := draw, power.progress := .waitingEntry }) (drain_nil 256 rfl) hq rfl hcommand
  exact ⟨_, hgo, hsleeps.opState, hsleeps.progress, hsleeps.checkIn, hsleeps.keep, hsleeps.cabinet, hsleeps.directory,
    hsleeps.announcing, hsleeps.circuits, hsleeps.queue, hsleeps.service, hsleeps.draw, hsleeps.bearers, hsleeps.audio,
    hsleeps.panel, hsleeps.call, hsleeps.reports⟩

end

/-- Settles O9: a quiet station enters STANDBY, and abandons the entry when it is disturbed. -/
theorem standbyIsEntered : Obligations.StandbyIsEntered := by
  unfold Obligations.StandbyIsEntered
  intro abandoned
  have habandoned : ∀ s t : Station, s.Withdraws t → (s.power.progress = .announcing → s.announcingNow = true →
      t.announcing.mark = true ∧ t.announcing.markSolicit = s.announcing.heldBack.getD false) → abandoned s t :=
    fun s t h hmarks => ⟨h.progress, fun hp => ⟨h.silent hp, h.turned hp, hmarks hp⟩, h.handed⟩
  refine ⟨fun u hu => ?_, fun s hrun hq => ⟨offHook_disturbs hrun hq, ?_, ?_, ?_, ?_, ?_⟩⟩
  · obtain ⟨hwithdraws, hmarks⟩ := upkeep_withdraws hu
    exact habandoned _ _ hwithdraws hmarks
  · intro f htx hasm hcheck hseg hown haddr hsource hbody hdest
    obtain ⟨t, hgo, hwithdraws, hop, hidle⟩ := wakeFrame_abandons hrun hq htx hasm hcheck hseg hown haddr hsource hbody hdest
    have hsilent := announcingNow_silent htx
    exact ⟨t, hgo, habandoned _ _ hwithdraws fun _ hnow => absurd (hsilent.symm.trans hnow) Bool.false_ne_true, hop, hidle⟩
  · exact fun f bytes x solicit hp hservice hbody hmany hnone hroom =>
      collision_abandons hrun hq hp hservice hbody hmany hnone hroom
  · exact fun d now _ hd hnow hroom => idleTimer_begins hrun hq hd hnow hroom
  · exact fun l level x hfit hstate hfly hothers hwaiting hlevel hroom =>
      level_goesOn hrun hq hfit hstate hfly hothers hwaiting hlevel hroom
  · intro f bytes hservice hf hp hmark hcommand
    obtain ⟨-, -, -, -, -, -, hhook, -⟩ := (quiet_iff _).mp hq
    obtain ⟨t, hgo, h⟩ := standbySent_sleeps hrun hq hservice hf hp hmark hcommand
    exact ⟨t, hgo, h.opState, h.progress, h.checkIn, h.keep, h.cabinet, h.directory, h.announcing, h.circuits, h.queue,
      h.service, h.draw, h.bearers, h.audio, by rw [h.panel, hhook], h.call, h.reports⟩

end Sys2Proof.Machine
